-- ==== Sys2Proof/Word.lean ====
section
/-! DEFINITION. Word.lean: the word types of the part (00 R2, 01 Table 1-2). -/

namespace Sys2Proof

/-- A doubleword: an x register, a special register, an instruction word. -/
abbrev Word := BitVec 64
/-- A byte of memory. -/
abbrev Byte := BitVec 8
/-- A 32-bit word, the unit of the caches (13). -/
abbrev W32 := BitVec 32
/-- A vector register (09 R166). -/
abbrev VReg := BitVec 512
/-- The words of a frame, one bit each (13 R264). -/
abbrev Mask := BitVec 32
/-- The lanes of a team, one bit each (05 R97). -/
abbrev LaneSet := BitVec 1024
/-- A field naming an x register (02 R29). -/
abbrev Xr := BitVec 6
/-- A field naming a predicate. -/
abbrev Pr := BitVec 4
/-- A field naming a vector register. -/
abbrev Vr := BitVec 5
/-- A field naming a tile slot. -/
abbrev Tr := BitVec 6
/-- A field naming a queue register. -/
abbrev Qr := BitVec 4

end Sys2Proof
end

