-- ==== Sys2Proof/Syntax.lean ====
section
/-! DEFINITION. Syntax.lean: the steps of the part, one constructor for each row of the opcode table.
Rows BR to FAULTACK.refuse are instruction words (with the common fields of 02 Table 2-5 in `Hdr`), the rows of
11 Table 11-6 are copy-engine commands, and every other row is a step of a unit of the part or of its surroundings. -/

namespace Sys2Proof

/-- The common fields of an instruction word: guard, guard negate, scoreboard slot (02 R27). -/
structure Hdr where
  g  : Pr
  gn : Bool
  sb : BitVec 3
deriving DecidableEq, Repr

/-- Integer widths, codes 0 to 3 of 02 Table 2-7. -/
inductive Wd where
  | w8 | w16 | w32 | w64
deriving DecidableEq, Repr

/-- Type codes of 02 Table 2-7. -/
inductive Ty where
  | i8 | i16 | i32 | i64 | f32 | bf16 | f16 | e4m3 | e5m2 | ts8
deriving DecidableEq, Repr

/-- Rounding codes of 02 Table 2-7. -/
inductive Rm where
  | dyn | rne | rtz | rdn | rup | sr
deriving DecidableEq, Repr

/-- Scopes of 02 Table 2-7, narrowest first. -/
inductive Scope where
  | ln | tm | cl | di | dv | sy
deriving DecidableEq, Repr

/-- Request types of 02 Table 2-6. -/
inductive ReqType where
  | si | wt | ow | uc
deriving DecidableEq, Repr

/-- Conditions of 07 R143. -/
inductive Cond where
  | eq | ne | lt | le | ltu | leu
deriving DecidableEq, Repr

/-- Reliability classes (15 R319), FULL ranking highest. -/
inductive RClass where
  | full | detect | none
deriving DecidableEq, Repr

/-- Formats of a subscription record (13 Table 13-6). -/
inductive AssayFmt where
  | exact | bf16 | f16 | e4m3 | e5m2
deriving DecidableEq, Repr

/-- Group reductions (17 Table 17-6). -/
inductive GrpOp where
  | add | min | max | minu | maxu | and | or | xor
deriving DecidableEq, Repr

/-- The second source of an element word (09 R170). -/
inductive VSrc where
  | reg (b : Vr)
  | scalar (x : Xr)
  | imm (c : BitVec 6)
deriving DecidableEq, Repr

/-- The governing fields of a vector word (02 Table 2-6, 09 R167). -/
structure Gov where
  gv : Bool
  pg : Vr
  z  : Bool
deriving DecidableEq, Repr

/-- A region of a tile slot: the whole slot, or a half (12 R245, R250). -/
inductive Half where
  | whole | lo | hi
deriving DecidableEq, Repr

/-- One half of a VPAIR word (02 Table 2-8). -/
structure VHalf where
  cop : BitVec 5
  vd  : BitVec 4
  va  : Vr
  vb  : Vr
  ty  : BitVec 3
  pg  : Vr
  gv  : Bool
deriving DecidableEq, Repr

/-- A unit id (18 R377): the place and the incarnation. -/
structure UKey where
  cluster : Nat
  pipe    : Nat
  slot    : Nat
  team    : Bool
  inc     : Nat
deriving DecidableEq, Repr

/-- Where a physical address leads (16 R345). -/
inductive Space where
  | dev                    -- device memory, by DPA
  | host                   -- host memory
  | portB                  -- memory of a port-B peer (kind-2 window)
  | peer (devnum : Nat)    -- memory of a linked device (kind-3 window)
deriving DecidableEq, Repr

/-- A classified physical address; of a frame where `addr` is a frame number (PA / 128). -/
structure PAddr where
  space : Space
  addr  : Nat
deriving DecidableEq, Repr

/-- What sends a message or an event (18 R457): a unit, or a source number of Table 18-15. -/
inductive Source where
  | unit (u : UKey)
  | num (n : Nat)
  | farUnit (dev : Nat) (u : UKey)     -- the same of another device
  | farNum (dev n : Nat)
deriving DecidableEq, Repr

/-- How a pre-emption was asked for (18 R403, R415). -/
inductive PreemptMode where
  | adaptive | save | kill
deriving DecidableEq, Repr

/-- What a bit error strikes (15 R324, R132, R336). -/
inductive ErrSite where
  | block (dpaBlock : Nat) (rebuildable : Bool)        -- a 64-byte block of HBM
  | sramSpad (cluster addr : Nat) (single : Bool)      -- scratchpad word
  | sramTile (cluster slot : Nat) (single : Bool)      -- operand slot
  | sramL1 (cluster pipe vframe asid word : Nat) (single : Bool)
  | sramL2 (die vframe asid word : Nat) (single : Bool)
  | regX (u : UKey) (lane : Nat) (r : Xr)
  | regP (u : UKey) (lane : Nat) (r : Pr)
  | regV (u : UKey) (r : Vr)
  | regSr (u : UKey) (sri : BitVec 12)
  | regRow (cluster pipe row : Nat)                    -- a row of the register SRAM of a pipeline
  | hubHeader                                          -- parity of a header in a hub buffer
  | hubData (pf : PAddr) (die : Nat) (word : Nat)      -- parity of a data flit: words of a DAT
deriving DecidableEq, Repr

/-- AtomicOps that arrive at a port (19 Table 19-2). -/
inductive AtomicOp where
  | fetchAdd | swap | cas
deriving DecidableEq, Repr

/-- The steps of the opcode table that are no instruction words, each with what it acts on: copy-engine commands, and
steps of a unit of the part or of its surroundings. -/
inductive Ev where
  -- memory words (13)
  | reservationTimeout (u : UKey) (lane id : Nat)
  -- scratchpad words (10)
  | outstandingFeStep (id : Nat)
  | sfreeComplete (cluster base : Nat)
  | feWaiterRetry (u : UKey) (id : Nat)
  | feTimedRetry (u : UKey) (id : Nat)
  -- queue words and the copy engine (11)
  | queueRetry (u : UKey) (id : Nat)
  | channelAccept (cluster ch : Nat)
  | copy (cluster id : Nat)
  | copy2d (cluster id : Nat)
  | gather (cluster id : Nat)
  | scatter (cluster id : Nat)
  | fill (cluster id : Nat)
  | convert (cluster id : Nat)
  | tileld (cluster id : Nat)
  | tilest (cluster id : Nat)
  | flagset (cluster id : Nat)
  | bardec (cluster id : Nat)
  -- matrix words (12)
  | gangLatchTimeout (die id : Nat)
  | engineStart (cluster base : Nat)
  | governorGrant (cluster : Nat)
  | governorWindowEnd (cluster : Nat)
  -- barriers and groups (17)
  | barrierWaitRetry (u : UKey) (id : Nat)
  | groupWaitRetry (u : UKey) (id : Nat)
  -- context and supervisor words (18, 16, 15)
  | reclassComplete (g s : Nat)
  -- issue and units (02, 05, 06)
  | clauseFetch (u : UKey)
  | splitIssue (cluster pipe : Nat)
  | issueArbitration (cluster base : Nat)
  | urgentFirstClause (cluster base : Nat)
  | wordComplete (id : Nat)
  | harnessFormation (cluster hid : Nat)
  | rendezvousTimeout (cluster id : Nat)
  | teamSplit (u : UKey)
  | autoSplit (u : UKey)
  | unitExit (u : UKey)
  -- caches and directory (13)
  | fadeInterval (die : Nat)
  | rds (die : Nat) (pf : PAddr) (m : Mask) (acc : Nat)
  | rdo (die : Nat) (pf : PAddr) (m : Mask) (acc : Nat)
  | stw (die : Nat) (pf : PAddr) (m : Mask) (data : List W32) (acc : Nat)
  | upg (die : Nat) (pf : PAddr) (m : Mask) (fmt : AssayFmt) (mode : Bool) (acc : Nat)
  | uns (die : Nat) (pf : PAddr) (m : Mask) (acc : Nat)
  | evc (die : Nat) (pf : PAddr) (m : Mask)
  | wbk (die : Nat) (pf : PAddr) (m : Mask) (data : List W32)
  | fwd (owner : Nat) (pf : PAddr) (m : Mask) (die acc : Nat)
  | inv (die : Nat) (pf : PAddr) (m : Mask) (txn : Nat)
  | upd (die : Nat) (pf : PAddr) (word : Nat) (v : W32) (bad : Bool) (txn : Nat)
  | rcl (die : Nat) (pf : PAddr) (m : Mask)
  | dat (die : Nat) (pf : PAddr) (m : Mask) (data : List W32) (bad : Mask) (acc : Nat)
  | ack (txn : Nat)
  | nakRetry (id : Nat)
  | directorySliceFailure (slice : Nat)
  -- reliability (15)
  | errorCharge (ctx : Nat) (who : Option UKey) (lane : Nat) (pc : Word) (widx : Nat) (cmd : Bool) (acc : Nat)
  -- translation (16)
  | translationWalk (acc : Nat)
  | migrationRewalk (tag : Nat)
  | heldRequestComplete (acc : Nat)
  | operandLogRecord (u : UKey)
  | shootdownComplete (ticket : Nat)
  | imbShootdownRange (addr arg cmd : Word)
  | imbShootdownAsid (addr arg cmd : Word)
  | imbShootdownAll (addr arg cmd : Word)
  | imbShootdownGlobal (addr arg cmd : Word)
  | imbFaultRetry (addr arg cmd : Word)
  | imbFaultRefuse (addr arg cmd : Word)
  -- launch and contexts (18)
  | dispatchCycle
  | tileFlagReread (q : Nat)
  | recordComplete (q seq : Nat)
  | lateCompletionCheck (port ctx gen : Nat) (tag : Word) (addr : Nat) (data : List (Option Byte))
  | messageDelivery (src : Source) (dst : UKey) (dw0 dw1 dw2 dw3 : Word) (tries oid : Nat)
  | eventRecordWrite (src : Source) (srcseq : Nat) (dw0 dw1 dw2 dw3 : Word) (cause : Nat)
  | preemptionArrival (u : UKey) (mode : PreemptMode) (by_ : Nat)
  | drainTimeout (u : UKey) (id : Nat)
  | doorbellAdvance (q value : Nat)
  | doorbellDrain (q : Nat)
  | doorbellAbort (q : Nat)
  | doorbellReset (q value : Nat)
  | doorbellRun (q : Nat)
  -- host and ports (19)
  | hubLqbaseWrite (v : Word)
  | eqCtlWrite (v : Word)
  | windowEntryWrite (i dw : Nat) (v : Word)
  | windowEntryRead (i dw : Nat)
  | registerWrite (off : Nat) (v : Word)
  | inboundPostedWrite (port addr : Nat) (bytes : List (Option Byte)) (ro : Bool)
  | inboundFrame (port route n : Nat)
  | frameAck (port route n : Nat)
  | inboundAtomicop (port addr : Nat) (op : AtomicOp) (bytes : Nat) (x y : BitVec 128) (tag : Nat)
  | cxlMemRequest (addr : Nat) (write : Bool) (bytes : List (Option Byte)) (tag : Nat)
  | linkMessage (src dst : Nat) (frame : Nat) (payload : List Word) (acc : Nat)
  | linkFlitReceive (link seq : Nat) (crcOk : Bool) (lane : Nat) (payload : List Word)
  | linkReplay (link seq : Nat)
  | laneRepair (link lane : Nat)
  -- management (20)
  | powerSample (watts : Nat) (temps : List Nat)
  | thermalTrip (temp flow : Nat)
  | moduleReset
  | mgmtAttest (addr : Nat)
  | mgmtReadCert (addr : Nat)
  | mgmtCommitFirmware (addr : Nat)
  | mgmtRestoreSlice (addr : Nat)
  | mgmtInvalidCmd
  | waitmTimedRetry (u : UKey) (id : Nat)
  | bitError (site : ErrSite)
  | imbKindRejected (addr arg cmd : Word)
  | inboundReadRequest (port addr bytes tag : Nat)
  | mgmtCommandComplete
deriving DecidableEq, Repr

/-- The rows of the opcode table. An instruction word carries its fields; a row that is no word finds what it acts on
in the state (`State.arg`, of type `Ev`). -/
inductive Instr where
  -- control words (05, 06)
  | br (h : Hdr) (off : BitVec 30)
  | brDiv (h : Hdr) (off : BitVec 30)
  | join (h : Hdr)
  | jmp (h : Hdr) (off : BitVec 30)
  | jmpx (h : Hdr) (a : Xr)
  | call (h : Hdr) (d : Xr) (off : BitVec 30)
  | callx (h : Hdr) (d a : Xr)
  | ret (h : Hdr) (a : Xr)
  | loop (h : Hdr) (a : Xr) (off : BitVec 30)
  | halt (h : Hdr)
  | yield (h : Hdr)
  | nop (h : Hdr)
  | cinch (h : Hdr) (a b : Xr) (kc : BitVec 2) (wc : BitVec 2) (entry : BitVec 24)
  | split (h : Hdr)
  | movsr (h : Hdr) (d : Xr) (sri : BitVec 12)
  | movrs (h : Hdr) (sri : BitVec 12) (a : Xr)
  | movrsSet (h : Hdr) (sri : BitVec 12) (a : Xr)
  | movrsClr (h : Hdr) (sri : BitVec 12) (a : Xr)
  -- integer words (07)
  | add (h : Hdr) (t : Wd) (d a b : Xr)
  | sub (h : Hdr) (t : Wd) (d a b : Xr)
  | adds (h : Hdr) (t : Wd) (d a b : Xr)
  | addsu (h : Hdr) (t : Wd) (d a b : Xr)
  | subs (h : Hdr) (t : Wd) (d a b : Xr)
  | subsu (h : Hdr) (t : Wd) (d a b : Xr)
  | mul (h : Hdr) (t : Wd) (d a b : Xr)
  | mulh (h : Hdr) (t : Wd) (d a b : Xr)
  | mulhu (h : Hdr) (t : Wd) (d a b : Xr)
  | div (h : Hdr) (t : Wd) (d a b : Xr)
  | divu (h : Hdr) (t : Wd) (d a b : Xr)
  | rem (h : Hdr) (t : Wd) (d a b : Xr)
  | remu (h : Hdr) (t : Wd) (d a b : Xr)
  | and (h : Hdr) (t : Wd) (d a b : Xr)
  | or (h : Hdr) (t : Wd) (d a b : Xr)
  | xor (h : Hdr) (t : Wd) (d a b : Xr)
  | andn (h : Hdr) (t : Wd) (d a b : Xr)
  | orn (h : Hdr) (t : Wd) (d a b : Xr)
  | shl (h : Hdr) (t : Wd) (d a b : Xr)
  | shr (h : Hdr) (t : Wd) (d a b : Xr)
  | sra (h : Hdr) (t : Wd) (d a b : Xr)
  | rol (h : Hdr) (t : Wd) (d a b : Xr)
  | clz (h : Hdr) (t : Wd) (d a : Xr)
  | ctz (h : Hdr) (t : Wd) (d a : Xr)
  | popc (h : Hdr) (t : Wd) (d a : Xr)
  | min (h : Hdr) (t : Wd) (d a b : Xr)
  | max (h : Hdr) (t : Wd) (d a b : Xr)
  | minu (h : Hdr) (t : Wd) (d a b : Xr)
  | maxu (h : Hdr) (t : Wd) (d a b : Xr)
  | abs (h : Hdr) (t : Wd) (sat : Bool) (d a : Xr)
  | sel (h : Hdr) (d : Xr) (pc : Pr) (a b : Xr)
  | lea (h : Hdr) (d a b : Xr) (s : BitVec 3)
  | ext (h : Hdr) (t : Wd) (d a : Xr)
  | extu (h : Hdr) (t : Wd) (d a : Xr)
  | bfx (h : Hdr) (d a : Xr) (pos len1 : BitVec 6)
  | bfxu (h : Hdr) (d a : Xr) (pos len1 : BitVec 6)
  | bfi (h : Hdr) (d a : Xr) (pos len1 : BitVec 6)
  | cmp (h : Hdr) (c : Cond) (t : Wd) (pd : Pr) (a b : Xr) (pc : Pr)
  | pand (h : Hdr) (pd pa pb : Pr)
  | por (h : Hdr) (pd pa pb : Pr)
  | pxor (h : Hdr) (pd pa pb : Pr)
  | pnot (h : Hdr) (pd pa : Pr)
  | addi (h : Hdr) (t : Wd) (d a : Xr) (imm : BitVec 24)
  | muli (h : Hdr) (t : Wd) (d a : Xr) (imm : BitVec 24)
  | andi (h : Hdr) (t : Wd) (d a : Xr) (imm : BitVec 24)
  | ori (h : Hdr) (t : Wd) (d a : Xr) (imm : BitVec 24)
  | xori (h : Hdr) (t : Wd) (d a : Xr) (imm : BitVec 24)
  | shli (h : Hdr) (t : Wd) (d a : Xr) (imm : BitVec 24)
  | shri (h : Hdr) (t : Wd) (d a : Xr) (imm : BitVec 24)
  | srai (h : Hdr) (t : Wd) (d a : Xr) (imm : BitVec 24)
  | roli (h : Hdr) (t : Wd) (d a : Xr) (imm : BitVec 24)
  | cmpi (h : Hdr) (c : Cond) (t : Wd) (pd : Pr) (a : Xr) (imm : BitVec 24)
  | li (h : Hdr) (d : Xr) (imm : BitVec 24)
  | lihMid (h : Hdr) (d : Xr) (imm : BitVec 24)
  | lihHigh (h : Hdr) (d : Xr) (imm : BitVec 16)
  -- scalar floating point (08)
  | fadd (h : Hdr) (t : Ty) (rm : Rm) (sat ftz : Bool) (d a b : Xr)
  | fsub (h : Hdr) (t : Ty) (rm : Rm) (sat ftz : Bool) (d a b : Xr)
  | fmul (h : Hdr) (t : Ty) (rm : Rm) (sat ftz : Bool) (d a b : Xr)
  | fma (h : Hdr) (t : Ty) (rm : Rm) (sat ftz : Bool) (d a b c : Xr)
  | fdiv (h : Hdr) (t : Ty) (rm : Rm) (ftz : Bool) (d a b : Xr)
  | fsqrt (h : Hdr) (t : Ty) (rm : Rm) (ftz : Bool) (d a : Xr)
  | fmin (h : Hdr) (t : Ty) (ftz : Bool) (d a b : Xr)
  | fmax (h : Hdr) (t : Ty) (ftz : Bool) (d a b : Xr)
  | fcmp (h : Hdr) (c : Cond) (t : Ty) (ftz : Bool) (pd : Pr) (a b : Xr) (pc : Pr)
  | fcvt (h : Hdr) (t1 t2 : Ty) (rm : Rm) (sat ftz : Bool) (d a : Xr)
  | fcvtu (h : Hdr) (t1 t2 : Ty) (rm : Rm) (ftz : Bool) (d a : Xr)
  | fclass (h : Hdr) (t : Ty) (d a : Xr)
  | frcp (h : Hdr) (t : Ty) (rm : Rm) (ftz : Bool) (d a : Xr)
  | frsq (h : Hdr) (t : Ty) (rm : Rm) (ftz : Bool) (d a : Xr)
  | fexp2 (h : Hdr) (t : Ty) (rm : Rm) (ftz : Bool) (d a : Xr)
  | flog2 (h : Hdr) (t : Ty) (rm : Rm) (ftz : Bool) (d a : Xr)
  | fsinp (h : Hdr) (t : Ty) (rm : Rm) (ftz : Bool) (d a : Xr)
  | fscale (h : Hdr) (t : Ty) (rm : Rm) (ftz : Bool) (d a b : Xr)
  -- vector words (09)
  | vld (h : Hdr) (gv z : Bool) (rt : ReqType) (sc : Scope) (wd : Wd) (d : Vr) (a : Xr) (pg : Vr) (off : BitVec 18)
  | vst (h : Hdr) (gv : Bool) (rt : ReqType) (sc : Scope) (wd : Wd) (d : Vr) (a : Xr) (pg : Vr) (off : BitVec 18)
  | vldx (h : Hdr) (gov : Gov) (rt : ReqType) (sc : Scope) (wd : Wd) (d : Vr) (a : Xr) (b : Vr)
  | vstx (h : Hdr) (gv : Bool) (pg : Vr) (rt : ReqType) (sc : Scope) (wd : Wd) (d : Vr) (a : Xr) (b : Vr)
  | vadd (h : Hdr) (t : Wd) (gov : Gov) (sat : Bool) (d a : Vr) (b : VSrc)
  | vaddu (h : Hdr) (t : Wd) (gov : Gov) (d a : Vr) (b : VSrc)
  | vsub (h : Hdr) (t : Wd) (gov : Gov) (sat : Bool) (d a : Vr) (b : VSrc)
  | vsubu (h : Hdr) (t : Wd) (gov : Gov) (d a : Vr) (b : VSrc)
  | vmul (h : Hdr) (t : Wd) (gov : Gov) (d a : Vr) (b : VSrc)
  | vmulh (h : Hdr) (t : Wd) (gov : Gov) (d a : Vr) (b : VSrc)
  | vmulhu (h : Hdr) (t : Wd) (gov : Gov) (d a : Vr) (b : VSrc)
  | vmin (h : Hdr) (t : Wd) (gov : Gov) (d a : Vr) (b : VSrc)
  | vmax (h : Hdr) (t : Wd) (gov : Gov) (d a : Vr) (b : VSrc)
  | vminu (h : Hdr) (t : Wd) (gov : Gov) (d a : Vr) (b : VSrc)
  | vmaxu (h : Hdr) (t : Wd) (gov : Gov) (d a : Vr) (b : VSrc)
  | vand (h : Hdr) (t : Wd) (gov : Gov) (d a : Vr) (b : VSrc)
  | vor (h : Hdr) (t : Wd) (gov : Gov) (d a : Vr) (b : VSrc)
  | vxor (h : Hdr) (t : Wd) (gov : Gov) (d a : Vr) (b : VSrc)
  | vshl (h : Hdr) (t : Wd) (gov : Gov) (d a : Vr) (b : VSrc)
  | vshr (h : Hdr) (t : Wd) (gov : Gov) (d a : Vr) (b : VSrc)
  | vsra (h : Hdr) (t : Wd) (gov : Gov) (d a : Vr) (b : VSrc)
  | vfadd (h : Hdr) (t : Ty) (gov : Gov) (rm : Rm) (d a : Vr) (b : VSrc)
  | vfmul (h : Hdr) (t : Ty) (gov : Gov) (rm : Rm) (d a : Vr) (b : VSrc)
  | vfma (h : Hdr) (t : Ty) (gov : Gov) (rm : Rm) (d a : Vr) (b : VSrc)
  | vfmin (h : Hdr) (t : Ty) (gov : Gov) (d a : Vr) (b : VSrc)
  | vfmax (h : Hdr) (t : Ty) (gov : Gov) (d a : Vr) (b : VSrc)
  | vfcvt (h : Hdr) (t ts : Ty) (gov : Gov) (rm : Rm) (sat : Bool) (part : BitVec 3) (d a : Vr)
  | vfcvtu (h : Hdr) (t ts : Ty) (gov : Gov) (rm : Rm) (sat : Bool) (part : BitVec 3) (d a : Vr)
  | vcmp (h : Hdr) (c : Cond) (t : Ty) (gov : Gov) (d a : Vr) (b : VSrc)
  | vwhile (h : Hdr) (t : Ty) (d : Vr) (a b : Xr)
  | vlen (h : Hdr) (d : Xr)
  | vsel (h : Hdr) (t : Ty) (pg : Vr) (d a b : Vr)
  | vbcast (h : Hdr) (t : Ty) (gov : Gov) (d : Vr) (a : Xr)
  | vbcastElement (h : Hdr) (t : Ty) (gov : Gov) (d a : Vr) (e : BitVec 6)
  | vperm (h : Hdr) (t : Ty) (gov : Gov) (d a b : Vr)
  | vcompress (h : Hdr) (t : Ty) (gv : Bool) (pg : Vr) (d a : Vr) (c : Xr)
  | vredadd (h : Hdr) (t : Ty) (gv : Bool) (pg : Vr) (rm : Rm) (sat : Bool) (d a b : Vr)
  | vredmin (h : Hdr) (t : Ty) (gv : Bool) (pg : Vr) (d a b : Vr)
  | vredminu (h : Hdr) (t : Ty) (gv : Bool) (pg : Vr) (d a b : Vr)
  | vredmax (h : Hdr) (t : Ty) (gv : Bool) (pg : Vr) (d a b : Vr)
  | vredmaxu (h : Hdr) (t : Ty) (gv : Bool) (pg : Vr) (d a b : Vr)
  | vscan (h : Hdr) (t : Ty) (gov : Gov) (rm : Rm) (d a b : Vr)
  | vmerge (h : Hdr) (t : Wd) (d a b : Vr) (c : Xr)
  | vmergeu (h : Hdr) (t : Wd) (d a b : Vr) (c : Xr)
  | vmergekv (h : Hdr) (t : Wd) (d a b : Vr) (c : Xr)
  | vmergekvu (h : Hdr) (t : Wd) (d a b : Vr) (c : Xr)
  | vpair (ha hb : VHalf)
  -- memory words (13)
  | ld (h : Hdr) (rt : ReqType) (sc : Scope) (span : BitVec 5) (wd : Wd) (d a : Xr) (off : BitVec 18)
  | st (h : Hdr) (rt : ReqType) (sc : Scope) (span : BitVec 5) (wd : Wd) (b a : Xr) (off : BitVec 18)
  | ldacq (h : Hdr) (rt : ReqType) (sc : Scope) (span : BitVec 5) (wd : Wd) (d a : Xr) (off : BitVec 18)
  | strel (h : Hdr) (rt : ReqType) (sc : Scope) (span : BitVec 5) (wd : Wd) (b a : Xr) (off : BitVec 18)
  | fence (h : Hdr) (sc : Scope)
  | amoadd (h : Hdr) (rt : ReqType) (sc : Scope) (wd : Wd) (d a b : Xr) (off : BitVec 18)
  | amoand (h : Hdr) (rt : ReqType) (sc : Scope) (wd : Wd) (d a b : Xr) (off : BitVec 18)
  | amoor (h : Hdr) (rt : ReqType) (sc : Scope) (wd : Wd) (d a b : Xr) (off : BitVec 18)
  | amoxor (h : Hdr) (rt : ReqType) (sc : Scope) (wd : Wd) (d a b : Xr) (off : BitVec 18)
  | amomin (h : Hdr) (rt : ReqType) (sc : Scope) (wd : Wd) (d a b : Xr) (off : BitVec 18)
  | amominu (h : Hdr) (rt : ReqType) (sc : Scope) (wd : Wd) (d a b : Xr) (off : BitVec 18)
  | amomax (h : Hdr) (rt : ReqType) (sc : Scope) (wd : Wd) (d a b : Xr) (off : BitVec 18)
  | amomaxu (h : Hdr) (rt : ReqType) (sc : Scope) (wd : Wd) (d a b : Xr) (off : BitVec 18)
  | amoswap (h : Hdr) (rt : ReqType) (sc : Scope) (wd : Wd) (d a b : Xr) (off : BitVec 18)
  | amocas (h : Hdr) (rt : ReqType) (sc : Scope) (wd : Wd) (d a b : Xr) (off : BitVec 18)
  | ldlk (h : Hdr) (rt : ReqType) (sc : Scope) (span : BitVec 5) (wd : Wd) (d a : Xr) (off : BitVec 18)
  | stck (h : Hdr) (rt : ReqType) (sc : Scope) (wd : Wd) (pd : Pr) (b a : Xr) (off : BitVec 18)
  | subscr (h : Hdr) (fmt : AssayFmt) (mode : Bool) (span : BitVec 5) (pd : Pr) (a : Xr) (off : BitVec 18)
  | unsub (h : Hdr) (span : BitVec 5) (a : Xr) (off : BitVec 18)
  | upgr (h : Hdr) (fmt : AssayFmt) (span : BitVec 5) (pd : Pr) (a : Xr) (off : BitVec 18)
  | invspan (h : Hdr) (sc : Scope) (span : BitVec 5) (a : Xr) (off : BitVec 18)
  | wbspan (h : Hdr) (sc : Scope) (span : BitVec 5) (a : Xr) (off : BitVec 18)
  | pref (h : Hdr) (rt : ReqType) (span : BitVec 5) (a : Xr) (off : BitVec 18)
  | pinw (h : Hdr) (pd : Pr) (a b : Xr) (off : BitVec 18)
  | unpinw (h : Hdr) (pd : Pr) (a : Xr) (off : BitVec 18)
  -- scratchpad words (10)
  | lds (h : Hdr) (wd : Wd) (d a : Xr) (imm : BitVec 24)
  | ldsu (h : Hdr) (wd : Wd) (d a : Xr) (imm : BitVec 24)
  | sts (h : Hdr) (wd : Wd) (b a : Xr) (imm : BitVec 24)
  | ldsf (h : Hdr) (wd : Wd) (d a : Xr) (imm : BitVec 24)
  | ldse (h : Hdr) (wd : Wd) (d a : Xr) (imm : BitVec 24)
  | stsf (h : Hdr) (wd : Wd) (b a : Xr) (imm : BitVec 24)
  | stsx (h : Hdr) (wd : Wd) (b a : Xr) (imm : BitVec 24)
  | feopf (h : Hdr) (a b : Xr)
  | feope (h : Hdr) (a b : Xr)
  | samoadd (h : Hdr) (wd : Wd) (d a b : Xr)
  | samoand (h : Hdr) (wd : Wd) (d a b : Xr)
  | samoor (h : Hdr) (wd : Wd) (d a b : Xr)
  | samoxor (h : Hdr) (wd : Wd) (d a b : Xr)
  | samomin (h : Hdr) (wd : Wd) (d a b : Xr)
  | samomax (h : Hdr) (wd : Wd) (d a b : Xr)
  | samominu (h : Hdr) (wd : Wd) (d a b : Xr)
  | samomaxu (h : Hdr) (wd : Wd) (d a b : Xr)
  | samoswap (h : Hdr) (wd : Wd) (d a b : Xr)
  | samocas (h : Hdr) (wd : Wd) (d a b c : Xr)
  | salloc (h : Hdr) (d : Xr) (pc : Pr) (a : Xr)
  | sfree (h : Hdr) (a : Xr)
  | sfmtWrite (h : Hdr) (bf : BitVec 4) (a : Xr)
  | sfmtRead (h : Hdr) (d : Xr) (bf : BitVec 4)
  -- queue words and the copy engine (11)
  | qbind (h : Hdr) (q : Qr) (port : BitVec 16)
  | qbindOff (h : Hdr) (q : Qr)
  | qpush (h : Hdr) (q : Qr) (a : Xr) (nb : Bool) (pd : Pr)
  | qpop (h : Hdr) (d : Xr) (q : Qr) (nb : Bool) (pd : Pr)
  | qpeek (h : Hdr) (d : Xr) (q : Qr) (nb : Bool) (pd : Pr)
  | qstat (h : Hdr) (d : Xr) (q : Qr)
  | qdrain (h : Hdr) (q : Qr)
  | qdrainAbort (h : Hdr) (q : Qr)
  -- matrix words (12)
  | tclaim (h : Hdr) (pd : Pr) (c : Xr)
  | trel (h : Hdr) (c : Xr)
  | tzero (h : Hdr) (td : Tr) (hd : Half)
  | tmov (h : Hdr) (td ta : Tr) (hd ha : Half)
  | tmovt (h : Hdr) (td ta : Tr) (hd ha : Half)
  | mma (h : Hdr) (fa fb : Ty) (td ta tb : Tr) (ha hb : Half) (sat : Bool)
  | mmas (h : Hdr) (fa fb : Ty) (td ta tb : Tr) (ha hb : Half) (c : Xr)
  | tcvt (h : Hdr) (tt ts : Ty) (rm : Rm) (sat : Bool) (td ta : Tr) (hd ha : Half)
  | tgang (h : Hdr) (c : Xr)
  | tjoin (h : Hdr) (fa fb : Ty) (td ta tb : Tr) (ha hb : Half) (sat : Bool)
  | tjoins (h : Hdr) (fa fb : Ty) (td ta tb : Tr) (ha hb : Half) (c : Xr)
  -- barriers and groups (17)
  | barinit (h : Hdr) (rt : ReqType) (sc : Scope) (a b : Xr) (off : BitVec 18)
  | bararr (h : Hdr) (rt : ReqType) (sc : Scope) (d a b : Xr) (off : BitVec 18)
  | barexp (h : Hdr) (rt : ReqType) (sc : Scope) (a b : Xr) (off : BitVec 18)
  | barwait (h : Hdr) (rt : ReqType) (sc : Scope) (a b : Xr) (off : BitVec 18)
  | bartest (h : Hdr) (rt : ReqType) (sc : Scope) (pd : Pr) (a b : Xr) (off : BitVec 18)
  | grpsync (h : Hdr) (gi : BitVec 2)
  | grpvoteAll (h : Hdr) (pd pa : Pr) (gi : BitVec 2)
  | grpvoteAny (h : Hdr) (pd pa : Pr) (gi : BitVec 2)
  | grpvoteCount (h : Hdr) (d : Xr) (pa : Pr) (gi : BitVec 2)
  | grpred (h : Hdr) (op : GrpOp) (flt : Bool) (d a : Xr) (gi : BitVec 2)
  -- context and supervisor words (18, 16, 15)
  | trap (h : Hdr) (a : Xr) (code : BitVec 14)
  | eret (h : Hdr) (a : Xr)
  | wake (h : Hdr) (d a b : Xr)
  | sendm (h : Hdr) (sc : Scope) (d a b : Xr)
  | waitm (h : Hdr) (sc : Scope) (d : Xr)
  | waitmNb (h : Hdr) (sc : Scope) (d : Xr)
  | winrd (h : Hdr) (d a b : Xr) (sel : BitVec 14)
  | winwr (h : Hdr) (d a b : Xr) (sel : BitVec 14)
  | ctxsave (h : Hdr) (d a : Xr)
  | ctxload (h : Hdr) (d a : Xr)
  | launch (h : Hdr) (d a : Xr)
  | launchDrain (h : Hdr) (d a : Xr)
  | launchAbort (h : Hdr) (d a : Xr)
  | launchReset (h : Hdr) (d a : Xr)
  | launchRun (h : Hdr) (d a : Xr)
  | preempt (h : Hdr) (d a : Xr)
  | preemptSave (h : Hdr) (d a : Xr)
  | preemptKill (h : Hdr) (d a : Xr)
  | tlbshoot (h : Hdr) (d a b : Xr)
  | tlbshootAsid (h : Hdr) (d b : Xr)
  | tlbshootAll (h : Hdr) (d : Xr)
  | tlbshootGlob (h : Hdr) (d a b : Xr)
  | tlbsync (h : Hdr) (a : Xr)
  | reclass (h : Hdr) (a b : Xr) (c : RClass)
  | reclassRd (h : Hdr) (d a : Xr)
  | errbAdd (h : Hdr) (d a : Xr)
  | errbRep (h : Hdr) (a : Xr)
  | faultack (h : Hdr) (a : Xr)
  | faultackRefuse (h : Hdr) (a : Xr)
  -- commands, and steps of the part
  | reservationTimeout | outstandingFeStep | sfreeComplete | feWaiterRetry | feTimedRetry | queueRetry
  | channelAccept | copy | copy2d | gather | scatter | fill
  | convert | tileld | tilest | flagset | bardec | gangLatchTimeout
  | engineStart | governorGrant | governorWindowEnd | barrierWaitRetry | groupWaitRetry | reclassComplete
  | clauseFetch | splitIssue | issueArbitration | urgentFirstClause | wordComplete | harnessFormation
  | rendezvousTimeout | teamSplit | autoSplit | unitExit | fadeInterval | rds
  | rdo | stw | upg | uns | evc | wbk
  | fwd | inv | upd | rcl | dat | ack
  | nakRetry | directorySliceFailure | errorCharge | translationWalk | migrationRewalk | heldRequestComplete
  | operandLogRecord | shootdownComplete | imbShootdownRange | imbShootdownAsid | imbShootdownAll | imbShootdownGlobal
  | imbFaultRetry | imbFaultRefuse | dispatchCycle | tileFlagReread | recordComplete | lateCompletionCheck
  | messageDelivery | eventRecordWrite | preemptionArrival | drainTimeout | doorbellAdvance | doorbellDrain
  | doorbellAbort | doorbellReset | doorbellRun | hubLqbaseWrite | eqCtlWrite | windowEntryWrite
  | windowEntryRead | registerWrite | inboundPostedWrite | inboundFrame | frameAck | inboundAtomicop
  | cxlMemRequest | linkMessage | linkFlitReceive | linkReplay | laneRepair | powerSample
  | thermalTrip | moduleReset | mgmtAttest | mgmtReadCert | mgmtCommitFirmware | mgmtRestoreSlice
  | mgmtInvalidCmd | waitmTimedRetry | bitError | imbKindRejected | inboundReadRequest | mgmtCommandComplete
deriving DecidableEq, Repr

/-- The row that a step belongs to. -/
def Ev.row : Ev → Instr
  | .reservationTimeout .. => .reservationTimeout
  | .outstandingFeStep .. => .outstandingFeStep
  | .sfreeComplete .. => .sfreeComplete
  | .feWaiterRetry .. => .feWaiterRetry
  | .feTimedRetry .. => .feTimedRetry
  | .queueRetry .. => .queueRetry
  | .channelAccept .. => .channelAccept
  | .copy .. => .copy
  | .copy2d .. => .copy2d
  | .gather .. => .gather
  | .scatter .. => .scatter
  | .fill .. => .fill
  | .convert .. => .convert
  | .tileld .. => .tileld
  | .tilest .. => .tilest
  | .flagset .. => .flagset
  | .bardec .. => .bardec
  | .gangLatchTimeout .. => .gangLatchTimeout
  | .engineStart .. => .engineStart
  | .governorGrant .. => .governorGrant
  | .governorWindowEnd .. => .governorWindowEnd
  | .barrierWaitRetry .. => .barrierWaitRetry
  | .groupWaitRetry .. => .groupWaitRetry
  | .reclassComplete .. => .reclassComplete
  | .clauseFetch .. => .clauseFetch
  | .splitIssue .. => .splitIssue
  | .issueArbitration .. => .issueArbitration
  | .urgentFirstClause .. => .urgentFirstClause
  | .wordComplete .. => .wordComplete
  | .harnessFormation .. => .harnessFormation
  | .rendezvousTimeout .. => .rendezvousTimeout
  | .teamSplit .. => .teamSplit
  | .autoSplit .. => .autoSplit
  | .unitExit .. => .unitExit
  | .fadeInterval .. => .fadeInterval
  | .rds .. => .rds
  | .rdo .. => .rdo
  | .stw .. => .stw
  | .upg .. => .upg
  | .uns .. => .uns
  | .evc .. => .evc
  | .wbk .. => .wbk
  | .fwd .. => .fwd
  | .inv .. => .inv
  | .upd .. => .upd
  | .rcl .. => .rcl
  | .dat .. => .dat
  | .ack .. => .ack
  | .nakRetry .. => .nakRetry
  | .directorySliceFailure .. => .directorySliceFailure
  | .errorCharge .. => .errorCharge
  | .translationWalk .. => .translationWalk
  | .migrationRewalk .. => .migrationRewalk
  | .heldRequestComplete .. => .heldRequestComplete
  | .operandLogRecord .. => .operandLogRecord
  | .shootdownComplete .. => .shootdownComplete
  | .imbShootdownRange .. => .imbShootdownRange
  | .imbShootdownAsid .. => .imbShootdownAsid
  | .imbShootdownAll .. => .imbShootdownAll
  | .imbShootdownGlobal .. => .imbShootdownGlobal
  | .imbFaultRetry .. => .imbFaultRetry
  | .imbFaultRefuse .. => .imbFaultRefuse
  | .dispatchCycle => .dispatchCycle
  | .tileFlagReread .. => .tileFlagReread
  | .recordComplete .. => .recordComplete
  | .lateCompletionCheck .. => .lateCompletionCheck
  | .messageDelivery .. => .messageDelivery
  | .eventRecordWrite .. => .eventRecordWrite
  | .preemptionArrival .. => .preemptionArrival
  | .drainTimeout .. => .drainTimeout
  | .doorbellAdvance .. => .doorbellAdvance
  | .doorbellDrain .. => .doorbellDrain
  | .doorbellAbort .. => .doorbellAbort
  | .doorbellReset .. => .doorbellReset
  | .doorbellRun .. => .doorbellRun
  | .hubLqbaseWrite .. => .hubLqbaseWrite
  | .eqCtlWrite .. => .eqCtlWrite
  | .windowEntryWrite .. => .windowEntryWrite
  | .windowEntryRead .. => .windowEntryRead
  | .registerWrite .. => .registerWrite
  | .inboundPostedWrite .. => .inboundPostedWrite
  | .inboundFrame .. => .inboundFrame
  | .frameAck .. => .frameAck
  | .inboundAtomicop .. => .inboundAtomicop
  | .cxlMemRequest .. => .cxlMemRequest
  | .linkMessage .. => .linkMessage
  | .linkFlitReceive .. => .linkFlitReceive
  | .linkReplay .. => .linkReplay
  | .laneRepair .. => .laneRepair
  | .powerSample .. => .powerSample
  | .thermalTrip .. => .thermalTrip
  | .moduleReset => .moduleReset
  | .mgmtAttest .. => .mgmtAttest
  | .mgmtReadCert .. => .mgmtReadCert
  | .mgmtCommitFirmware .. => .mgmtCommitFirmware
  | .mgmtRestoreSlice .. => .mgmtRestoreSlice
  | .mgmtInvalidCmd => .mgmtInvalidCmd
  | .waitmTimedRetry .. => .waitmTimedRetry
  | .bitError .. => .bitError
  | .imbKindRejected .. => .imbKindRejected
  | .inboundReadRequest .. => .inboundReadRequest
  | .mgmtCommandComplete => .mgmtCommandComplete

end Sys2Proof
end

