-- ==== Sys2Proof/WellFormed.lean ====
section
/-! DEFINITION. WellFormed.lean: the codes of 02 Table 2-7, and the checks of 02 R37 on an instruction word as syntax. -/

namespace Sys2Proof

/-- What an encoding check looks at beside the word: the mode, the lane registers and the privilege (02 R37). -/
structure Env where
  team  : Bool
  super : Bool
  k     : Nat
deriving DecidableEq, Repr

/-- Width codes (02 Table 2-7). -/
def Wd.code : Wd → BitVec 2
  | .w8 => 0 | .w16 => 1 | .w32 => 2 | .w64 => 3
def Wd.of (c : BitVec 2) : Wd :=
  match c.toNat with | 0 => .w8 | 1 => .w16 | 2 => .w32 | _ => .w64
/-- The width in bits, 8 << code (07 R140). -/
def Wd.bits : Wd → Nat
  | .w8 => 8 | .w16 => 16 | .w32 => 32 | .w64 => 64
def Wd.bytes : Wd → Nat
  | .w8 => 1 | .w16 => 2 | .w32 => 4 | .w64 => 8
/-- Width of a four-bit type code; codes 4 to 15 are no integer width (07 R140). -/
def Wd.of4 (c : BitVec 4) : Option Wd :=
  match c.toNat with | 0 => some .w8 | 1 => some .w16 | 2 => some .w32 | 3 => some .w64 | _ => none
def Wd.code4 (t : Wd) : BitVec 4 := t.code.setWidth 4

/-- Type codes (02 Table 2-7). -/
def Ty.code : Ty → BitVec 4
  | .i8 => 0 | .i16 => 1 | .i32 => 2 | .i64 => 3 | .f32 => 4 | .bf16 => 5 | .f16 => 6 | .e4m3 => 7 | .e5m2 => 8 | .ts8 => 9
def Ty.of (c : BitVec 4) : Option Ty :=
  match c.toNat with
  | 0 => some .i8 | 1 => some .i16 | 2 => some .i32 | 3 => some .i64 | 4 => some .f32 | 5 => some .bf16 | 6 => some .f16
  | 7 => some .e4m3 | 8 => some .e5m2 | 9 => some .ts8 | _ => none
/-- Element width in bits (09 Table 9-1). -/
def Ty.bits : Ty → Nat
  | .i8 => 8 | .i16 => 16 | .i32 => 32 | .i64 => 64 | .f32 => 32 | .bf16 => 16 | .f16 => 16 | .e4m3 => 8 | .e5m2 => 8 | .ts8 => 8
def Ty.isInt : Ty → Bool
  | .i8 | .i16 | .i32 | .i64 => true
  | _ => false
/-- Elements of a vector register (09 Table 9-1). -/
def Ty.elems (t : Ty) : Nat := 512 / t.bits
/-- The types 4 to 8, the binary floating formats. -/
def Ty.isFloat : Ty → Bool
  | .f32 | .bf16 | .f16 | .e4m3 | .e5m2 => true
  | _ => false
/-- The types 4 to 6. -/
def Ty.isWide : Ty → Bool
  | .f32 | .bf16 | .f16 => true
  | _ => false
def Ty.isFp8 : Ty → Bool
  | .e4m3 | .e5m2 => true
  | _ => false
def Rm.code : Rm → BitVec 3
  | .dyn => 0 | .rne => 1 | .rtz => 2 | .rdn => 3 | .rup => 4 | .sr => 5
def Rm.of (c : BitVec 3) : Option Rm :=
  match c.toNat with
  | 0 => some .dyn | 1 => some .rne | 2 => some .rtz | 3 => some .rdn | 4 => some .rup | 5 => some .sr | _ => none
def Scope.code : Scope → BitVec 3
  | .ln => 0 | .tm => 1 | .cl => 2 | .di => 3 | .dv => 4 | .sy => 5
def Scope.of (c : BitVec 3) : Option Scope :=
  match c.toNat with
  | 0 => some .ln | 1 => some .tm | 2 => some .cl | 3 => some .di | 4 => some .dv | 5 => some .sy | _ => none
def ReqType.code : ReqType → BitVec 2
  | .si => 0 | .wt => 1 | .ow => 2 | .uc => 3
def ReqType.of (c : BitVec 2) : ReqType :=
  match c.toNat with | 0 => .si | 1 => .wt | 2 => .ow | _ => .uc
def Cond.code : Cond → BitVec 3
  | .eq => 0 | .ne => 1 | .lt => 2 | .le => 3 | .ltu => 4 | .leu => 5
def Cond.of (c : BitVec 3) : Option Cond :=
  match c.toNat with
  | 0 => some .eq | 1 => some .ne | 2 => some .lt | 3 => some .le | 4 => some .ltu | 5 => some .leu | _ => none
def RClass.code : RClass → BitVec 2
  | .full => 0 | .detect => 1 | .none => 2
def RClass.of (c : BitVec 2) : Option RClass :=
  match c.toNat with | 0 => some .full | 1 => some .detect | 2 => some .none | _ => Option.none
def AssayFmt.code : AssayFmt → BitVec 3
  | .exact => 0 | .bf16 => 1 | .f16 => 2 | .e4m3 => 3 | .e5m2 => 4
def AssayFmt.of (c : BitVec 3) : Option AssayFmt :=
  match c.toNat with
  | 0 => some .exact | 1 => some .bf16 | 2 => some .f16 | 3 => some .e4m3 | 4 => some .e5m2 | _ => none
def GrpOp.code : GrpOp → BitVec 5
  | .add => 0 | .min => 1 | .max => 2 | .minu => 3 | .maxu => 4 | .and => 5 | .or => 6 | .xor => 7
def GrpOp.of (c : BitVec 5) : Option GrpOp :=
  match c.toNat with
  | 0 => some .add | 1 => some .min | 2 => some .max | 3 => some .minu | 4 => some .maxu | 5 => some .and | 6 => some .or
  | 7 => some .xor | _ => none

/-- Special registers: index assigned, supervisor needed to read, supervisor needed to write (07 Table 7-2). -/
def srPriv (sri : BitVec 12) : Option (Bool × Bool) :=
  match sri.toNat with
  | 0x000 | 0x001 | 0x002 | 0x003 | 0x004 | 0x005 | 0x006 => some (false, false)
  | 0x010 | 0x011 | 0x012 | 0x013 => some (false, false)
  | 0x014 | 0x020 | 0x021 | 0x022 | 0x023 | 0x024 | 0x025 | 0x026 | 0x030 | 0x050 => some (false, true)
  | 0x027 | 0x031 | 0x040 => some (true, true)
  | _ => none

/-- A pair of types that 04 R76 reserves: equal types, or two integers. -/
def pairReserved (t s : Ty) : Bool := t == s || (t.isInt && s.isInt)

/-- Modifiers that 08 R162 refuses for a conversion to `t` from `s`. -/
def cvtReserved (uns : Bool) (t s : Ty) (rm : Rm) (sat ftz : Bool) : Bool :=
  pairReserved t s || (uns && !t.isInt && !s.isInt) ||
  (rm == .sr && (t.isInt || t == .ts8 || t == .f32)) || (sat && !t.isFp8) || (ftz && t == .ts8)

/-- The parts of a vector conversion (09 R180): the larger element count over the smaller. -/
def cvtParts (t s : Ty) : Nat := max t.elems s.elems / min t.elems s.elems

/-- The operand pairs of 12 Table 12-2: K, whether half-slots are named, whether MMAS takes the pair. -/
def mmaPair (fa fb : Ty) : Option (Nat × Bool × Bool) :=
  if fa.isFp8 && fb.isFp8 then some (128, true, true)
  else if fa == .i8 && fb == .i8 then some (128, true, false)
  else if fa == fb && (fa == .bf16 || fa == .f16) then some (64, true, true)
  else if (fa == .ts8 && fb.isFp8) || (fa.isFp8 && fb == .ts8) then some (256, false, true)
  else none

/-- Types that TCVT takes (12 R252). -/
def tcvtType : Ty → Bool
  | .i16 | .i64 => false
  | _ => true

/-- Bytes of a region (12 R230, R245). -/
def Half.size : Half → Nat
  | .whole => 16384
  | _ => 8192

/-- Halves that agree with 12 Table 12-2. -/
def halfOK (half : Bool) (h : Half) : Bool := (h != .whole) == half

/-- Element types of a VP half by operation (02 Table 2-9). -/
def vpTyOK (cop : BitVec 5) (ty : BitVec 3) : Bool :=
  let c := cop.toNat
  let t := ty.toNat
  if c ≤ 17 || 27 ≤ c then t ≤ 3
  else if c ≤ 22 || c == 25 then 4 ≤ t && t ≤ 6
  else t ≤ 6

/-- Whether vb of a VP half names a register (02 Table 2-9). -/
def vpVbReg (cop : BitVec 5) : Bool :=
  let c := cop.toNat
  c ≤ 13 || (18 ≤ c && c ≤ 24)

/-- A reserved modifier in a VP half (02 R34). -/
def vpReserved (x : VHalf) : Bool :=
  !vpTyOK x.cop x.ty ||
  (x.cop == 25 && (let s := x.vb.toNat % 8; s < 4 || 6 < s || s == x.ty.toNat)) || (x.cop == 23 && !x.gv)

/-- A must-be-zero field of a VP half that is not zero (02 Tables 2-8, 2-9). -/
def vpMbz (x : VHalf) : Bool := (!x.gv && x.pg != 0) || (x.cop == 25 && 8 ≤ x.vb.toNat)

/-- A shift count that 02 Table 2-9 refuses. -/
def vpShift (x : VHalf) : Bool :=
  let c := x.cop.toNat
  14 ≤ c && c ≤ 16 && (if x.ty.toNat == 0 then 8 ≤ x.vb.toNat else if x.ty.toNat == 1 then 16 ≤ x.vb.toNat else false)

/-- The vector registers a VP half reads (02 R35); half B names its destination 16 higher. -/
def vpReads (x : VHalf) (hi : Bool) : List Nat :=
  [x.va.toNat] ++ (if vpVbReg x.cop then [x.vb.toNat] else []) ++
  (if x.cop == 20 then [x.vd.toNat + (if hi then 16 else 0)] else []) ++ (if x.gv then [x.pg.toNat] else [])

/-- The pairing limit of 02 R35: more than three distinct registers read, or a shift count out of range. -/
def vpPairBad (a b : VHalf) : Bool :=
  3 < ((vpReads a false ++ vpReads b true).eraseDups).length || vpShift a || vpShift b

namespace WF

def any (h : Hdr) : Bool := h.sb != 7
def slot (h : Hdr) : Bool := h.sb != 7 && h.sb != 0
/-- No guard and no slot. -/
def plain (h : Hdr) : Bool := h.sb == 0 && h.g == 0 && !h.gn
def noGuard (h : Hdr) : Bool := h.sb != 7 && h.g == 0 && !h.gn
/-- An x register in range (02 R29). -/
def x (e : Env) (r : Xr) : Bool := !e.team || decide (r.toNat < e.k)
def x2 (e : Env) (a b : Xr) : Bool := x e a && x e b
def x3 (e : Env) (a b c : Xr) : Bool := x e a && x e b && x e c
def shift (t : Wd) (imm : BitVec 24) : Bool := decide (imm.toNat < t.bits)
def gov (g : Gov) : Bool := g.gv || g.pg == 0
/-- A second source: with an immediate below the width for shifts (09 R170). -/
def src (isShift fp : Bool) (bits : Nat) : VSrc → Bool
  | .reg _ => true
  | .scalar _ => true
  | .imm c => !fp && (!isShift || decide (c.toNat < bits))
def rm4 (rm : Rm) : Bool := rm != .sr
def vmode (e : Env) : Bool := !e.team
def sat8 (t : Ty) (sat : Bool) : Bool := !sat || t.isFp8
def w23 (t : Wd) : Bool := t == .w32 || t == .w64
def mmaOK (fa fb : Ty) (ha hb : Half) (scaled sat : Bool) : Bool :=
  match mmaPair fa fb with
  | none => false
  | some (_, half, s) => halfOK half ha && halfOK half hb && (!scaled || s) && (!sat || fa == .i8)

end WF

open WF in
/-- A word that the checks of 02 R37 let through, in the environment `e`. Rows of the opcode table that are no
instruction words are well formed as they stand. (DEDUCED, log 15.) -/
def Instr.wf (e : Env) : Instr → Bool
  | .br h _ | .brDiv h _ => any h
  | .join h => noGuard h
  | .jmp h _ => noGuard h
  | .jmpx h a | .ret h a => any h && x e a
  | .call h d _ => any h && x e d
  | .callx h d a => any h && x2 e d a
  | .loop h a _ => any h && x e a && a != 0
  | .halt h | .yield h | .nop h => any h
  | .cinch h _ _ _ _ _ => h.sb == 0 && !e.team
  | .split h => plain h
  | .movsr h d sri => any h && x e d && (match srPriv sri with | some (r, _) => !r || e.super | none => false)
  | .movrs h sri a | .movrsSet h sri a | .movrsClr h sri a =>
      any h && x e a && (match srPriv sri with | some (_, w) => !w || e.super | none => false)
  | .add h _ d a b | .sub h _ d a b | .adds h _ d a b | .addsu h _ d a b | .subs h _ d a b | .subsu h _ d a b
  | .mul h _ d a b | .mulh h _ d a b | .mulhu h _ d a b | .div h _ d a b | .divu h _ d a b | .rem h _ d a b
  | .remu h _ d a b | .and h _ d a b | .or h _ d a b | .xor h _ d a b | .andn h _ d a b | .orn h _ d a b
  | .shl h _ d a b | .shr h _ d a b | .sra h _ d a b | .rol h _ d a b | .min h _ d a b | .max h _ d a b
  | .minu h _ d a b | .maxu h _ d a b => any h && x3 e d a b
  | .clz h _ d a | .ctz h _ d a | .popc h _ d a | .ext h _ d a | .extu h _ d a => any h && x2 e d a
  | .abs h _ _ d a => any h && x2 e d a
  | .sel h d _ a b => any h && x3 e d a b
  | .lea h d a b _ => any h && x3 e d a b
  | .bfx h d a p l | .bfxu h d a p l | .bfi h d a p l => any h && x2 e d a && decide (p.toNat + l.toNat + 1 ≤ 64)
  | .cmp h _ _ _ a b _ => any h && x2 e a b
  | .pand h _ _ _ | .por h _ _ _ | .pxor h _ _ _ => any h
  | .pnot h _ _ => any h
  | .addi h _ d a _ | .muli h _ d a _ | .andi h _ d a _ | .ori h _ d a _ | .xori h _ d a _ => any h && x2 e d a
  | .shli h t d a i | .shri h t d a i | .srai h t d a i | .roli h t d a i => any h && x2 e d a && shift t i
  | .cmpi h _ _ _ a _ => any h && x e a
  | .li h d _ | .lihMid h d _ | .lihHigh h d _ => any h && x e d
  | .fadd h t rm sat _ d a b | .fsub h t rm sat _ d a b | .fmul h t rm sat _ d a b =>
      any h && x3 e d a b && t.isFloat && rm4 rm && sat8 t sat
  | .fma h t rm sat _ d a b c => any h && x3 e d a b && x e c && t.isFloat && rm4 rm && sat8 t sat
  | .fdiv h t rm _ d a b => slot h && x3 e d a b && t.isWide && rm4 rm
  | .fsqrt h t rm _ d a | .frcp h t rm _ d a | .frsq h t rm _ d a | .fexp2 h t rm _ d a | .flog2 h t rm _ d a
  | .fsinp h t rm _ d a => slot h && x2 e d a && t.isWide && rm4 rm
  | .fmin h t _ d a b | .fmax h t _ d a b => any h && x3 e d a b && t.isFloat
  | .fcmp h c t _ _ a b _ => any h && x2 e a b && t.isFloat && c != .ltu && c != .leu
  | .fcvt h t s rm sat ftz d a => any h && x2 e d a && !cvtReserved false t s rm sat ftz
  | .fcvtu h t s rm ftz d a => any h && x2 e d a && !cvtReserved true t s rm false ftz
  | .fclass h t d a => any h && x2 e d a && t.isFloat
  | .fscale h t rm _ d a b => any h && x3 e d a b && t.isWide && rm4 rm
  | .vld h gv _ _ _ _ _ _ pg _ => slot h && vmode e && (gv || pg == 0)
  | .vst h gv _ _ _ _ _ pg _ => any h && vmode e && (gv || pg == 0)
  | .vldx h g _ _ _ _ _ _ => slot h && vmode e && gov g
  | .vstx h gv pg _ _ _ _ _ _ => any h && vmode e && (gv || pg == 0)
  | .vadd h t g _ _ _ b | .vsub h t g _ _ _ b => any h && vmode e && gov g && src false false t.bits b
  | .vaddu h t g _ _ b | .vsubu h t g _ _ b | .vmul h t g _ _ b | .vmulh h t g _ _ b | .vmulhu h t g _ _ b
  | .vmin h t g _ _ b | .vmax h t g _ _ b | .vminu h t g _ _ b | .vmaxu h t g _ _ b | .vand h t g _ _ b
  | .vor h t g _ _ b | .vxor h t g _ _ b => any h && vmode e && gov g && src false false t.bits b
  | .vshl h t g _ _ b | .vshr h t g _ _ b | .vsra h t g _ _ b => any h && vmode e && gov g && src true false t.bits b
  | .vfadd h t g rm _ _ b | .vfmul h t g rm _ _ b | .vfma h t g rm _ _ b =>
      any h && vmode e && gov g && src false true t.bits b && t.isWide && rm4 rm
  | .vfmin h t g _ _ b | .vfmax h t g _ _ b => any h && vmode e && gov g && src false true t.bits b && t.isWide
  | .vfcvt h t s g rm sat p _ _ =>
      any h && vmode e && gov g && !cvtReserved false t s rm sat false && decide (p.toNat < cvtParts t s)
  | .vfcvtu h t s g rm sat p _ _ =>
      any h && vmode e && gov g && !cvtReserved true t s rm sat false && decide (p.toNat < cvtParts t s)
  | .vcmp h c t g _ _ b =>
      any h && vmode e && gov g && (t.isInt || t.isWide) && src false (!t.isInt) t.bits b &&
      (t.isInt || (c != .ltu && c != .leu))
  | .vwhile h _ _ _ _ => any h && vmode e
  | .vlen h _ => any h && vmode e
  | .vsel h _ _ _ _ _ => any h && vmode e
  | .vbcast h _ g _ _ => any h && vmode e && gov g
  | .vbcastElement h _ g _ _ _ => any h && vmode e && gov g
  | .vperm h _ g _ _ _ => any h && vmode e && gov g
  | .vcompress h _ gv pg _ _ _ => any h && vmode e && (gv || pg == 0)
  | .vredadd h t gv pg rm sat _ _ _ =>
      slot h && vmode e && (gv || pg == 0) && (t.isInt || t.isWide) && (!sat || t.isInt) && (if t.isInt then rm == .dyn else rm4 rm)
  | .vredmin h t gv pg _ _ _ | .vredmax h t gv pg _ _ _ => slot h && vmode e && (gv || pg == 0) && (t.isInt || t.isWide)
  | .vredminu h t gv pg _ _ _ | .vredmaxu h t gv pg _ _ _ => slot h && vmode e && (gv || pg == 0) && t.isInt
  | .vscan h t g rm _ _ _ => slot h && vmode e && gov g && (t.isInt || t.isWide) && (if t.isInt then rm == .dyn else rm4 rm)
  | .vmerge h t _ _ _ _ | .vmergeu h t _ _ _ _ | .vmergekv h t _ _ _ _ | .vmergekvu h t _ _ _ _ => slot h && vmode e && w23 t
  | .vpair a b =>
      vmode e && !vpReserved a && !vpReserved b && !vpMbz a && !vpMbz b && !vpPairBad a b
  | .ld h _ _ _ _ d a _ | .ldacq h _ _ _ _ d a _ => slot h && x2 e d a
  | .st h _ _ _ _ b a _ | .strel h _ _ _ _ b a _ => any h && x2 e a b
  | .fence h _ => any h
  | .amoadd h _ _ t d a b _ | .amoand h _ _ t d a b _ | .amoor h _ _ t d a b _ | .amoxor h _ _ t d a b _
  | .amomin h _ _ t d a b _ | .amominu h _ _ t d a b _ | .amomax h _ _ t d a b _ | .amomaxu h _ _ t d a b _
  | .amoswap h _ _ t d a b _ | .amocas h _ _ t d a b _ => slot h && x3 e d a b && w23 t
  | .ldlk h _ _ _ t d a _ => slot h && x2 e d a && w23 t
  | .stck h _ _ t _ b a _ => slot h && x2 e a b && w23 t
  | .subscr h _ _ _ _ a _ | .upgr h _ _ _ a _ => slot h && x e a
  | .unsub h _ a _ => any h && x e a
  | .invspan h _ _ a _ | .wbspan h _ _ a _ => any h && x e a
  | .pref h rt _ a _ => any h && x e a && rt != .uc
  | .pinw h _ a b _ => slot h && x2 e a b
  | .unpinw h _ a _ => slot h && x e a
  | .lds h _ d a _ => slot h && x2 e d a
  | .ldsu h t d a _ => slot h && x2 e d a && t != .w64
  | .sts h _ b a _ => any h && x2 e a b
  | .ldsf h t d a _ | .ldse h t d a _ => slot h && x2 e d a && w23 t
  | .stsf h t b a _ | .stsx h t b a _ => any h && x2 e a b && w23 t
  | .feopf h a b | .feope h a b => any h && x2 e a b
  | .samoadd h t d a b | .samoand h t d a b | .samoor h t d a b | .samoxor h t d a b | .samomin h t d a b
  | .samomax h t d a b | .samominu h t d a b | .samomaxu h t d a b | .samoswap h t d a b => slot h && x3 e d a b && w23 t
  | .samocas h t d a b c => slot h && x3 e d a b && x e c && w23 t
  | .salloc h d _ a => slot h && x2 e d a
  | .sfree h a => any h && x e a
  | .sfmtWrite h _ a => any h && x e a
  | .sfmtRead h d _ => slot h && x e d
  | .qbind h _ p => any h && e.team && (decide (p.toNat < 4) || p == 0x10)
  | .qbindOff h _ => any h && e.team
  | .qpush h _ a nb pd => (if nb then slot h else any h && pd == 0) && e.team && x e a
  | .qpop h d _ nb pd | .qpeek h d _ nb pd => slot h && (nb || pd == 0) && e.team && x e d
  | .qstat h d _ => slot h && e.team && x e d
  | .qdrain h _ | .qdrainAbort h _ => any h && e.team
  | .tclaim h _ c => slot h && e.team && x e c
  | .trel h c | .tgang h c => any h && e.team && x e c
  | .tzero h _ _ => any h && e.team
  | .tmov h _ _ hd ha | .tmovt h _ _ hd ha => any h && e.team && (hd == .whole) == (ha == .whole)
  | .mma h fa fb _ _ _ ha hb sat | .tjoin h fa fb _ _ _ ha hb sat => any h && e.team && mmaOK fa fb ha hb false sat
  | .mmas h fa fb _ _ _ ha hb c | .tjoins h fa fb _ _ _ ha hb c => any h && e.team && mmaOK fa fb ha hb true false && x e c
  | .tcvt h t s rm sat _ _ hd ha =>
      any h && e.team && tcvtType t && tcvtType s && !pairReserved t s && rm4 rm && sat8 t sat &&
      decide (ha.size * 8 / s.bits * t.bits / 8 ≤ hd.size)
  | .barinit h _ _ a b _ | .barexp h _ _ a b _ | .barwait h _ _ a b _ => any h && x2 e a b
  | .bararr h _ _ d a b _ => slot h && x3 e d a b
  | .bartest h _ _ _ a b _ => slot h && x2 e a b
  | .grpsync h _ => any h
  | .grpvoteAll h _ _ _ | .grpvoteAny h _ _ _ => slot h
  | .grpvoteCount h d _ _ => slot h && x e d
  | .grpred h op flt d a _ => slot h && x2 e d a && (!flt || op == .add || op == .min || op == .max)
  | .trap h a _ => h.sb == 0 && x e a
  | .eret h a => h.sb == 0 && e.super && x e a
  | .wake h d a b => slot h && e.super && x3 e d a b
  | .sendm h _ d a b => slot h && x3 e d a b && decide (b.toNat ≤ 62) && (!e.team || decide (b.toNat + 1 < e.k))
  | .waitm h _ d | .waitmNb h _ d => slot h && x e d && decide (d.toNat ≤ 60) && (!e.team || decide (d.toNat + 3 < e.k))
  | .winrd h d a b _ => slot h && e.super && x3 e d a b
  | .winwr h d a b _ => any h && e.super && x3 e d a b
  | .ctxsave h d a | .ctxload h d a => slot h && e.super && x2 e d a
  | .launch h d a => slot h && x2 e d a
  | .launchDrain h d a | .launchAbort h d a | .launchReset h d a | .launchRun h d a => slot h && e.super && x2 e d a
  | .preempt h d a | .preemptSave h d a | .preemptKill h d a => slot h && e.super && x2 e d a
  | .tlbshoot h d a b | .tlbshootGlob h d a b => slot h && e.super && x3 e d a b
  | .tlbshootAsid h d b => slot h && e.super && x2 e d b
  | .tlbshootAll h d => slot h && e.super && x e d
  | .tlbsync h a => any h && e.super && x e a
  | .reclass h a b _ => any h && e.super && x2 e a b
  | .reclassRd h d a => slot h && e.super && x2 e d a
  | .errbAdd h d a => slot h && e.super && x2 e d a
  | .errbRep h a => any h && x e a
  | .faultack h a | .faultackRefuse h a => any h && e.super && x e a
  -- commands and steps of the part: no instruction word, hence no encoding check
  | .reservationTimeout | .outstandingFeStep | .sfreeComplete | .feWaiterRetry | .feTimedRetry | .queueRetry | .channelAccept
  | .copy | .copy2d | .gather | .scatter | .fill | .convert | .tileld
  | .tilest | .flagset | .bardec | .gangLatchTimeout | .engineStart | .governorGrant | .governorWindowEnd
  | .barrierWaitRetry | .groupWaitRetry | .reclassComplete | .clauseFetch | .splitIssue | .issueArbitration | .urgentFirstClause
  | .wordComplete | .harnessFormation | .rendezvousTimeout | .teamSplit | .autoSplit | .unitExit | .fadeInterval
  | .rds | .rdo | .stw | .upg | .uns | .evc | .wbk
  | .fwd | .inv | .upd | .rcl | .dat | .ack | .nakRetry
  | .directorySliceFailure | .errorCharge | .translationWalk | .migrationRewalk | .heldRequestComplete | .operandLogRecord | .shootdownComplete
  | .imbShootdownRange | .imbShootdownAsid | .imbShootdownAll | .imbShootdownGlobal | .imbFaultRetry | .imbFaultRefuse | .dispatchCycle
  | .tileFlagReread | .recordComplete | .lateCompletionCheck | .messageDelivery | .eventRecordWrite | .preemptionArrival | .drainTimeout
  | .doorbellAdvance | .doorbellDrain | .doorbellAbort | .doorbellReset | .doorbellRun | .hubLqbaseWrite | .eqCtlWrite
  | .windowEntryWrite | .windowEntryRead | .registerWrite | .inboundPostedWrite | .inboundFrame | .frameAck | .inboundAtomicop
  | .cxlMemRequest | .linkMessage | .linkFlitReceive | .linkReplay | .laneRepair | .powerSample | .thermalTrip
  | .moduleReset | .mgmtAttest | .mgmtReadCert | .mgmtCommitFirmware | .mgmtRestoreSlice | .mgmtInvalidCmd | .waitmTimedRetry
  | .bitError | .imbKindRejected | .inboundReadRequest | .mgmtCommandComplete => true

/-- The rows of the opcode table that are instruction words, up to FAULTACK.refuse and without the steps that stand
among them. -/
def Instr.isWord : Instr → Bool
  | .reservationTimeout | .outstandingFeStep | .sfreeComplete | .feWaiterRetry | .feTimedRetry | .queueRetry | .channelAccept
  | .copy | .copy2d | .gather | .scatter | .fill | .convert | .tileld
  | .tilest | .flagset | .bardec | .gangLatchTimeout | .engineStart | .governorGrant | .governorWindowEnd
  | .barrierWaitRetry | .groupWaitRetry | .reclassComplete | .clauseFetch | .splitIssue | .issueArbitration | .urgentFirstClause
  | .wordComplete | .harnessFormation | .rendezvousTimeout | .teamSplit | .autoSplit | .unitExit | .fadeInterval
  | .rds | .rdo | .stw | .upg | .uns | .evc | .wbk
  | .fwd | .inv | .upd | .rcl | .dat | .ack | .nakRetry
  | .directorySliceFailure | .errorCharge | .translationWalk | .migrationRewalk | .heldRequestComplete | .operandLogRecord | .shootdownComplete
  | .imbShootdownRange | .imbShootdownAsid | .imbShootdownAll | .imbShootdownGlobal | .imbFaultRetry | .imbFaultRefuse | .dispatchCycle
  | .tileFlagReread | .recordComplete | .lateCompletionCheck | .messageDelivery | .eventRecordWrite | .preemptionArrival | .drainTimeout
  | .doorbellAdvance | .doorbellDrain | .doorbellAbort | .doorbellReset | .doorbellRun | .hubLqbaseWrite | .eqCtlWrite
  | .windowEntryWrite | .windowEntryRead | .registerWrite | .inboundPostedWrite | .inboundFrame | .frameAck | .inboundAtomicop
  | .cxlMemRequest | .linkMessage | .linkFlitReceive | .linkReplay | .laneRepair | .powerSample | .thermalTrip
  | .moduleReset | .mgmtAttest | .mgmtReadCert | .mgmtCommitFirmware | .mgmtRestoreSlice | .mgmtInvalidCmd | .waitmTimedRetry
  | .bitError | .imbKindRejected | .inboundReadRequest | .mgmtCommandComplete => false
  | _ => true

end Sys2Proof
end

