-- ==== Sys2Proof/Machine/Flags.lean ====
section
/-! DEFINITION. Flags.lean: numbers as bit patterns (04), and the events that the conversions and arithmetic of 04 and 08 raise. -/

namespace Sys2Proof.Machine

/-- The floating-point events NV, DZ, OF, UF, NX as bits 4 to 0, in the order of sr.fpstat (08 Table 8-1). -/
abbrev Events := BitVec 5

def evNV : Events := 16
def evDZ : Events := 8
def evOF : Events := 4
def evUF : Events := 2
def evNX : Events := 1

/-- An exact value: NaN, an infinity, or (−1)^neg × m × 2^e. `more`: the value lies strictly between that and the same with
m + 1, as a quotient, a root or a special function does; m then has more bits than any format (08 R157, R158). -/
inductive FVal where
  | nan
  | inf (neg : Bool)
  | fin (neg : Bool) (m : Nat) (e : Int) (more : Bool)
deriving DecidableEq, Repr

def FVal.zero (neg : Bool) : FVal := .fin neg 0 0 false

/-- The layout of a binary floating-point format (04 Table 4-2). -/
structure Fmt where
  ebits : Nat
  mbits : Nat
  bias  : Nat
  inf   : Bool             -- the format has infinities (04 R63)
deriving DecidableEq, Repr

end Sys2Proof.Machine

namespace Sys2Proof

open Machine

/-- The format of a floating type. -/
def Ty.fmt : Ty → Machine.Fmt
  | .bf16 => ⟨8, 7, 127, true⟩
  | .f16 => ⟨5, 10, 15, true⟩
  | .e4m3 => ⟨4, 3, 7, false⟩
  | .e5m2 => ⟨5, 2, 15, true⟩
  | _ => ⟨8, 23, 127, true⟩

end Sys2Proof

namespace Sys2Proof.Machine

def Fmt.bits (f : Fmt) : Nat := 1 + f.ebits + f.mbits
def Fmt.emin (f : Fmt) : Int := 1 - (f.bias : Int)
def Fmt.sign (f : Fmt) (neg : Bool) : Nat := if neg then 2 ^ (f.bits - 1) else 0
/-- The pattern of +∞; of E4M3, which has none, the NaN 0x7F minus its fraction bits. -/
def Fmt.expMask (f : Fmt) : Nat := (2 ^ f.ebits - 1) * 2 ^ f.mbits
/-- Canonical NaN (03 Table 3-6). -/
def Fmt.nan (f : Fmt) : Nat := if f.inf then f.expMask + 2 ^ (f.mbits - 1) else 0x7F
/-- Largest finite pattern (04 Table 4-3). -/
def Fmt.maxPat (f : Fmt) : Nat := if f.inf then f.expMask - 1 else 0x7E

/-- The exact value of a pattern (03 R59, 04 R62, R63), for the binary floating formats. -/
def Fmt.widen (f : Fmt) (b : Nat) : FVal :=
  let s := Nat.testBit b (f.bits - 1)
  let e := b / 2 ^ f.mbits % 2 ^ f.ebits
  let m := b % 2 ^ f.mbits
  if f.inf && e == 2 ^ f.ebits - 1 then (if m == 0 then .inf s else .nan)
  else if !f.inf && e == 2 ^ f.ebits - 1 && m == 2 ^ f.mbits - 1 then .nan
  else if e == 0 then .fin s m (f.emin - f.mbits) false
  else .fin s (2 ^ f.mbits + m) ((e : Int) - f.bias - f.mbits) false

/-- A subnormal reads as a zero of its sign under ftz (04 R71). -/
def Fmt.widenZ (f : Fmt) (ftz : Bool) (b : Nat) : FVal :=
  if ftz && b / 2 ^ f.mbits % 2 ^ f.ebits == 0 then .zero (Nat.testBit b (f.bits - 1)) else f.widen b

/-- Table 4-6 for an overflow: the pattern and the events. -/
def Fmt.overflow (f : Fmt) (mode : Rm) (sat neg : Bool) : Nat × Events :=
  let s := f.sign neg
  let big := s + f.maxPat
  let inf := s + f.expMask
  let r :=
    if sat then big
    else if !f.inf then f.nan
    else match mode with
      | .rtz => big
      | .rdn => if neg then inf else big
      | .rup => if neg then big else inf
      | _ => inf
  (r, evOF ||| evNX)

/-- The infinite-operand column of Table 4-6. -/
def Fmt.infinite (f : Fmt) (sat neg : Bool) : Nat × Events :=
  if sat then (f.sign neg + f.maxPat, evOF ||| evNX)
  else if f.inf then (f.sign neg + f.expMask, 0)
  else (f.nan, evNV)

/-- Whether a magnitude `t` of quanta is rounded away, given the remainder `rem` of `2 ^ sh` (04 Table 4-5, R74). -/
def roundUp (mode : Rm) (neg : Bool) (t rem sh : Nat) (more : Bool) (draw : Nat) : Bool :=
  let inexact := rem != 0 || more
  match mode with
  | .rtz => false
  | .rdn => neg && inexact
  | .rup => !neg && inexact
  | .sr => decide (draw < rem * 65536 / 2 ^ sh)
  | _ => decide (2 ^ sh < 2 * rem) || (2 * rem == 2 ^ sh && (more || t % 2 == 1))

/-- round_f of 04 R69, with the draw that SR uses (R74). `mode` is resolved: DYN does not occur and acts as RNE. -/
def Fmt.round (f : Fmt) (mode : Rm) (sat ftz : Bool) (draw : Nat) : FVal → Nat × Events
  | .nan => (f.nan, 0)
  | .inf neg => f.infinite sat neg
  | .fin neg m e more =>
    if m == 0 && !more then (f.sign neg, 0)
    else
      let p : Int := f.mbits + 1
      let top : Int := max ((Nat.log2 m : Int) + e) f.emin
      let qe : Int := top - p + 1
      let sh := (qe - e).toNat
      let t := if e < qe then m / 2 ^ sh else m * 2 ^ (e - qe).toNat
      let rem := if e < qe then m % 2 ^ sh else 0
      let m' := if roundUp mode neg t rem sh more draw then t + 1 else t
      let nx := rem != 0 || more
      let pat := (top - f.emin).toNat * 2 ^ f.mbits + m'
      if f.maxPat < pat then f.overflow mode sat neg
      else
        let tiny := decide (pat < 2 ^ f.mbits)
        if tiny && ftz && m' != 0 then (f.sign neg, evUF ||| evNX)
        else (f.sign neg + pat, (if nx then evNX else 0) ||| (if tiny && nx then evUF else 0))

/-- 64 times the value of a TS8 byte (04 R65). -/
def tsVal64 (b : Nat) : Int :=
  let term (s h : Nat) : Int := if h == 7 then 0 else (if s == 1 then -1 else 1) * (2 ^ (6 - h) : Nat)
  term (b / 128) (b / 16 % 8) + term (b / 8 % 2) (b % 8)

/-- Nonzero terms of a TS8 byte. -/
def tsTerms (b : Nat) : Nat := (if b / 16 % 8 == 7 then 0 else 1) + (if b % 8 == 7 then 0 else 1)

/-- The canonical encoding of 64 times a value, where it is a TS8 value: its smallest byte among those with the fewest terms
(04 R66). -/
def tsCanon (v : Int) : Option Nat :=
  (List.range 256).foldl (fun best b =>
    if tsVal64 b != v then best
    else match best with
      | none => some b
      | some c => if tsTerms b < tsTerms c then some b else best) none

/-- Exact value of a TS8 byte; every zero widens to +0 (04 R65). -/
def tsWiden (b : Nat) : FVal :=
  let v := tsVal64 b
  .fin (decide (v < 0)) v.natAbs (-6) false

/-- Comparison of 64 times m × 2^e with an integer: the sign of the difference. -/
def cmp64 (m : Nat) (e : Int) (k : Nat) : Ordering :=
  if 0 ≤ e + 6 then compare (m * 2 ^ (e + 6).toNat) k else compare m (k * 2 ^ (-(e + 6)).toNat)

/-- The neighbours of a magnitude at most 2 among the TS8 magnitudes, times 64: the greatest not above, the least not below. -/
def tsNeighbours (m : Nat) (e : Int) : Nat × Nat :=
  (List.range 129).foldl (fun (lo, hi) (k : Nat) =>
    match tsCanon (k : Int) with
    | none => (lo, hi)
    | some _ =>
      match cmp64 m e k with
      | .lt => (lo, min hi k)
      | .eq => (k, k)
      | .gt => (max lo k, hi)) (0, 128)

/-- Conversion into TS8 (04 R72). -/
def tsRound (mode : Rm) : FVal → Nat × Events
  | .nan => (0x77, evNV)
  | .inf neg => (if neg then 0x88 else 0x00, evOF ||| evNX)
  | .fin neg m e _ =>
    if m == 0 then (0x77, 0)
    else if cmp64 m e 128 == .gt then (if neg then 0x88 else 0x00, evOF ||| evNX)
    else
      let (lo, hi) := tsNeighbours m e
      let enc (k : Nat) : Nat := (tsCanon (if neg then -(k : Int) else k)).getD 0x77
      let up :=
        match mode with
        | .rtz => false
        | .rdn => neg
        | .rup => !neg
        | _ =>
          match cmp64 (2 * m) e (lo + hi) with
          | .lt => false
          | .gt => true
          | .eq => decide (tsTerms (enc hi) < tsTerms (enc lo))
      if lo == hi then (enc lo, 0) else (if up then enc hi else enc lo, evNX)

/-- Conversion into an n-bit integer, signed or not (04 R73): the bits, and the events. -/
def intRound (n : Nat) (signed : Bool) (mode : Rm) : FVal → Nat × Events
  | .nan => (0, evNV)
  | .inf neg => (if neg then (if signed then 2 ^ (n - 1) else 0) else (if signed then 2 ^ (n - 1) - 1 else 2 ^ n - 1), evNV)
  | .fin neg m e more =>
    let lo : Int := if signed then -(2 ^ (n - 1) : Nat) else 0
    let hi : Int := if signed then (2 ^ (n - 1) : Nat) - 1 else (2 ^ n : Nat) - 1
    let sh := (-e).toNat
    let t := if e < 0 then m / 2 ^ sh else m * 2 ^ e.toNat
    let rem := if e < 0 then m % 2 ^ sh else 0
    let t' := if roundUp mode neg t rem sh more 65535 then t + 1 else t
    let v : Int := if neg then -(t' : Int) else t'
    if v < lo then ((lo % (2 ^ n : Nat)).toNat, evNV)
    else if hi < v then ((hi % (2 ^ n : Nat)).toNat, evNV)
    else ((v % (2 ^ n : Nat)).toNat, if rem != 0 || more then evNX else 0)

/-- Exact value of an integer. -/
def intVal (v : Int) : FVal := .fin (decide (v < 0)) v.natAbs 0 false

/-- Exact sum, without the sign of an exact zero. -/
def finAdd (na : Bool) (ma : Nat) (ea : Int) (nb : Bool) (mb : Nat) (eb : Int) : Int × Int :=
  let e := min ea eb
  let a : Int := (ma * 2 ^ (ea - e).toNat : Nat)
  let b : Int := (mb * 2 ^ (eb - e).toNat : Nat)
  ((if na then -a else a) + (if nb then -b else b), e)

/-- A + B of 08 R157 with its special cases; `rdn`: the rounding mode is RDN, under which a zero difference is −0. -/
def fAdd (rdn : Bool) : FVal → FVal → FVal × Events
  | .nan, _ | _, .nan => (.nan, 0)
  | .inf a, .inf b => if a == b then (.inf a, 0) else (.nan, evNV)
  | .inf a, _ => (.inf a, 0)
  | _, .inf b => (.inf b, 0)
  | .fin na ma ea _, .fin nb mb eb _ =>
    let (v, e) := finAdd na ma ea nb mb eb
    if v == 0 then (.zero (if na == nb then na else rdn), 0)
    else (.fin (decide (v < 0)) v.natAbs e false, 0)

def FVal.neg : FVal → FVal
  | .nan => .nan
  | .inf s => .inf (!s)
  | .fin s m e k => .fin (!s) m e k

def FVal.isZero : FVal → Bool
  | .fin _ m _ k => m == 0 && !k
  | _ => false
def FVal.sgn : FVal → Bool
  | .nan => false
  | .inf s => s
  | .fin s _ _ _ => s

/-- A × B. -/
def fMul (a b : FVal) : FVal × Events :=
  match a, b with
  | .nan, _ | _, .nan => (.nan, 0)
  | .fin na ma ea _, .fin nb mb eb _ => (.fin (na != nb) (ma * mb) (ea + eb) false, 0)
  | _, _ => if a.isZero || b.isZero then (.nan, evNV) else (.inf (a.sgn != b.sgn), 0)

/-- A × B + C with one rounding; 0 × ∞ is invalid even where C is NaN (08 Table 8-3). -/
def fMulAdd (rdn : Bool) (a b c : FVal) : FVal × Events :=
  let (p, ev) := fMul a b
  if ev != 0 then (p, ev) else fAdd rdn p c

/-- Bits kept of a quotient or a root beyond those of any format. -/
def guardBits : Nat := 96

/-- A ÷ B. -/
def fDiv (a b : FVal) : FVal × Events :=
  match a, b with
  | .nan, _ | _, .nan => (.nan, 0)
  | .inf _, .inf _ => (.nan, evNV)
  | .inf s, .fin t _ _ _ => (.inf (s != t), 0)
  | .fin s _ _ _, .inf t => (.zero (s != t), 0)
  | .fin s ma ea _, .fin t mb eb _ =>
    if mb == 0 then (if ma == 0 then (.nan, evNV) else (.inf (s != t), evDZ))
    else if ma == 0 then (.zero (s != t), 0)
    else
      let num := ma * 2 ^ (guardBits + Nat.log2 mb)
      (.fin (s != t) (num / mb) (ea - eb - (guardBits + Nat.log2 mb : Nat)) (num % mb != 0), 0)

/-- The integer square root, one bit at a time from bit `i − 1` down. -/
def isqrtFrom (n : Nat) : Nat → Nat → Nat
  | 0, r => r
  | i + 1, r =>
    let c := r + 2 ^ i
    isqrtFrom n i (if c * c ≤ n then c else r)

def isqrt (n : Nat) : Nat := isqrtFrom n (Nat.log2 n / 2 + 1) 0

/-- √A (08 R157). -/
def fSqrt : FVal → FVal × Events
  | .nan => (.nan, 0)
  | .inf s => if s then (.nan, evNV) else (.inf false, 0)
  | .fin s m e _ =>
    if m == 0 then (.zero s, 0)
    else if s then (.nan, evNV)
    else
      let odd := e % 2 != 0
      let n := (if odd then 2 * m else m) * 2 ^ (2 * guardBits)
      let r := isqrt n
      (.fin false r ((if odd then e - 1 else e) / 2 - guardBits) (r * r != n), 0)

/-- 1 ÷ A (08 R158). -/
def fRcp : FVal → FVal × Events
  | .nan => (.nan, 0)
  | .inf s => (.zero s, 0)
  | .fin s m e k => if m == 0 then (.inf s, evDZ) else fDiv (.fin false 1 0 false) (.fin s m e k)

/-- 1 ÷ √A. -/
def fRsq : FVal → FVal × Events
  | .nan => (.nan, 0)
  | .inf s => if s then (.nan, evNV) else (.zero false, 0)
  | .fin s m e _ =>
    if m == 0 then (.inf s, evDZ)
    else if s then (.nan, evNV)
    else
      let odd := e % 2 != 0
      let m' := if odd then 2 * m else m
      let k := 2 * (guardBits + Nat.log2 m')
      let r := isqrt (2 ^ k / m')
      (.fin false r (-((if odd then e - 1 else e) / 2) - (k / 2 : Nat)) (r * r * m' != 2 ^ k), 0)

/-- Bits of the fixed-point numbers of the special functions. -/
def fxBits : Nat := 320

/-- 2^(num ÷ 2^d) for num < 2^d, times 2^fxBits: the product of the roots 2^(2^−i) of the bits of num. (PRESUMED, log 20.) -/
def exp2Frac (num : Nat) : Nat → Nat → Nat → Nat
  | 0, _, acc => acc
  | d + 1, root, acc =>
    let r := isqrt (root * 2 ^ fxBits)
    exp2Frac num d r (if Nat.testBit num d then acc * r / 2 ^ fxBits else acc)

/-- 2^A (08 R158). (PRESUMED, log 20.) -/
def fExp2 : FVal → FVal × Events
  | .nan => (.nan, 0)
  | .inf s => (if s then .zero false else .inf false, 0)
  | .fin s m e _ =>
    if m == 0 then (.fin false 1 0 false, 0)
    else if 16 < (Nat.log2 m : Int) + e then (.fin false 1 (if s then -100000 else 100000) false, 0)
    else
      let d := (-e).toNat
      let whole : Nat := if 0 ≤ e then m * 2 ^ e.toNat else m / 2 ^ d
      let frac : Nat := if 0 ≤ e then 0 else m % 2 ^ d
      if frac == 0 then (.fin false 1 (if s then -(whole : Int) else whole) false, 0)
      else
        let i : Int := if s then -(whole : Int) - 1 else whole
        let f := if s then 2 ^ d - frac else frac
        let v := exp2Frac f d (2 * 2 ^ fxBits) (2 ^ fxBits)
        (.fin false (v / 2 ^ 64) (i - (fxBits - 64 : Nat)) true, 0)

/-- Bits of log₂ x for x in [1, 2), by repeated squaring. (PRESUMED, log 20.) -/
def log2Frac : Nat → Nat → Nat → Nat
  | 0, _, acc => acc
  | k + 1, x, acc =>
    let y := x * x / 2 ^ fxBits
    if 2 ^ (fxBits + 1) ≤ y then log2Frac k (y / 2) (2 * acc + 1) else log2Frac k y (2 * acc)

/-- log₂ A (08 R158). (PRESUMED, log 20.) -/
def fLog2 : FVal → FVal × Events
  | .nan => (.nan, 0)
  | .inf s => if s then (.nan, evNV) else (.inf false, 0)
  | .fin s m e _ =>
    if m == 0 then (.inf true, evDZ)
    else if s then (.nan, evNV)
    else
      let l := Nat.log2 m
      let top : Int := (l : Int) + e
      if m == 2 ^ l then (.fin (decide (top < 0)) top.natAbs 0 false, 0)
      else
        let fr := log2Frac 128 (m * 2 ^ (fxBits - l)) 0
        let t : Int := top * (2 ^ 128 : Nat) + fr
        if 0 ≤ t then (.fin false t.natAbs (-128) true, 0) else (.fin true (-t - 1).natAbs (-128) true, 0)

/-- π × 2^512, rounded down. -/
def pi512 : Nat := 0x3243f6a8885a308d313198a2e03707344a4093822299f31d0082efa98ec4e6c89452821e638d01377be5466cf34e90c6cc0ac29b7c97c50dd3f84d5b5b5470917

/-- The alternating series of sin y, y times 2^512: terms from y^k ÷ k! on. -/
def sinSeries (y2 : Nat) : Nat → Nat → Nat → Int → Int
  | 0, _, _, acc => acc
  | fuel + 1, k, term, acc =>
    let t := term * y2 / 2 ^ 512 / ((k + 1) * (k + 2))
    sinSeries y2 fuel (k + 2) t (if k / 2 % 2 == 0 then acc - t else acc + t)

/-- sin(π × A) (08 R158). (PRESUMED, log 20.) -/
def fSinp : FVal → FVal × Events
  | .nan => (.nan, 0)
  | .inf _ => (.nan, evNV)
  | .fin s m e _ =>
    if 0 ≤ e || m == 0 then (.zero s, 0)
    else
      let d := (-e).toNat
      let one := 2 ^ d
      let a := m % (2 * one)
      let r := a % one
      let neg := s != decide (one ≤ a)
      if r == 0 then (.zero s, 0)
      else if 2 * r == one then (.fin neg 1 0 false, 0)
      else
        let r' := if one < 2 * r then one - r else r
        let y := r' * pi512 / one
        let v := sinSeries (y * y / 2 ^ 512) 120 1 y y
        (.fin neg (v.toNat / 2 ^ 64) (-448) true, 0)

/-- A × 2^b, exactly; magnitudes beyond every format are cut off where they still overflow or vanish (08 R159). -/
def fScale (b : Int) : FVal → FVal
  | .fin s m e k => .fin s m (max (-20000) (min 20000 (e + b))) k
  | v => v

/-- Order of two values that are no NaN; −0 and +0 are equal. -/
def fLe : FVal → FVal → Bool
  | .nan, _ | _, .nan => false
  | .inf true, _ | _, .inf false => true
  | .inf false, _ | _, .inf true => false
  | .fin na ma ea _, .fin nb mb eb _ => decide ((finAdd na ma ea (!nb) mb eb).1 ≤ 0)

/-- The pattern as `ftz` reads it. -/
def Fmt.flush (f : Fmt) (ftz : Bool) (b : Nat) : Nat :=
  if ftz && b / 2 ^ f.mbits % 2 ^ f.ebits == 0 then f.sign (Nat.testBit b (f.bits - 1)) else b

/-- FMIN and FMAX on patterns (08 R160): −0 is below +0, a NaN gives way to a number. -/
def Fmt.minMax (f : Fmt) (mx ftz : Bool) (a b : Nat) : Nat :=
  let a := f.flush ftz a
  let b := f.flush ftz b
  match f.widen a, f.widen b with
  | .nan, .nan => f.nan
  | .nan, _ => b
  | _, .nan => a
  | x, y =>
    let le := if x.isZero && y.isZero then x.sgn || !y.sgn else fLe x y
    if le != mx then a else b

/-- FCMP and VCMP conditions 0 to 3 (08 R161). -/
def fCond (c : Cond) (a b : FVal) : Bool :=
  let eq := fLe a b && fLe b a
  match c with
  | .eq => eq
  | .ne => !eq
  | .lt => fLe a b && !fLe b a
  | .le => fLe a b
  | _ => false

/-- The class mask of FCLASS (08 R163). -/
def Fmt.classify (f : Fmt) (b : Nat) : Nat :=
  match f.widen b with
  | .nan => if b == f.nan then 2 ^ 8 else 2 ^ 9
  | .inf s => if s then 1 else 2 ^ 7
  | .fin s m _ _ =>
    let sub := b / 2 ^ f.mbits % 2 ^ f.ebits == 0
    if m == 0 then (if s then 2 ^ 3 else 2 ^ 4)
    else if sub then (if s then 2 ^ 2 else 2 ^ 5)
    else (if s then 2 else 2 ^ 6)

/-- One step of the stochastic generator (04 R74). -/
def seedStep (s : BitVec 32) : BitVec 32 :=
  let s := if s == 0 then 1 else s
  if s.getLsbD 0 then (s >>> 1) ^^^ 0x80200003 else s >>> 1

/-- The draw of a generator state. -/
def seedDraw (s : BitVec 32) : Nat := (s >>> 16).toNat

/-- The generator stepped n times. -/
def seedSteps : Nat → BitVec 32 → BitVec 32
  | 0, s => s
  | n + 1, s => seedSteps n (seedStep s)

/-- Whether a target type takes SR (04 Table 4-5). -/
def srTarget : Ty → Bool
  | .bf16 | .f16 | .e4m3 | .e5m2 => true
  | _ => false

/-- The mode of sr.fpstat (08 Table 8-1). -/
def dynMode (fpstat : Word) : Rm :=
  match Rm.of (fpstat.extractLsb' 16 3) with
  | some .dyn | none => .rne
  | some m => m

/-- The rounding mode in force: DYN reads sr.fpstat, and SR from there gives RNE where it is not accepted (04 R68). -/
def effMode (fpstat : Word) (takesSR : Bool) (rm : Rm) : Rm :=
  match rm with
  | .dyn => (match dynMode fpstat with | .sr => if takesSR then .sr else .rne | m => m)
  | m => m

end Sys2Proof.Machine

namespace Sys2Proof

open Machine

/-- A value of any type of 02 Table 2-7, read from the low bits (08 R156, 04 R61). -/
def Ty.read (t : Ty) (uns ftz : Bool) (b : Nat) : FVal :=
  match t with
  | .i8 | .i16 | .i32 | .i64 =>
    let n := t.bits
    let v := b % 2 ^ n
    intVal (if !uns && 2 ^ (n - 1) ≤ v then (v : Int) - (2 ^ n : Nat) else v)
  | .ts8 => tsWiden (b % 256)
  | _ => t.fmt.widenZ ftz (b % 2 ^ t.bits)

/-- An exact value written in any type (04 R76). -/
def Ty.write (t : Ty) (uns : Bool) (mode : Rm) (sat ftz : Bool) (draw : Nat) (v : FVal) : Nat × Events :=
  match t with
  | .i8 | .i16 | .i32 | .i64 => intRound t.bits (!uns) mode v
  | .ts8 => tsRound mode v
  | _ => t.fmt.round mode sat ftz draw v

end Sys2Proof
end

