-- ==== Sys2Proof/Config.lean ====
section
/-! DEFINITION. Config.lean: what this part fixes (00 R1, 01 Table 1-2), and the values that the spec leaves open. A constant
without a body is a free value: nothing can be proved of what it is (log 4, 10, 11, 12, 13, 16). -/

namespace Sys2Proof.Config

/-- Clusters of a compute die and of the device (01 Table 1-2). -/
def clustersPerDie : Nat := 40
def clusters : Nat := 160
def dies : Nat := 4
/-- Register rows of a pipeline that ordinary teams use (05 R94). -/
def ordinaryRows : Nat := 2240
/-- sr.archid (00 Table 0-3). -/
def archid : Word := 0x0E1A5B0100100000
/-- sr.partid (00 Table 0-4). -/
def partid : Word := 0x0940020000000000

/-- Free values, each drawn at a number that is used once (log 5): a latency in core cycles that no rule gives (log 4). (DESIGN CHOICE, log 4, 5,
43.) -/
opaque latency : Nat → Nat
/-- A choice among answers that the spec permits (log 12). (DESIGN CHOICE, log 5, 12.) -/
opaque choice : Nat → Nat
/-! Hashes that the spec names without giving (DESIGN CHOICE, log 11). -/

/-- The directory slice of a frame (13 R275). (DESIGN CHOICE, log 11.) -/
opaque dirSlice : Nat → Nat
/-- The set of a frame in its directory slice (13 R275). (DESIGN CHOICE, log 11.) -/
opaque dirSet : Nat → Nat
/-- The translation unit of a page (16 R343). (DESIGN CHOICE, log 11.) -/
opaque xlateUnit : Nat → Nat
/-- The link that a route takes for a message (19 R428). (DESIGN CHOICE, log 11.) -/
opaque linkChoice : Nat → Nat
/-- The set of a frame in its L2 slice (13 R269). (DESIGN CHOICE, log 8, 11.) -/
opaque l2Set : Nat → Nat
/-- The set of a frame in an L1 (13 Table 13-1). (DESIGN CHOICE, log 8, 11.) -/
opaque l1Set : Nat → Nat
/-- The home slice of a frame (13 R271). (DESIGN CHOICE, log 11.) -/
opaque homeSlice : Nat → Nat
/-- The L2 slice of a frame (13 R269). (DESIGN CHOICE, log 11.) -/
opaque l2Slice : Nat → Nat
/-- The controller of a die that holds an address, 0 to 15 (log 11). (DESIGN CHOICE, log 11.) -/
opaque controller : Nat → Nat
/-- Whether an L2 set is full as a line is allocated in it (log 8). (DESIGN CHOICE, log 8.) -/
opaque l2Full : Nat → Bool
/-- What the host or a peer has stored meanwhile in its own memory, at a draw and an address; none: nothing (log 14). (DESIGN CHOICE, log 14.) -/
opaque extWrote : Nat → Nat → Option Byte
/-- Whether an AtomicOp at the host completes. (DESIGN CHOICE, log 14.) -/
opaque hostAtomicOk : Nat → Bool
/-- Whether a CAS of the hub finds the value that it read (13 R290). (DESIGN CHOICE, log 14.) -/
opaque hostCasHits : Nat → Bool
/-- HDM decoder base of port A (log 14). (DESIGN CHOICE, log 14.) -/
opaque hdmBase : Nat
/-- The line that a full set of the L1 or of the L2 gives up, as an index into the candidates (log 8). (DESIGN CHOICE, log 8.) -/
opaque victim : Nat → Nat
/-- Bytes of a stage that RECLASS leaves undefined (log 13). (DESIGN CHOICE, log 13.) -/
opaque staleByte : Nat → Byte
/-- A doubleword of an operand-log entry in a save area, which holds implementation state (18 R461). (DEDUCED, log 25.) -/
opaque logWord : Nat → Word
/-- The rollback value that is fused (20 R440). (DESIGN CHOICE, log 10.) -/
opaque fusedRollback : Nat
/-- Whether a firmware image, or a tested slice, passes (20 R439, R440). (DESIGN CHOICE, log 10.) -/
opaque firmwareOk : Nat → Bool
/-- The version of a firmware image (20 R440). (DESIGN CHOICE, log 10.) -/
opaque firmwareVersion : Nat → Nat
/-- Bytes of a certificate, a signature or a digest (20 R442, R443). (DESIGN CHOICE, log 10.) -/
opaque signatureByte : Nat → Byte
/-- Ls as bring-up leaves it (15 R318). (DESIGN CHOICE, log 10.) -/
opaque bringUpLs : Nat
/-- The device number that bring-up leaves (00 R8). (DESIGN CHOICE, log 10.) -/
opaque bringUpDevnum : Nat

end Sys2Proof.Config
end

