-- ==== Sys2Proof/Decode.lean ====
section
/-! DEFINITION. Decode.lean: the instruction words of 02 (formats of Table 2-6, opcode map of Table 2-10), the decoder
with the causes of Table 2-11, the encoder, and the clause checks of R17, R22 and R23. -/

namespace Sys2Proof

/-- Why a word is refused (02 Table 2-11); the lowest code is reported (R39). -/
inductive EncFault where
  | unassigned | mode | privilege | reserved | mustBeZero | range | scoreboard | pairing
deriving DecidableEq, Repr

/-- Codes of 02 Table 2-11. (DEDUCED, log 15.) -/
def EncFault.code : EncFault → Nat
  | .unassigned => 1 | .mode => 2 | .privilege => 3 | .reserved => 4 | .mustBeZero => 5 | .range => 6
  | .scoreboard => 7 | .pairing => 8

/-- Common fields (02 Table 2-5); `lo` is bits [29:0]. -/
structure Raw where
  op : BitVec 8
  g  : BitVec 4
  gn : Bool
  sb : BitVec 3
  d  : BitVec 6
  a  : BitVec 6
  b  : BitVec 6
  lo : BitVec 30
deriving DecidableEq, Repr

def Raw.pack (r : Raw) : Word :=
  r.op ++ (r.g ++ (BitVec.ofBool r.gn ++ (r.sb ++ (r.d ++ (r.a ++ (r.b ++ r.lo))))))
def Raw.unpack (w : Word) : Raw where
  op := w.extractLsb' 56 8
  g  := w.extractLsb' 52 4
  gn := w.getLsbD 51
  sb := w.extractLsb' 48 3
  d  := w.extractLsb' 42 6
  a  := w.extractLsb' 36 6
  b  := w.extractLsb' 30 6
  lo := w.extractLsb' 0 30

/-- Format A, bits [29:0] (02 Table 2-6). -/
structure FmtA where
  c : BitVec 6
  t1 : BitVec 4
  t2 : BitVec 4
  rm : BitVec 3
  sat : Bool
  ftz : Bool
  sub : BitVec 5
  imm : BitVec 6
deriving DecidableEq, Repr

def FmtA.pack (f : FmtA) : BitVec 30 :=
  f.c ++ (f.t1 ++ (f.t2 ++ (f.rm ++ (BitVec.ofBool f.sat ++ (BitVec.ofBool f.ftz ++ (f.sub ++ f.imm))))))
def FmtA.unpack (v : BitVec 30) : FmtA where
  c := v.extractLsb' 24 6
  t1 := v.extractLsb' 20 4
  t2 := v.extractLsb' 16 4
  rm := v.extractLsb' 13 3
  sat := v.getLsbD 12
  ftz := v.getLsbD 11
  sub := v.extractLsb' 6 5
  imm := v.extractLsb' 0 6

/-- Format I. -/
structure FmtI where
  w : BitVec 2
  sub : BitVec 3
  f : Bool
  imm : BitVec 24
deriving DecidableEq, Repr

def FmtI.pack (f : FmtI) : BitVec 30 := f.w ++ (f.sub ++ (BitVec.ofBool f.f ++ f.imm))
def FmtI.unpack (v : BitVec 30) : FmtI where
  w := v.extractLsb' 28 2
  sub := v.extractLsb' 25 3
  f := v.getLsbD 24
  imm := v.extractLsb' 0 24

/-- Format M. -/
structure FmtM where
  rt : BitVec 2
  sc : BitVec 3
  span : BitVec 5
  w : BitVec 2
  off : BitVec 18
deriving DecidableEq, Repr

def FmtM.pack (f : FmtM) : BitVec 30 := f.rt ++ (f.sc ++ (f.span ++ (f.w ++ f.off)))
def FmtM.unpack (v : BitVec 30) : FmtM where
  rt := v.extractLsb' 28 2
  sc := v.extractLsb' 25 3
  span := v.extractLsb' 20 5
  w := v.extractLsb' 18 2
  off := v.extractLsb' 0 18

/-- Format V. -/
structure FmtV where
  c : BitVec 6
  t : BitVec 4
  pg : BitVec 5
  gv : Bool
  z : Bool
  rm : BitVec 3
  sat : Bool
  sub : BitVec 5
  mz : BitVec 4
deriving DecidableEq, Repr

def FmtV.pack (f : FmtV) : BitVec 30 :=
  f.c ++ (f.t ++ (f.pg ++ (BitVec.ofBool f.gv ++ (BitVec.ofBool f.z ++ (f.rm ++ (BitVec.ofBool f.sat ++ (f.sub ++ f.mz)))))))
def FmtV.unpack (v : BitVec 30) : FmtV where
  c := v.extractLsb' 24 6
  t := v.extractLsb' 20 4
  pg := v.extractLsb' 15 5
  gv := v.getLsbD 14
  z := v.getLsbD 13
  rm := v.extractLsb' 10 3
  sat := v.getLsbD 9
  sub := v.extractLsb' 4 5
  mz := v.extractLsb' 0 4

/-- Format X. -/
structure FmtX where
  fa : BitVec 4
  fb : BitVec 4
  ha : Bool
  sa : Bool
  hb : Bool
  sbh : Bool
  c : BitVec 6
  sub : BitVec 3
  sat : Bool
  mz : BitVec 8
deriving DecidableEq, Repr

def FmtX.pack (f : FmtX) : BitVec 30 :=
  f.fa ++ (f.fb ++ (BitVec.ofBool f.ha ++ (BitVec.ofBool f.sa ++ (BitVec.ofBool f.hb ++ (BitVec.ofBool f.sbh ++
  (f.c ++ (f.sub ++ (BitVec.ofBool f.sat ++ f.mz))))))))
def FmtX.unpack (v : BitVec 30) : FmtX where
  fa := v.extractLsb' 26 4
  fb := v.extractLsb' 22 4
  ha := v.getLsbD 21
  sa := v.getLsbD 20
  hb := v.getLsbD 19
  sbh := v.getLsbD 18
  c := v.extractLsb' 12 6
  sub := v.extractLsb' 9 3
  sat := v.getLsbD 8
  mz := v.extractLsb' 0 8

/-- Format Q. -/
structure FmtQ where
  q : BitVec 4
  nb : Bool
  pd : BitVec 4
  sub : BitVec 5
  imm : BitVec 16
deriving DecidableEq, Repr

def FmtQ.pack (f : FmtQ) : BitVec 30 := f.q ++ (BitVec.ofBool f.nb ++ (f.pd ++ (f.sub ++ f.imm)))
def FmtQ.unpack (v : BitVec 30) : FmtQ where
  q := v.extractLsb' 26 4
  nb := v.getLsbD 25
  pd := v.extractLsb' 21 4
  sub := v.extractLsb' 16 5
  imm := v.extractLsb' 0 16

/-- Format S. -/
structure FmtS where
  sri : BitVec 12
  sub : BitVec 4
  imm : BitVec 14
deriving DecidableEq, Repr

def FmtS.pack (f : FmtS) : BitVec 30 := f.sri ++ (f.sub ++ f.imm)
def FmtS.unpack (v : BitVec 30) : FmtS where
  sri := v.extractLsb' 18 12
  sub := v.extractLsb' 14 4
  imm := v.extractLsb' 0 14

/-- A VP half (02 Table 2-8). -/
def VHalf.pack (x : VHalf) : BitVec 28 :=
  x.cop ++ (x.vd ++ (x.va ++ (x.vb ++ (x.ty ++ (x.pg ++ BitVec.ofBool x.gv)))))
def VHalf.unpack (v : BitVec 28) : VHalf where
  cop := v.extractLsb' 23 5
  vd := v.extractLsb' 19 4
  va := v.extractLsb' 14 5
  vb := v.extractLsb' 9 5
  ty := v.extractLsb' 6 3
  pg := v.extractLsb' 1 5
  gv := v.getLsbD 0

/-- A predicate field (02 R29): bits [3:0]. -/
def asP (f : BitVec 6) : Pr := f.setWidth 4
def badP (f : BitVec 6) : Bool := 16 ≤ f.toNat
def ofP (p : Pr) : BitVec 6 := p.setWidth 6
/-- A vector register field (02 R29): bits [4:0]. -/
def asV (f : BitVec 6) : Vr := f.setWidth 5
def badV (f : BitVec 6) : Bool := 32 ≤ f.toNat
def ofV (v : Vr) : BitVec 6 := v.setWidth 6
/-- An x register out of range in a team (02 R29). -/
def badX (e : Env) (f : Xr) : Bool := e.team && decide (e.k ≤ f.toNat)
/-- A set half with its select bit (12 R250). -/
def Half.of (h s : Bool) : Half := if h then (if s then .hi else .lo) else .whole
def Half.bit : Half → Bool
  | .whole => false
  | _ => true
def Half.sel : Half → Bool
  | .hi => true
  | _ => false
/-- The second source of an element word (09 R170). -/
def VSrc.code : VSrc → BitVec 2
  | .reg _ => 0 | .scalar _ => 1 | .imm _ => 2
def VSrc.b : VSrc → BitVec 6
  | .reg v => ofV v
  | .scalar x => x
  | .imm _ => 0
def VSrc.c : VSrc → BitVec 6
  | .imm c => c
  | _ => 0
def VSrc.of (s : BitVec 2) (b c : BitVec 6) : VSrc :=
  match s.toNat with | 0 => .reg (asV b) | 1 => .scalar b | _ => .imm c

/-- A decoded word with the checks that failed (02 R37): mode required (true: a team), privilege required, and one
flag for each cause 0x04 to 0x08. -/
structure Dec where
  i : Instr
  mode : Option Bool := none
  super : Bool := false
  res : Bool := false
  mbz : Bool := false
  rng : Bool := false
  slot : Bool := false
  pair : Bool := false

/-- The lowest cause, or the instruction (02 R39). -/
def Dec.result (e : Env) (d : Dec) : Except EncFault Instr :=
  if d.mode == some (!e.team) then .error .mode
  else if d.super && !e.super then .error .privilege
  else if d.res then .error .reserved
  else if d.mbz then .error .mustBeZero
  else if d.rng then .error .range
  else if d.slot then .error .scoreboard
  else if d.pair then .error .pairing
  else .ok d.i

def Raw.hdr (r : Raw) : Hdr := ⟨r.g, r.gn, r.sb⟩
/-- The scoreboard field of a word that may use slot 0 (02 R25). -/
def Raw.sbAny (r : Raw) : Bool := r.sb == 7
/-- The scoreboard field of a word that must name a slot (02 R25). -/
def Raw.sbReq (r : Raw) : Bool := r.sb == 7 || r.sb == 0
def Raw.guarded (r : Raw) : Bool := r.g != 0 || r.gn
def badX2 (e : Env) (a b : Xr) : Bool := badX e a || badX e b
def badX3 (e : Env) (a b c : Xr) : Bool := badX e a || badX e b || badX e c

/-- Opcodes 0x00 to 0x0F (05, 06). -/
def decRow0 (e : Env) (r : Raw) : Option Dec :=
  let h := r.hdr
  let s := FmtS.unpack r.lo
  let i := FmtI.unpack r.lo
  match r.op.toNat with
  | 0x01 => some { i := if r.b.getLsbD 5 then .brDiv h r.lo else .br h r.lo,
                   mbz := r.d != 0 || r.a != 0 || r.b.setWidth 5 != 0#5, slot := r.sbAny }
  | 0x02 => some { i := .join h, mbz := r.guarded || r.d != 0 || r.a != 0 || r.b != 0 || r.lo != 0, slot := r.sbAny }
  | 0x03 => some { i := .jmp h r.lo, mbz := r.guarded || r.d != 0 || r.a != 0 || r.b != 0, slot := r.sbAny }
  | 0x04 => some { i := .jmpx h r.a, mbz := r.d != 0 || r.b != 0 || r.lo != 0, rng := badX e r.a, slot := r.sbAny }
  | 0x05 => some { i := .call h r.d r.lo, mbz := r.a != 0 || r.b != 0, rng := badX e r.d, slot := r.sbAny }
  | 0x06 => some { i := .callx h r.d r.a, mbz := r.b != 0 || r.lo != 0, rng := badX2 e r.d r.a, slot := r.sbAny }
  | 0x07 => some { i := .ret h r.a, mbz := r.d != 0 || r.b != 0 || r.lo != 0, rng := badX e r.a, slot := r.sbAny }
  | 0x08 => some { i := .loop h r.a r.lo, mbz := r.d != 0 || r.b != 0, rng := badX e r.a || r.a == 0, slot := r.sbAny }
  | 0x09 => some { i := .halt h, mbz := r.d != 0 || r.a != 0 || r.b != 0 || r.lo != 0, slot := r.sbAny }
  | 0x0A => some { i := .yield h, mbz := r.d != 0 || r.a != 0 || r.b != 0 || r.lo != 0, slot := r.sbAny }
  | 0x0B => some { i := .cinch h r.a r.b i.w (i.sub.setWidth 2) i.imm, mode := some false, res := i.sub.getLsbD 2,
                   mbz := r.sb != 0 || r.d != 0 || i.f }
  | 0x0C => some { i := .split h, mbz := r.guarded || r.sb != 0 || r.d != 0 || r.a != 0 || r.b != 0 || r.lo != 0 }
  | 0x0D => some { i := .movsr h r.d s.sri, super := ((srPriv s.sri).map (·.1)).getD false,
                   res := (srPriv s.sri).isNone || s.sub != 0, mbz := r.a != 0 || r.b != 0 || s.imm != 0,
                   rng := badX e r.d, slot := r.sbAny }
  | 0x0E => some { i := match s.sub.toNat with
                        | 0 => .movrs h s.sri r.a
                        | 1 => .movrsSet h s.sri r.a
                        | _ => .movrsClr h s.sri r.a,
                   super := ((srPriv s.sri).map (·.2)).getD false,
                   res := (srPriv s.sri).isNone || 2 < s.sub.toNat, mbz := r.d != 0 || r.b != 0 || s.imm != 0,
                   rng := badX e r.a, slot := r.sbAny }
  | 0x0F => some { i := .nop h, mbz := r.d != 0 || r.a != 0 || r.b != 0 || r.lo != 0, slot := r.sbAny }
  | _ => none

/-- Two-operand words of 07 Table 7-7 by opcode and sub. -/
def intMk (op : Nat) (sub : BitVec 5) : Option (Hdr → Wd → Xr → Xr → Xr → Instr) :=
  match op, sub.toNat with
  | 0x10, 0 => some .add | 0x11, 0 => some .sub | 0x12, 0 => some .adds | 0x12, 1 => some .addsu
  | 0x13, 0 => some .subs | 0x13, 1 => some .subsu | 0x14, 0 => some .mul | 0x15, 0 => some .mulh
  | 0x16, 0 => some .mulhu | 0x17, 0 => some .div | 0x18, 0 => some .divu | 0x19, 0 => some .rem
  | 0x1A, 0 => some .remu | 0x1B, 0 => some .and | 0x1C, 0 => some .or | 0x1D, 0 => some .xor
  | 0x1E, 0 => some .andn | 0x1F, 0 => some .orn | 0x20, 0 => some .shl | 0x21, 0 => some .shr
  | 0x22, 0 => some .sra | 0x23, 0 => some .rol | 0x27, 0 => some .min | 0x28, 0 => some .max
  | 0x29, 0 => some .minu | 0x2A, 0 => some .maxu
  | _, _ => none

/-- Opcodes 0x10 to 0x2A but for the unary words: 07 R141. -/
def decInt (e : Env) (r : Raw) : Dec :=
  let f := FmtA.unpack r.lo
  { i := ((intMk r.op.toNat f.sub).getD .add) r.hdr ((Wd.of4 f.t1).getD .w8) r.d r.a r.b,
    res := (intMk r.op.toNat f.sub).isNone || (Wd.of4 f.t1).isNone,
    mbz := f.c != 0 || f.t2 != 0 || f.rm != 0 || f.sat || f.ftz || f.imm != 0,
    rng := badX3 e r.d r.a r.b, slot := r.sbAny }

/-- CLZ, CTZ, POPC and ABS (07 R141), EXT and EXTU (R146). -/
def decUnary (e : Env) (r : Raw) (mk : Hdr → Wd → Xr → Xr → Instr) (sat : Bool) (subs : Nat) : Dec :=
  let f := FmtA.unpack r.lo
  { i := mk r.hdr ((Wd.of4 f.t1).getD .w8) r.d r.a,
    res := subs < f.sub.toNat || (Wd.of4 f.t1).isNone,
    mbz := r.b != 0 || f.c != 0 || f.t2 != 0 || f.rm != 0 || (f.sat && !sat) || f.ftz || f.imm != 0,
    rng := badX2 e r.d r.a, slot := r.sbAny }

/-- BFX, BFXU, BFI (07 R147). -/
def decField (e : Env) (r : Raw) (mk : Hdr → Xr → Xr → BitVec 6 → BitVec 6 → Instr) (subs : Nat) : Dec :=
  let f := FmtA.unpack r.lo
  { i := mk r.hdr r.d r.a f.imm f.c,
    res := f.t1 != 3 || subs < f.sub.toNat || 64 < f.imm.toNat + f.c.toNat + 1,
    mbz := r.b != 0 || f.t2 != 0 || f.rm != 0 || f.sat || f.ftz, rng := badX2 e r.d r.a, slot := r.sbAny }

/-- Predicate logic (07 R149). -/
def decPred (r : Raw) (i : Instr) (unary : Bool) : Dec :=
  { i := i, mbz := r.lo != 0 || (unary && r.b != 0), rng := badP r.d || badP r.a || badP r.b, slot := r.sbAny }

/-- Immediate words (07 R142); shift forms bound the immediate by the width. -/
def decImm (e : Env) (r : Raw) (mk : Hdr → Wd → Xr → Xr → BitVec 24 → Instr) (shift : Bool) : Dec :=
  let f := FmtI.unpack r.lo
  { i := mk r.hdr (Wd.of f.w) r.d r.a f.imm, res := shift && decide ((Wd.of f.w).bits ≤ f.imm.toNat),
    mbz := r.b != 0 || f.sub != 0 || f.f, rng := badX2 e r.d r.a, slot := r.sbAny }

/-- Opcodes 0x20 to 0x3F (07). -/
def decRow23 (e : Env) (r : Raw) : Option Dec :=
  let h := r.hdr
  let f := FmtA.unpack r.lo
  let n := FmtI.unpack r.lo
  match r.op.toNat with
  | 0x24 => some (decUnary e r .clz false 0)
  | 0x25 => some (decUnary e r .ctz false 0)
  | 0x26 => some (decUnary e r .popc false 0)
  | 0x2B => some (decUnary e r (fun h t d a => .abs h t f.sat d a) true 0)
  | 0x2C => some { i := .sel h r.d (asP f.c) r.a r.b, res := f.t1 != 3,
                   mbz := f.sub != 0 || f.t2 != 0 || f.rm != 0 || f.sat || f.ftz || f.imm != 0,
                   rng := badX3 e r.d r.a r.b || badP f.c, slot := r.sbAny }
  | 0x2D => some { i := .lea h r.d r.a r.b (f.imm.setWidth 3), res := f.t1 != 3 || 8 ≤ f.imm.toNat,
                   mbz := f.sub != 0 || f.c != 0 || f.t2 != 0 || f.rm != 0 || f.sat || f.ftz,
                   rng := badX3 e r.d r.a r.b, slot := r.sbAny }
  | 0x2E => some (decUnary e r (if f.sub == 0 then .ext else .extu) false 1)
  | 0x2F => some (decField e r (if f.sub == 0 then .bfx else .bfxu) 1)
  | 0x30 => some (decField e r .bfi 0)
  | 0x31 => some { i := .cmp h ((Cond.of (f.sub.setWidth 3)).getD .eq) ((Wd.of4 f.t1).getD .w8) (asP r.d) r.a r.b (asP f.c),
                   res := (Wd.of4 f.t1).isNone || 5 < f.sub.toNat,
                   mbz := f.t2 != 0 || f.rm != 0 || f.sat || f.ftz || f.imm != 0,
                   rng := badX2 e r.a r.b || badP r.d || badP f.c, slot := r.sbAny }
  | 0x32 => some (decPred r (.pand h (asP r.d) (asP r.a) (asP r.b)) false)
  | 0x33 => some (decPred r (.por h (asP r.d) (asP r.a) (asP r.b)) false)
  | 0x34 => some (decPred r (.pxor h (asP r.d) (asP r.a) (asP r.b)) false)
  | 0x35 => some (decPred r (.pnot h (asP r.d) (asP r.a)) true)
  | 0x36 => some (decImm e r .addi false)
  | 0x37 => some (decImm e r .muli false)
  | 0x38 => some (decImm e r .andi false)
  | 0x39 => some (decImm e r .ori false)
  | 0x3A => some (decImm e r .xori false)
  | 0x3B => some (decImm e r .shli true)
  | 0x3C => some (decImm e r .shri true)
  | 0x3D => some (decImm e r .srai true)
  | 0x3E => some (decImm e r .roli true)
  | 0x3F => some { i := .cmpi h ((Cond.of n.sub).getD .eq) (Wd.of n.w) (asP r.d) r.a n.imm, res := 5 < n.sub.toNat,
                   mbz := r.b != 0 || n.f, rng := badX e r.a || badP r.d, slot := r.sbAny }
  | _ => some (decInt e r)

/-- One scalar floating-point row of 08 Table 8-2: accepted types, whether rm, sat and sub are listed, whether b is a
register, and whether a slot is required. -/
def decFp (e : Env) (r : Raw) (i : Ty → Rm → Instr) (wide hasRm hasSat hasB slot : Bool) : Dec :=
  let f := FmtA.unpack r.lo
  let t := (Ty.of f.t1).getD .f32
  let m := (Rm.of f.rm).getD .dyn
  { i := i t m,
    res := (Ty.of f.t1).isNone || !(if wide then t.isWide else t.isFloat) || (hasRm && 4 < f.rm.toNat) ||
           (hasSat && f.sat && !t.isFp8),
    mbz := (!hasB && r.b != 0) || f.c != 0 || f.t2 != 0 || (!hasRm && f.rm != 0) || (!hasSat && f.sat) || f.sub != 0 ||
           f.imm != 0,
    rng := badX2 e r.d r.a || (hasB && badX e r.b), slot := if slot then r.sbReq else r.sbAny }

/-- Opcodes 0x40 to 0x52 (08; LI and LIH 07 R148). -/
def decRow45 (e : Env) (r : Raw) : Option Dec :=
  let h := r.hdr
  let f := FmtA.unpack r.lo
  let n := FmtI.unpack r.lo
  match r.op.toNat with
  | 0x40 => some (decFp e r (fun t m => .fadd h t m f.sat f.ftz r.d r.a r.b) false true true true false)
  | 0x41 => some (decFp e r (fun t m => .fsub h t m f.sat f.ftz r.d r.a r.b) false true true true false)
  | 0x42 => some (decFp e r (fun t m => .fmul h t m f.sat f.ftz r.d r.a r.b) false true true true false)
  | 0x43 => some { i := .fma h ((Ty.of f.t1).getD .f32) ((Rm.of f.rm).getD .dyn) f.sat f.ftz r.d r.a r.b f.c,
                   res := (Ty.of f.t1).isNone || !((Ty.of f.t1).getD .f32).isFloat || 4 < f.rm.toNat ||
                          (f.sat && !((Ty.of f.t1).getD .f32).isFp8),
                   mbz := f.t2 != 0 || f.sub != 0 || f.imm != 0,
                   rng := badX3 e r.d r.a r.b || badX e f.c, slot := r.sbAny }
  | 0x44 => some (decFp e r (fun t m => .fdiv h t m f.ftz r.d r.a r.b) true true false true true)
  | 0x45 => some (decFp e r (fun t m => .fsqrt h t m f.ftz r.d r.a) true true false false true)
  | 0x46 => some (decFp e r (fun t _ => .fmin h t f.ftz r.d r.a r.b) false false false true false)
  | 0x47 => some (decFp e r (fun t _ => .fmax h t f.ftz r.d r.a r.b) false false false true false)
  | 0x48 => some { i := .fcmp h ((Cond.of (f.sub.setWidth 3)).getD .eq) ((Ty.of f.t1).getD .f32) f.ftz (asP r.d) r.a r.b (asP f.c),
                   res := (Ty.of f.t1).isNone || !((Ty.of f.t1).getD .f32).isFloat || 3 < f.sub.toNat,
                   mbz := f.t2 != 0 || f.rm != 0 || f.sat || f.imm != 0,
                   rng := badX2 e r.a r.b || badP r.d || badP f.c, slot := r.sbAny }
  | 0x49 =>
    let t := (Ty.of f.t1).getD .f32
    let s := (Ty.of f.t2).getD .f32
    let m := (Rm.of f.rm).getD .dyn
    some { i := if f.sub == 0 then .fcvt h t s m f.sat f.ftz r.d r.a else .fcvtu h t s m f.ftz r.d r.a,
           res := (Ty.of f.t1).isNone || (Ty.of f.t2).isNone || (Rm.of f.rm).isNone || 1 < f.sub.toNat ||
                  cvtReserved (f.sub != 0) t s m f.sat f.ftz,
           mbz := r.b != 0 || f.c != 0 || (f.sub != 0 && f.sat) || f.imm != 0,
           rng := badX2 e r.d r.a, slot := r.sbAny }
  | 0x4A => some { decFp e r (fun t _ => .fclass h t r.d r.a) false false false false false with
                   mbz := r.b != 0 || f.c != 0 || f.t2 != 0 || f.rm != 0 || f.sat || f.ftz || f.sub != 0 || f.imm != 0 }
  | 0x4B => some (decFp e r (fun t m => .frcp h t m f.ftz r.d r.a) true true false false true)
  | 0x4C => some (decFp e r (fun t m => .frsq h t m f.ftz r.d r.a) true true false false true)
  | 0x4D => some (decFp e r (fun t m => .fexp2 h t m f.ftz r.d r.a) true true false false true)
  | 0x4E => some (decFp e r (fun t m => .flog2 h t m f.ftz r.d r.a) true true false false true)
  | 0x4F => some (decFp e r (fun t m => .fsinp h t m f.ftz r.d r.a) true true false false true)
  | 0x50 => some (decFp e r (fun t m => .fscale h t m f.ftz r.d r.a r.b) true true false true false)
  | 0x51 => some { i := .li h r.d n.imm, res := n.w != 3, mbz := r.a != 0 || r.b != 0 || n.f || n.sub != 0,
                   rng := badX e r.d, slot := r.sbAny }
  | 0x52 => some { i := if n.sub == 1 then .lihMid h r.d n.imm else .lihHigh h r.d (n.imm.setWidth 16),
                   res := n.w != 3 || (n.sub != 1 && n.sub != 2),
                   mbz := r.a != 0 || r.b != 0 || n.f || (n.sub == 2 && 65536 ≤ n.imm.toNat),
                   rng := badX e r.d, slot := r.sbAny }
  | _ => none

/-- An integer element word of 09 Table 9-2. -/
def decVInt (r : Raw) (mk : Hdr → Wd → Gov → Vr → Vr → VSrc → Instr) (shift hasSat hasVar : Bool) : Dec :=
  let f := FmtV.unpack r.lo
  let t := (Wd.of4 f.t).getD .w8
  let s : BitVec 2 := f.sub.setWidth 2
  { i := mk r.hdr t ⟨f.gv, f.pg, f.z⟩ (asV r.d) (asV r.a) (VSrc.of s r.b f.c), mode := some false,
    res := (Wd.of4 f.t).isNone || s == 3 || (s == 2 && shift && decide (t.bits ≤ f.c.toNat)) ||
           (f.sub.getLsbD 2 && (!hasVar || (hasSat && !f.sat))) || (f.sat && !hasSat),
    mbz := (s != 2 && f.c != 0) || (s == 2 && r.b != 0) || (!f.gv && f.pg != 0) || f.rm != 0 || 8 ≤ f.sub.toNat || f.mz != 0,
    rng := badV r.d || badV r.a || (s == 0 && badV r.b), slot := r.sbAny }

/-- A floating-point element word of 09 Table 9-3. -/
def decVFp (r : Raw) (mk : Hdr → Ty → Gov → Rm → Vr → Vr → VSrc → Instr) (hasRm : Bool) : Dec :=
  let f := FmtV.unpack r.lo
  let t := (Ty.of f.t).getD .f32
  let s : BitVec 2 := f.sub.setWidth 2
  { i := mk r.hdr t ⟨f.gv, f.pg, f.z⟩ ((Rm.of f.rm).getD .dyn) (asV r.d) (asV r.a) (VSrc.of s r.b f.c), mode := some false,
    res := (Ty.of f.t).isNone || !t.isWide || 2 ≤ s.toNat || (hasRm && 4 < f.rm.toNat),
    mbz := (s != 2 && f.c != 0) || (s == 2 && r.b != 0) || (!f.gv && f.pg != 0) || (!hasRm && f.rm != 0) || f.sat ||
           4 ≤ f.sub.toNat || f.mz != 0,
    rng := badV r.d || badV r.a || (s == 0 && badV r.b), slot := r.sbAny }

/-- VSEL, VBCAST, VPERM, VCOMPRESS, VWHILE, VLEN and the reductions: the checks their descriptions share. -/
def decVRed (r : Raw) (i : Ty → Instr) (uns hasSat hasZ hasRm : Bool) : Dec :=
  let f := FmtV.unpack r.lo
  let t := (Ty.of f.t).getD .f32
  let fl := !t.isInt
  { i := i t, mode := some false,
    res := (Ty.of f.t).isNone || !(t.isInt || t.isWide) || (f.sat && (!hasSat || fl)) || (hasRm && fl && 4 < f.rm.toNat),
    mbz := f.c != 0 || (!f.gv && f.pg != 0) || (!hasZ && f.z) || (!(hasRm && fl) && f.rm != 0) ||
           (f.sub != 0 && !(uns && !fl && f.sub == 4)) || f.mz != 0,
    rng := badV r.d || badV r.a || badV r.b, slot := r.sbReq }

/-- The merges (09 R183). -/
def decVMerge (r : Raw) (mk mku : Hdr → Wd → Vr → Vr → Vr → Xr → Instr) : Dec :=
  let f := FmtV.unpack r.lo
  let t := (Wd.of4 f.t).getD .w32
  { i := (if f.sub.getLsbD 0 then mku else mk) r.hdr t (asV r.d) (asV r.a) (asV r.b) f.c, mode := some false,
    res := f.t != 2 && f.t != 3,
    mbz := f.gv || f.pg != 0 || f.z || f.rm != 0 || f.sat || 2 ≤ f.sub.toNat || f.mz != 0,
    rng := badV r.d || badV r.a || badV r.b, slot := r.sbReq }

/-- Opcodes 0x60 to 0x84 (09). -/
def decVec (r : Raw) : Option Dec :=
  let h := r.hdr
  let f := FmtV.unpack r.lo
  let m := FmtM.unpack r.lo
  let g : Gov := ⟨f.gv, f.pg, f.z⟩
  let u := f.sub.getLsbD 2
  let ty := (Ty.of f.t).getD .f32
  let sc := (Scope.of m.sc).getD .tm
  let th : Option Bool := some false
  match r.op.toNat with
  | 0x60 => some { i := .vld h (m.span.getLsbD 0) (m.span.getLsbD 1) (ReqType.of m.rt) sc (Wd.of m.w) (asV r.d) r.a (asV r.b) m.off,
                   mode := th, res := (Scope.of m.sc).isNone,
                   mbz := 4 ≤ m.span.toNat || (!m.span.getLsbD 0 && r.b != 0),
                   rng := badV r.d || badV r.b, slot := r.sbReq }
  | 0x61 => some { i := .vst h (m.span.getLsbD 0) (ReqType.of m.rt) sc (Wd.of m.w) (asV r.d) r.a (asV r.b) m.off,
                   mode := th, res := (Scope.of m.sc).isNone,
                   mbz := 2 ≤ m.span.toNat || (!m.span.getLsbD 0 && r.b != 0),
                   rng := badV r.d || badV r.b, slot := r.sbAny }
  | 0x62 => some { i := .vldx h ⟨m.off.getLsbD 17, m.span, m.off.getLsbD 16⟩ (ReqType.of m.rt) sc (Wd.of m.w) (asV r.d) r.a (asV r.b),
                   mode := th, res := (Scope.of m.sc).isNone,
                   mbz := m.off.setWidth 16 != 0#16 || (!m.off.getLsbD 17 && m.span != 0),
                   rng := badV r.d || badV r.b, slot := r.sbReq }
  | 0x63 => some { i := .vstx h (m.off.getLsbD 17) m.span (ReqType.of m.rt) sc (Wd.of m.w) (asV r.d) r.a (asV r.b),
                   mode := th, res := (Scope.of m.sc).isNone,
                   mbz := m.off.setWidth 17 != 0#17 || (!m.off.getLsbD 17 && m.span != 0),
                   rng := badV r.d || badV r.b, slot := r.sbAny }
  | 0x64 => some (decVInt r (fun h t g d a b => if u then .vaddu h t g d a b else .vadd h t g f.sat d a b) false true true)
  | 0x65 => some (decVInt r (fun h t g d a b => if u then .vsubu h t g d a b else .vsub h t g f.sat d a b) false true true)
  | 0x66 => some (decVInt r .vmul false false false)
  | 0x67 => some (decVInt r (if u then .vmulhu else .vmulh) false false true)
  | 0x68 => some (decVInt r .vmin false false false)
  | 0x69 => some (decVInt r .vmax false false false)
  | 0x6A => some (decVInt r .vminu false false false)
  | 0x6B => some (decVInt r .vmaxu false false false)
  | 0x6C => some (decVInt r .vand false false false)
  | 0x6D => some (decVInt r .vor false false false)
  | 0x6E => some (decVInt r .vxor false false false)
  | 0x6F => some (decVInt r .vshl true false false)
  | 0x70 => some (decVInt r .vshr true false false)
  | 0x71 => some (decVInt r .vsra true false false)
  | 0x72 => some (decVFp r .vfadd true)
  | 0x73 => some (decVFp r .vfmul true)
  | 0x74 => some (decVFp r .vfma true)
  | 0x75 => some (decVFp r (fun h t g _ d a b => .vfmin h t g d a b) false)
  | 0x76 => some (decVFp r (fun h t g _ d a b => .vfmax h t g d a b) false)
  | 0x77 =>
    let s := (Ty.of (f.c.setWidth 4)).getD .f32
    let rm := (Rm.of f.rm).getD .dyn
    let p : BitVec 3 := f.sub.setWidth 3
    some { i := if f.sub.getLsbD 3 then .vfcvtu h ty s g rm f.sat p (asV r.d) (asV r.a)
                else .vfcvt h ty s g rm f.sat p (asV r.d) (asV r.a),
           mode := th,
           res := (Ty.of f.t).isNone || (Ty.of (f.c.setWidth 4)).isNone || (Rm.of f.rm).isNone ||
                  cvtReserved (f.sub.getLsbD 3) ty s rm f.sat false || decide (cvtParts ty s ≤ p.toNat),
           mbz := 16 ≤ f.c.toNat || f.sub.getLsbD 4 || r.b != 0 || (!f.gv && f.pg != 0) || f.mz != 0,
           rng := badV r.d || badV r.a, slot := r.sbAny }
  | 0x78 =>
    let s : BitVec 2 := f.sub.setWidth 2
    let c := (Cond.of (f.sub.extractLsb' 2 3)).getD .eq
    some { i := .vcmp h c ty g (asV r.d) (asV r.a) (VSrc.of s r.b f.c), mode := th,
           res := (Ty.of f.t).isNone || !(ty.isInt || ty.isWide) || s == 3 || (s == 2 && !ty.isInt) ||
                  (Cond.of (f.sub.extractLsb' 2 3)).isNone || (!ty.isInt && (c == .ltu || c == .leu)),
           mbz := (s != 2 && f.c != 0) || (s == 2 && r.b != 0) || (!f.gv && f.pg != 0) || f.rm != 0 || f.sat || f.mz != 0,
           rng := badV r.d || badV r.a || (s == 0 && badV r.b), slot := r.sbAny }
  | 0x79 => some { i := .vwhile h ty (asV r.d) r.a r.b, mode := th, res := (Ty.of f.t).isNone,
                   mbz := f.gv || f.pg != 0 || f.z || f.c != 0 || f.rm != 0 || f.sat || f.sub != 0 || f.mz != 0,
                   rng := badV r.d, slot := r.sbAny }
  | 0x7A => some { i := .vlen h r.d, mode := th, mbz := r.a != 0 || r.b != 0 || r.lo != 0, slot := r.sbAny }
  | 0x7B => some { i := .vsel h ty f.pg (asV r.d) (asV r.a) (asV r.b), mode := th,
                   res := (Ty.of f.t).isNone || !f.gv || f.sub != 0, mbz := f.z || f.c != 0 || f.rm != 0 || f.sat || f.mz != 0,
                   rng := badV r.d || badV r.a || badV r.b, slot := r.sbAny }
  | 0x7C => some { i := if f.sub == 0 then .vbcast h ty g (asV r.d) r.a else .vbcastElement h ty g (asV r.d) (asV r.a) f.c,
                   mode := th, res := (Ty.of f.t).isNone || 1 < f.sub.toNat,
                   mbz := r.b != 0 || (f.sub == 0 && f.c != 0) || (!f.gv && f.pg != 0) || f.rm != 0 || f.sat || f.mz != 0,
                   rng := badV r.d || (f.sub != 0 && badV r.a), slot := r.sbAny }
  | 0x7D => some { i := .vperm h ty g (asV r.d) (asV r.a) (asV r.b), mode := th, res := (Ty.of f.t).isNone || f.sub != 0,
                   mbz := f.c != 0 || (!f.gv && f.pg != 0) || f.rm != 0 || f.sat || f.mz != 0,
                   rng := badV r.d || badV r.a || badV r.b, slot := r.sbAny }
  | 0x7E => some { i := .vcompress h ty f.gv f.pg (asV r.d) (asV r.a) f.c, mode := th, res := (Ty.of f.t).isNone,
                   mbz := r.b != 0 || (!f.gv && f.pg != 0) || f.z || f.rm != 0 || f.sat || f.sub != 0 || f.mz != 0,
                   rng := badV r.d || badV r.a, slot := r.sbAny }
  | 0x7F => some (decVRed r (fun t => .vredadd h t f.gv f.pg ((Rm.of f.rm).getD .dyn) f.sat (asV r.d) (asV r.a) (asV r.b))
                   false true false true)
  | 0x80 => some (decVRed r (fun t => if u then .vredminu h t f.gv f.pg (asV r.d) (asV r.a) (asV r.b)
                                      else .vredmin h t f.gv f.pg (asV r.d) (asV r.a) (asV r.b)) true false false false)
  | 0x81 => some (decVRed r (fun t => if u then .vredmaxu h t f.gv f.pg (asV r.d) (asV r.a) (asV r.b)
                                      else .vredmax h t f.gv f.pg (asV r.d) (asV r.a) (asV r.b)) true false false false)
  | 0x82 => some (decVRed r (fun t => .vscan h t g ((Rm.of f.rm).getD .dyn) (asV r.d) (asV r.a) (asV r.b)) false false true true)
  | 0x83 => some (decVMerge r .vmerge .vmergeu)
  | 0x84 => some (decVMerge r .vmergekv .vmergekvu)
  | _ => none

/-- One row of 13 Table 13-10 or 17 Table 17-2: which fields the table marks 0, and which widths it admits. -/
def decMem (e : Env) (r : Raw) (i : Instr) (rt0 sc0 span0 w2 w3 w0 off0 d0 b0 dP : Bool) (rtMax : Nat) (slot : Bool) : Dec :=
  let m := FmtM.unpack r.lo
  { i := i,
    res := (!sc0 && (Scope.of m.sc).isNone) || (!rt0 && decide (rtMax < m.rt.toNat)) || (w2 && m.w != 2 && !w3) ||
           (w3 && !w2 && m.w != 3) || (w2 && w3 && decide (m.w.toNat < 2)),
    mbz := (rt0 && m.rt != 0) || (sc0 && m.sc != 0) || (span0 && m.span != 0) || (w0 && m.w != 0) || (off0 && m.off != 0) ||
           (d0 && r.d != 0) || (b0 && r.b != 0),
    rng := badX e r.a || (!d0 && !dP && badX e r.d) || (!b0 && badX e r.b) || (dP && badP r.d),
    slot := if slot then r.sbReq else r.sbAny }

/-- The atomics of 13 Table 13-10: span [24:21] zero, [20] U. -/
def decAmo (e : Env) (r : Raw) (mk mku : Hdr → ReqType → Scope → Wd → Xr → Xr → Xr → BitVec 18 → Instr) (hasU : Bool) : Dec :=
  let m := FmtM.unpack r.lo
  let u := m.span.getLsbD 0
  let d := decMem e r ((if u then mku else mk) r.hdr (ReqType.of m.rt) ((Scope.of m.sc).getD .tm) (Wd.of m.w) r.d r.a r.b m.off)
    false false false true true false false false false false 3 true
  { d with mbz := 2 ≤ m.span.toNat || (!hasU && u) }

/-- A subscription's format and mode stand in b (13 Table 13-10). -/
def decSub (e : Env) (r : Raw) (i : AssayFmt → Instr) (hasMode : Bool) : Dec :=
  let d := decMem e r (i ((AssayFmt.of (r.b.setWidth 3)).getD .exact)) true true false true false false false false true true 3 true
  { d with res := d.res || (AssayFmt.of (r.b.setWidth 3)).isNone,
           mbz := (FmtM.unpack r.lo).rt != 0 || (FmtM.unpack r.lo).sc != 0 || (if hasMode then 16 ≤ r.b.toNat else 8 ≤ r.b.toNat) }

/-- A scratchpad load or store of 10 Table 10-5. -/
def decSpad (e : Env) (r : Raw) (mk : Hdr → Wd → Xr → Xr → BitVec 24 → Instr) (load wide : Bool) : Dec :=
  let n := FmtI.unpack r.lo
  { i := mk r.hdr (Wd.of n.w) (if load then r.d else r.b) r.a n.imm,
    res := n.f || (wide && decide (n.w.toNat < 2)), mbz := n.sub != 0 || (if load then r.b != 0 else r.d != 0),
    rng := badX2 e (if load then r.d else r.b) r.a, slot := if load then r.sbReq else r.sbAny }

/-- The SAMO forms by sub (10 R210). -/
def samoMk (sub : BitVec 5) : Option (Hdr → Wd → Xr → Xr → Xr → Instr) :=
  match sub.toNat with
  | 0 => some .samoadd | 1 => some .samoand | 2 => some .samoor | 3 => some .samoxor | 4 => some .samomin
  | 5 => some .samomax | 6 => some .samominu | 7 => some .samomaxu | 8 => some .samoswap | _ => none

/-- Opcodes 0x90 to 0xA6 (13). -/
def decRow9 (e : Env) (r : Raw) : Option Dec :=
  let h := r.hdr
  let m := FmtM.unpack r.lo
  let rt := ReqType.of m.rt
  let sc := (Scope.of m.sc).getD .tm
  let w := Wd.of m.w
  match r.op.toNat with
  | 0x90 => some (decMem e r (.ld h rt sc m.span w r.d r.a m.off) false false false false false false false false true false 3 true)
  | 0x91 => some (decMem e r (.st h rt sc m.span w r.b r.a m.off) false false false false false false false true false false 3 false)
  | 0x92 => some (decMem e r (.ldacq h rt sc m.span w r.d r.a m.off) false false false false false false false false true false 3 true)
  | 0x93 => some (decMem e r (.strel h rt sc m.span w r.b r.a m.off) false false false false false false false true false false 3 false)
  | 0x94 => some { decMem e r (.fence h sc) true false true false false true true true true false 3 false with
                   mbz := r.a != 0 || r.d != 0 || r.b != 0 || m.rt != 0 || m.span != 0 || m.w != 0 || m.off != 0, rng := false }
  | 0x95 => some (decAmo e r .amoadd .amoadd false)
  | 0x96 => some (decAmo e r .amoand .amoand false)
  | 0x97 => some (decAmo e r .amoor .amoor false)
  | 0x98 => some (decAmo e r .amoxor .amoxor false)
  | 0x99 => some (decAmo e r .amomin .amominu true)
  | 0x9A => some (decAmo e r .amomax .amomaxu true)
  | 0x9B => some (decAmo e r .amoswap .amoswap false)
  | 0x9C => some (decAmo e r .amocas .amocas false)
  | 0x9D => some (decMem e r (.ldlk h rt sc m.span w r.d r.a m.off) false false false true true false false false true false 3 true)
  | 0x9E => some (decMem e r (.stck h rt sc w (asP r.d) r.b r.a m.off) false false true true true false false false false true 3 true)
  | 0x9F => some (decSub e r (fun f => .subscr h f (r.b.getLsbD 3) m.span (asP r.d) r.a m.off) true)
  | 0xA0 => some (decMem e r (.unsub h m.span r.a m.off) true true false true false false false true true false 3 false)
  | 0xA1 => some (decSub e r (fun f => .upgr h f m.span (asP r.d) r.a m.off) false)
  | 0xA2 => some (decMem e r (.invspan h sc m.span r.a m.off) true false false true false false false true true false 3 false)
  | 0xA3 => some (decMem e r (.wbspan h sc m.span r.a m.off) true false false true false false false true true false 3 false)
  | 0xA4 => some (decMem e r (.pref h rt m.span r.a m.off) false true false true false false false true true false 2 false)
  | 0xA5 => some (decMem e r (.pinw h (asP r.d) r.a r.b m.off) true true true false false true false false false true 3 true)
  | 0xA6 => some (decMem e r (.unpinw h (asP r.d) r.a m.off) true true true false false true false false true true 3 true)
  | _ => none

/-- Opcodes 0xA7 to 0xB1 (10). -/
def decScratch (e : Env) (r : Raw) : Option Dec :=
  let h := r.hdr
  let f := FmtA.unpack r.lo
  let n := FmtI.unpack r.lo
  let low := f.t2 != 0 || f.rm != 0 || f.sat || f.ftz || f.imm != 0
  match r.op.toNat with
  | 0xA7 => some { decSpad e r (if n.f then .ldsu else .lds) true false with res := n.f && n.w == 3 }
  | 0xA8 => some (decSpad e r .sts false false)
  | 0xA9 => some (decSpad e r .ldsf true true)
  | 0xAA => some (decSpad e r .ldse true true)
  | 0xAB => some (decSpad e r .stsf false true)
  | 0xAC => some (decSpad e r .stsx false true)
  | 0xAD => some { i := if f.sub == 0 then .feope h r.a r.b else .feopf h r.a r.b, res := 1 < f.sub.toNat,
                   mbz := r.d != 0 || f.c != 0 || f.t1 != 0 || low, rng := badX2 e r.a r.b, slot := r.sbAny }
  | 0xAE =>
    let t := (Wd.of4 f.t1).getD .w32
    some { i := if f.sub == 9 then .samocas h t r.d r.a r.b f.c else ((samoMk f.sub).getD .samoadd) h t r.d r.a r.b,
           res := (f.t1 != 2 && f.t1 != 3) || 9 < f.sub.toNat, mbz := (f.sub != 9 && f.c != 0) || low,
           rng := badX3 e r.d r.a r.b || (f.sub == 9 && badX e f.c), slot := r.sbReq }
  | 0xAF => some { i := .salloc h r.d (asP f.c) r.a, res := f.sub != 0, mbz := r.b != 0 || f.t1 != 0 || low,
                   rng := badX2 e r.d r.a || badP f.c, slot := r.sbReq }
  | 0xB0 => some { i := .sfree h r.a, res := f.sub != 0, mbz := r.d != 0 || r.b != 0 || f.c != 0 || f.t1 != 0 || low,
                   rng := badX e r.a, slot := r.sbAny }
  | 0xB1 => some { i := if f.sub == 0 then .sfmtWrite h (asP r.d) r.a else .sfmtRead h r.d (asP r.a), res := 1 < f.sub.toNat,
                   mbz := r.b != 0 || f.c != 0 || f.t1 != 0 || low,
                   rng := if f.sub == 0 then badP r.d || badX e r.a else badP r.a || badX e r.d,
                   slot := if f.sub == 0 then r.sbAny else r.sbReq }
  | _ => none

/-- Opcodes 0xB2 to 0xB7 (11 Table 11-2). -/
def decQueue (e : Env) (r : Raw) : Option Dec :=
  let h := r.hdr
  let f := FmtQ.unpack r.lo
  let tm : Option Bool := some true
  let nbz := f.nb || f.pd != 0
  let nbp := !f.nb && f.pd != 0
  match r.op.toNat with
  | 0xB2 => some { i := if f.sub == 0 then .qbind h f.q f.imm else .qbindOff h f.q, mode := tm,
                   res := 1 < f.sub.toNat || (f.sub == 0 && !(decide (f.imm.toNat < 4) || f.imm == 0x10)),
                   mbz := r.d != 0 || r.a != 0 || r.b != 0 || nbz || (f.sub == 1 && f.imm != 0), slot := r.sbAny }
  | 0xB3 => some { i := .qpush h f.q r.a f.nb f.pd, mode := tm, res := f.sub != 0,
                   mbz := r.d != 0 || r.b != 0 || nbp || f.imm != 0, rng := badX e r.a,
                   slot := if f.nb then r.sbReq else r.sbAny }
  | 0xB4 => some { i := .qpop h r.d f.q f.nb f.pd, mode := tm, res := f.sub != 0,
                   mbz := r.a != 0 || r.b != 0 || nbp || f.imm != 0, rng := badX e r.d, slot := r.sbReq }
  | 0xB5 => some { i := .qpeek h r.d f.q f.nb f.pd, mode := tm, res := f.sub != 0,
                   mbz := r.a != 0 || r.b != 0 || nbp || f.imm != 0, rng := badX e r.d, slot := r.sbReq }
  | 0xB6 => some { i := .qstat h r.d f.q, mode := tm, res := f.sub != 0,
                   mbz := r.a != 0 || r.b != 0 || nbz || f.imm != 0, rng := badX e r.d, slot := r.sbReq }
  | 0xB7 => some { i := if f.sub == 0 then .qdrain h f.q else .qdrainAbort h f.q, mode := tm, res := 1 < f.sub.toNat,
                   mbz := r.d != 0 || r.a != 0 || r.b != 0 || nbz || f.imm != 0, slot := r.sbAny }
  | _ => none

/-- MMA, MMAS, TJOIN, TJOINS (12 Table 12-5). -/
def decMma (e : Env) (r : Raw) (scaled : Bool) (i : Ty → Ty → Half → Half → Instr) (res0 : Bool) : Dec :=
  let f := FmtX.unpack r.lo
  let fa := (Ty.of f.fa).getD .i16
  let fb := (Ty.of f.fb).getD .i16
  let ha := Half.of f.ha f.sa
  let hb := Half.of f.hb f.sbh
  { i := i fa fb ha hb, mode := some true,
    res := res0 || (Ty.of f.fa).isNone || (Ty.of f.fb).isNone || !(WF.mmaOK fa fb ha hb scaled (f.sat && !scaled)) ||
           (!f.ha && f.sa) || (!f.hb && f.sbh),
    mbz := (!scaled && f.c != 0) || (scaled && f.sat) || f.mz != 0, rng := scaled && badX e f.c, slot := r.sbAny }

/-- Opcodes 0xB8 to 0xC0 (12). -/
def decMatrix (e : Env) (r : Raw) : Option Dec :=
  let h := r.hdr
  let f := FmtX.unpack r.lo
  let tm : Option Bool := some true
  let ha := Half.of f.ha f.sa
  let hd := Half.of f.hb f.sbh
  let sel := (!f.ha && f.sa) || (!f.hb && f.sbh)
  let ty := f.fa != 0 || f.fb != 0
  let noA := f.ha || f.sa
  let noB := f.hb || f.sbh
  match r.op.toNat with
  | 0xB8 => some { i := .tclaim h (asP r.d) f.c, mode := tm, res := f.sub != 0,
                   mbz := r.a != 0 || r.b != 0 || ty || noA || noB || f.sat || f.mz != 0,
                   rng := badP r.d || badX e f.c, slot := r.sbReq }
  | 0xB9 => some { i := .trel h f.c, mode := tm, res := f.sub != 0,
                   mbz := r.d != 0 || r.a != 0 || r.b != 0 || ty || noA || noB || f.sat || f.mz != 0,
                   rng := badX e f.c, slot := r.sbAny }
  | 0xBA => some { i := .tzero h r.d hd, mode := tm, res := f.sub != 0,
                   mbz := r.a != 0 || r.b != 0 || ty || noA || sel || f.c != 0 || f.sat || f.mz != 0, slot := r.sbAny }
  | 0xBB => some { i := if f.sub == 0 then .tmov h r.d r.a hd ha else .tmovt h r.d r.a hd ha, mode := tm,
                   res := 1 < f.sub.toNat || f.ha != f.hb,
                   mbz := r.b != 0 || ty || sel || f.c != 0 || f.sat || f.mz != 0, slot := r.sbAny }
  | 0xBC => some (decMma e r false (fun fa fb ha hb => .mma h fa fb r.d r.a r.b ha hb f.sat) (f.sub != 0))
  | 0xBD => some (decMma e r true (fun fa fb ha hb => .mmas h fa fb r.d r.a r.b ha hb f.c) (f.sub != 0))
  | 0xBE =>
    let t := (Ty.of f.fa).getD .i16
    let s := (Ty.of f.fb).getD .i16
    some { i := .tcvt h t s ((Rm.of f.sub).getD .dyn) f.sat r.d r.a hd ha, mode := tm,
           res := 4 < f.sub.toNat || (Ty.of f.fa).isNone || (Ty.of f.fb).isNone || !tcvtType t || !tcvtType s ||
                  pairReserved t s || (f.sat && !t.isFp8) || decide (hd.size < ha.size * 8 / s.bits * t.bits / 8),
           mbz := r.b != 0 || sel || f.c != 0 || f.mz != 0, slot := r.sbAny }
  | 0xBF => some { i := .tgang h f.c, mode := tm, res := f.sub != 0,
                   mbz := r.d != 0 || r.a != 0 || r.b != 0 || ty || noA || noB || f.sat || f.mz != 0,
                   rng := badX e f.c, slot := r.sbAny }
  | 0xC0 => some (decMma e r (f.sub == 1) (fun fa fb ha hb =>
                    if f.sub == 1 then .tjoins h fa fb r.d r.a r.b ha hb f.c else .tjoin h fa fb r.d r.a r.b ha hb f.sat)
                    (1 < f.sub.toNat))
  | _ => none

/-- Opcodes 0xC1 to 0xC8 (17). -/
def decGroup (e : Env) (r : Raw) : Option Dec :=
  let h := r.hdr
  let m := FmtM.unpack r.lo
  let f := FmtA.unpack r.lo
  let rt := ReqType.of m.rt
  let sc := (Scope.of m.sc).getD .tm
  let gi : BitVec 2 := f.imm.setWidth 2
  let low := f.c != 0 || f.t2 != 0 || f.rm != 0 || f.sat || f.ftz || 4 ≤ f.imm.toNat || r.b != 0
  match r.op.toNat with
  | 0xC1 => some (decMem e r (.barinit h rt sc r.a r.b m.off) false false true false true false false true false false 3 false)
  | 0xC2 => some (decMem e r (.bararr h rt sc r.d r.a r.b m.off) false false true false true false false false false false 3 true)
  | 0xC3 => some (decMem e r (.barexp h rt sc r.a r.b m.off) false false true false true false false true false false 3 false)
  | 0xC4 => some (decMem e r (.barwait h rt sc r.a r.b m.off) false false true false true false false true false false 3 false)
  | 0xC5 => some (decMem e r (.bartest h rt sc (asP r.d) r.a r.b m.off) false false true false true false false false false true 3 true)
  | 0xC6 => some { i := .grpsync h gi, res := f.t1 != 0 || f.sub != 0, mbz := r.d != 0 || r.a != 0 || low, slot := r.sbAny }
  | 0xC7 => some { i := match f.sub.toNat with
                        | 0 => .grpvoteAll h (asP r.d) (asP r.a) gi
                        | 1 => .grpvoteAny h (asP r.d) (asP r.a) gi
                        | _ => .grpvoteCount h r.d (asP r.a) gi,
                   res := f.t1 != 0 || 2 < f.sub.toNat, mbz := low,
                   rng := badP r.a || (if f.sub.toNat < 2 then badP r.d else badX e r.d), slot := r.sbReq }
  | 0xC8 =>
    let op := (GrpOp.of f.sub).getD .add
    some { i := .grpred h op (f.t1 == 4) r.d r.a gi,
           res := (f.t1 != 3 && f.t1 != 4) || (GrpOp.of f.sub).isNone || (f.t1 == 4 && !(op == .add || op == .min || op == .max)),
           mbz := low, rng := badX2 e r.d r.a, slot := r.sbReq }
  | _ => none

/-- One row of 18 Table 18-12. -/
def decSys (e : Env) (r : Raw) (i : Instr) (d a b super : Bool) (subs : Nat) (slot : Bool) : Dec :=
  let f := FmtS.unpack r.lo
  { i := i, super := super, res := subs < f.sub.toNat,
    mbz := (!d && r.d != 0) || (!a && r.a != 0) || (!b && r.b != 0) || f.sri != 0 || f.imm != 0,
    rng := (d && badX e r.d) || (a && badX e r.a) || (b && badX e r.b), slot := if slot then r.sbReq else r.sbAny }

/-- Opcodes 0xD0 to 0xDF (18, 16, 15). -/
def decRowD (e : Env) (r : Raw) : Option Dec :=
  let h := r.hdr
  let f := FmtS.unpack r.lo
  let sc := (Scope.of (f.imm.setWidth 3)).getD .tm
  let scBad := 5 < f.imm.toNat
  match r.op.toNat with
  | 0xD0 => some { decSys e r (.trap h r.a f.imm) false true false false 0 false with
                   mbz := r.sb != 0 || r.d != 0 || r.b != 0 || f.sri != 0, slot := false }
  | 0xD1 => some { decSys e r (.eret h r.a) false true false true 0 false with
                   mbz := r.sb != 0 || r.d != 0 || r.b != 0 || f.sri != 0 || f.imm != 0, slot := false }
  | 0xD2 => some (decSys e r (.wake h r.d r.a r.b) true true true true 0 true)
  | 0xD3 => some { decSys e r (.sendm h sc r.d r.a r.b) true true true false 0 true with
                   res := f.sub != 0 || scBad, mbz := f.sri != 0,
                   rng := badX3 e r.d r.a r.b || 62 < r.b.toNat || (e.team && decide (e.k ≤ r.b.toNat + 1)) }
  | 0xD4 => some { decSys e r (if f.sub == 0 then .waitm h sc r.d else .waitmNb h sc r.d) true false false false 1 true with
                   res := 1 < f.sub.toNat || scBad, mbz := f.sri != 0 || r.a != 0 || r.b != 0,
                   rng := badX e r.d || 60 < r.d.toNat || (e.team && decide (e.k ≤ r.d.toNat + 3)) }
  | 0xD5 => some { decSys e r (.winrd h r.d r.a r.b f.imm) true true true true 0 true with mbz := f.sri != 0 }
  | 0xD6 => some { decSys e r (.winwr h r.d r.a r.b f.imm) true true true true 0 false with mbz := f.sri != 0 }
  | 0xD7 => some (decSys e r (.ctxsave h r.d r.a) true true false true 0 true)
  | 0xD8 => some (decSys e r (.ctxload h r.d r.a) true true false true 0 true)
  | 0xD9 => some (decSys e r (match f.sub.toNat with
                              | 0 => .launch h r.d r.a
                              | 1 => .launchDrain h r.d r.a
                              | 2 => .launchAbort h r.d r.a
                              | 3 => .launchReset h r.d r.a
                              | _ => .launchRun h r.d r.a) true true false (f.sub != 0 && f.sub.toNat ≤ 4) 4 true)
  | 0xDA => some (decSys e r (match f.sub.toNat with
                              | 0 => .preempt h r.d r.a
                              | 1 => .preemptSave h r.d r.a
                              | _ => .preemptKill h r.d r.a) true true false true 2 true)
  | 0xDB => some (match f.sub.toNat with
                  | 0 => decSys e r (.tlbshoot h r.d r.a r.b) true true true true 3 true
                  | 1 => decSys e r (.tlbshootAsid h r.d r.b) true false true true 3 true
                  | 2 => decSys e r (.tlbshootAll h r.d) true false false true 3 true
                  | _ => decSys e r (.tlbshootGlob h r.d r.a r.b) true true true true 3 true)
  | 0xDC => some (decSys e r (.tlbsync h r.a) false true false true 0 false)
  | 0xDD => some (if f.sub == 0 then
                    { decSys e r (.reclass h r.a r.b ((RClass.of (f.imm.setWidth 2)).getD .full)) false true true true 1 false with
                      res := (RClass.of (f.imm.setWidth 2)).isNone, mbz := r.d != 0 || f.sri != 0 || 4 ≤ f.imm.toNat }
                  else decSys e r (.reclassRd h r.d r.a) true true false true 1 true)
  | 0xDE => some (if f.sub == 1 then decSys e r (.errbRep h r.a) false true false false 1 false
                  else decSys e r (.errbAdd h r.d r.a) true true false (f.sub == 0) 1 true)
  | 0xDF => some (decSys e r (if f.sub == 0 then .faultack h r.a else .faultackRefuse h r.a) false true false true 1 false)
  | _ => none

/-- A VPAIR word (02 R33 to R35): the two halves below the opcode; a half that is illegal for any reason has the pairing cause (R35). (DEDUCED, log
15.) -/
def decVpair (w : Word) : Dec :=
  let a := VHalf.unpack (w.extractLsb' 28 28)
  let b := VHalf.unpack (w.extractLsb' 0 28)
  { i := .vpair a b, mode := some false,
    pair := vpReserved a || vpReserved b || vpMbz a || vpMbz b || vpPairBad a b }

/-- The row of the opcode map (02 Table 2-10) by the high part of the opcode. -/
def decRaw (e : Env) (r : Raw) : Option Dec :=
  let op := r.op.toNat
  if op < 0x10 then decRow0 e r
  else if op < 0x20 then some (decInt e r)
  else if op < 0x40 then decRow23 e r
  else if op < 0x60 then decRow45 e r
  else if op < 0x90 then decVec r
  else if op < 0xA7 then decRow9 e r
  else if op < 0xB2 then decScratch e r
  else if op < 0xB8 then decQueue e r
  else if op < 0xC1 then decMatrix e r
  else if op < 0xD0 then decGroup e r
  else decRowD e r

/-- The decoder of an instruction word: total, refusing by name (02 R37 to R39). (DEDUCED, log 15.) (DESIGN CHOICE, log 42.) -/
def decodeWord (e : Env) (w : Word) : Except EncFault Instr :=
  if w.extractLsb' 56 8 == 0x85#8 then (decVpair w).result e
  else match decRaw e (Raw.unpack w) with
    | none => .error .unassigned
    | some d => d.result e

/-- A word of the common layout (02 Table 2-5). -/
def mkWord (op : BitVec 8) (h : Hdr) (d a b : BitVec 6) (lo : BitVec 30) : Word :=
  (Raw.mk op h.g h.gn h.sb d a b lo).pack
/-- Format A with its usual fields; the others zero. -/
def encA (op : BitVec 8) (h : Hdr) (d a b c : BitVec 6) (t1 : BitVec 4) (sub : BitVec 5) (imm : BitVec 6 := 0)
    (t2 : BitVec 4 := 0) (rm : BitVec 3 := 0) (sat ftz : Bool := false) : Word :=
  mkWord op h d a b (FmtA.mk c t1 t2 rm sat ftz sub imm).pack
def encI (op : BitVec 8) (h : Hdr) (d a b : BitVec 6) (w : BitVec 2) (sub : BitVec 3) (f : Bool) (imm : BitVec 24) : Word :=
  mkWord op h d a b (FmtI.mk w sub f imm).pack
def encM (op : BitVec 8) (h : Hdr) (d a b : BitVec 6) (rt : BitVec 2) (sc : BitVec 3) (span : BitVec 5) (w : BitVec 2)
    (off : BitVec 18) : Word :=
  mkWord op h d a b (FmtM.mk rt sc span w off).pack
def encV (op : BitVec 8) (h : Hdr) (d a b c : BitVec 6) (t : BitVec 4) (g : Gov) (sub : BitVec 5) (rm : BitVec 3 := 0)
    (sat : Bool := false) : Word :=
  mkWord op h d a b (FmtV.mk c t g.pg g.gv g.z rm sat sub 0).pack
def encX (op : BitVec 8) (h : Hdr) (d a b : BitVec 6) (fa fb : BitVec 4) (ha hb : Half) (c : BitVec 6) (sub : BitVec 3)
    (sat : Bool := false) : Word :=
  mkWord op h d a b (FmtX.mk fa fb ha.bit ha.sel hb.bit hb.sel c sub sat 0).pack
def encQ (op : BitVec 8) (h : Hdr) (d a : BitVec 6) (q : Qr) (nb : Bool) (pd : Pr) (sub : BitVec 5) (imm : BitVec 16) : Word :=
  mkWord op h d a 0 (FmtQ.mk q nb pd sub imm).pack
def encS (op : BitVec 8) (h : Hdr) (d a b : BitVec 6) (sri : BitVec 12) (sub : BitVec 4) (imm : BitVec 14) : Word :=
  mkWord op h d a b (FmtS.mk sri sub imm).pack
/-- A two-operand integer word (07 Table 7-7). -/
def enc2 (op : BitVec 8) (sub : BitVec 5) (h : Hdr) (t : Wd) (d a b : Xr) : Word := encA op h d a b 0 t.code4 sub
def encImm (op : BitVec 8) (h : Hdr) (t : Wd) (d a : Xr) (imm : BitVec 24) : Word := encI op h d a 0 t.code 0 false imm
/-- A special function (08 Table 8-2). -/
def encSf (op : BitVec 8) (h : Hdr) (t : Ty) (rm : Rm) (ftz : Bool) (d a : Xr) : Word :=
  encA op h d a 0 0 t.code 0 0 0 rm.code false ftz
def encF3 (op : BitVec 8) (h : Hdr) (t : Ty) (rm : Rm) (sat ftz : Bool) (d a b c : Xr) : Word :=
  encA op h d a b c t.code 0 0 0 rm.code sat ftz
/-- An integer element word (09 Table 9-2); `var` is sub[2]. -/
def encVI (op : BitVec 8) (var sat : Bool) (h : Hdr) (t : Wd) (g : Gov) (d a : Vr) (b : VSrc) : Word :=
  encV op h (ofV d) (ofV a) b.b b.c t.code4 g (0#2 ++ (BitVec.ofBool var ++ b.code)) 0 sat
def encVF (op : BitVec 8) (h : Hdr) (t : Ty) (g : Gov) (rm : BitVec 3) (d a : Vr) (b : VSrc) : Word :=
  encV op h (ofV d) (ofV a) b.b b.c t.code g (0#3 ++ b.code) rm
def encVR (op : BitVec 8) (uns : Bool) (h : Hdr) (t : Ty) (g : Gov) (rm : BitVec 3) (sat : Bool) (d a b : Vr) : Word :=
  encV op h (ofV d) (ofV a) (ofV b) 0 t.code g (if uns then 4 else 0) rm sat
def encVM (op : BitVec 8) (uns : Bool) (h : Hdr) (t : Wd) (d a b : Vr) (c : Xr) : Word :=
  encV op h (ofV d) (ofV a) (ofV b) c t.code4 ⟨false, 0, false⟩ (if uns then 1 else 0)
def encAmo (op : BitVec 8) (u : Bool) (h : Hdr) (rt : ReqType) (sc : Scope) (t : Wd) (d a b : Xr) (off : BitVec 18) : Word :=
  encM op h d a b rt.code sc.code (if u then 1 else 0) t.code off
def encLd (op : BitVec 8) (h : Hdr) (rt : ReqType) (sc : Scope) (n : BitVec 5) (t : Wd) (d a b : Xr) (off : BitVec 18) : Word :=
  encM op h d a b rt.code sc.code n t.code off

/-- The word of an instruction, from the encoding tables of the spec; rows that are no words have none. (DEDUCED, log 15.) (DESIGN CHOICE, log 42.) -/
def encode : Instr → Option Word
  | .br h off => some (mkWord 0x01 h 0 0 0 off)
  | .brDiv h off => some (mkWord 0x01 h 0 0 0x20 off)
  | .join h => some (mkWord 0x02 h 0 0 0 0)
  | .jmp h off => some (mkWord 0x03 h 0 0 0 off)
  | .jmpx h a => some (mkWord 0x04 h 0 a 0 0)
  | .call h d off => some (mkWord 0x05 h d 0 0 off)
  | .callx h d a => some (mkWord 0x06 h d a 0 0)
  | .ret h a => some (mkWord 0x07 h 0 a 0 0)
  | .loop h a off => some (mkWord 0x08 h 0 a 0 off)
  | .halt h => some (mkWord 0x09 h 0 0 0 0)
  | .yield h => some (mkWord 0x0A h 0 0 0 0)
  | .cinch h a b k w entry => some (encI 0x0B h 0 a b k (0#1 ++ w) false entry)
  | .split h => some (mkWord 0x0C h 0 0 0 0)
  | .movsr h d sri => some (encS 0x0D h d 0 0 sri 0 0)
  | .movrs h sri a => some (encS 0x0E h 0 a 0 sri 0 0)
  | .movrsSet h sri a => some (encS 0x0E h 0 a 0 sri 1 0)
  | .movrsClr h sri a => some (encS 0x0E h 0 a 0 sri 2 0)
  | .nop h => some (mkWord 0x0F h 0 0 0 0)
  | .add h t d a b => some (enc2 0x10 0 h t d a b)
  | .sub h t d a b => some (enc2 0x11 0 h t d a b)
  | .adds h t d a b => some (enc2 0x12 0 h t d a b)
  | .addsu h t d a b => some (enc2 0x12 1 h t d a b)
  | .subs h t d a b => some (enc2 0x13 0 h t d a b)
  | .subsu h t d a b => some (enc2 0x13 1 h t d a b)
  | .mul h t d a b => some (enc2 0x14 0 h t d a b)
  | .mulh h t d a b => some (enc2 0x15 0 h t d a b)
  | .mulhu h t d a b => some (enc2 0x16 0 h t d a b)
  | .div h t d a b => some (enc2 0x17 0 h t d a b)
  | .divu h t d a b => some (enc2 0x18 0 h t d a b)
  | .rem h t d a b => some (enc2 0x19 0 h t d a b)
  | .remu h t d a b => some (enc2 0x1A 0 h t d a b)
  | .and h t d a b => some (enc2 0x1B 0 h t d a b)
  | .or h t d a b => some (enc2 0x1C 0 h t d a b)
  | .xor h t d a b => some (enc2 0x1D 0 h t d a b)
  | .andn h t d a b => some (enc2 0x1E 0 h t d a b)
  | .orn h t d a b => some (enc2 0x1F 0 h t d a b)
  | .shl h t d a b => some (enc2 0x20 0 h t d a b)
  | .shr h t d a b => some (enc2 0x21 0 h t d a b)
  | .sra h t d a b => some (enc2 0x22 0 h t d a b)
  | .rol h t d a b => some (enc2 0x23 0 h t d a b)
  | .clz h t d a => some (enc2 0x24 0 h t d a 0)
  | .ctz h t d a => some (enc2 0x25 0 h t d a 0)
  | .popc h t d a => some (enc2 0x26 0 h t d a 0)
  | .min h t d a b => some (enc2 0x27 0 h t d a b)
  | .max h t d a b => some (enc2 0x28 0 h t d a b)
  | .minu h t d a b => some (enc2 0x29 0 h t d a b)
  | .maxu h t d a b => some (enc2 0x2A 0 h t d a b)
  | .abs h t sat d a => some (encA 0x2B h d a 0 0 t.code4 0 0 0 0 sat)
  | .sel h d pc a b => some (encA 0x2C h d a b (ofP pc) 3 0)
  | .lea h d a b s => some (encA 0x2D h d a b 0 3 0 (0#3 ++ s))
  | .ext h t d a => some (enc2 0x2E 0 h t d a 0)
  | .extu h t d a => some (enc2 0x2E 1 h t d a 0)
  | .bfx h d a pos len1 => some (encA 0x2F h d a 0 len1 3 0 pos)
  | .bfxu h d a pos len1 => some (encA 0x2F h d a 0 len1 3 1 pos)
  | .bfi h d a pos len1 => some (encA 0x30 h d a 0 len1 3 0 pos)
  | .cmp h c t pd a b pc => some (encA 0x31 h (ofP pd) a b (ofP pc) t.code4 (0#2 ++ c.code))
  | .pand h pd pa pb => some (mkWord 0x32 h (ofP pd) (ofP pa) (ofP pb) 0)
  | .por h pd pa pb => some (mkWord 0x33 h (ofP pd) (ofP pa) (ofP pb) 0)
  | .pxor h pd pa pb => some (mkWord 0x34 h (ofP pd) (ofP pa) (ofP pb) 0)
  | .pnot h pd pa => some (mkWord 0x35 h (ofP pd) (ofP pa) 0 0)
  | .addi h t d a imm => some (encImm 0x36 h t d a imm)
  | .muli h t d a imm => some (encImm 0x37 h t d a imm)
  | .andi h t d a imm => some (encImm 0x38 h t d a imm)
  | .ori h t d a imm => some (encImm 0x39 h t d a imm)
  | .xori h t d a imm => some (encImm 0x3A h t d a imm)
  | .shli h t d a imm => some (encImm 0x3B h t d a imm)
  | .shri h t d a imm => some (encImm 0x3C h t d a imm)
  | .srai h t d a imm => some (encImm 0x3D h t d a imm)
  | .roli h t d a imm => some (encImm 0x3E h t d a imm)
  | .cmpi h c t pd a imm => some (encI 0x3F h (ofP pd) a 0 t.code c.code false imm)
  | .li h d imm => some (encI 0x51 h d 0 0 3 0 false imm)
  | .lihMid h d imm => some (encI 0x52 h d 0 0 3 1 false imm)
  | .lihHigh h d imm => some (encI 0x52 h d 0 0 3 2 false (0#8 ++ imm))
  | .fadd h t rm sat ftz d a b => some (encF3 0x40 h t rm sat ftz d a b 0)
  | .fsub h t rm sat ftz d a b => some (encF3 0x41 h t rm sat ftz d a b 0)
  | .fmul h t rm sat ftz d a b => some (encF3 0x42 h t rm sat ftz d a b 0)
  | .fma h t rm sat ftz d a b c => some (encF3 0x43 h t rm sat ftz d a b c)
  | .fdiv h t rm ftz d a b => some (encF3 0x44 h t rm false ftz d a b 0)
  | .fsqrt h t rm ftz d a => some (encSf 0x45 h t rm ftz d a)
  | .fmin h t ftz d a b => some (encF3 0x46 h t .dyn false ftz d a b 0)
  | .fmax h t ftz d a b => some (encF3 0x47 h t .dyn false ftz d a b 0)
  | .fcmp h c t ftz pd a b pc => some (encA 0x48 h (ofP pd) a b (ofP pc) t.code (0#2 ++ c.code) 0 0 0 false ftz)
  | .fcvt h t s rm sat ftz d a => some (encA 0x49 h d a 0 0 t.code 0 0 s.code rm.code sat ftz)
  | .fcvtu h t s rm ftz d a => some (encA 0x49 h d a 0 0 t.code 1 0 s.code rm.code false ftz)
  | .fclass h t d a => some (encA 0x4A h d a 0 0 t.code 0)
  | .frcp h t rm ftz d a => some (encSf 0x4B h t rm ftz d a)
  | .frsq h t rm ftz d a => some (encSf 0x4C h t rm ftz d a)
  | .fexp2 h t rm ftz d a => some (encSf 0x4D h t rm ftz d a)
  | .flog2 h t rm ftz d a => some (encSf 0x4E h t rm ftz d a)
  | .fsinp h t rm ftz d a => some (encSf 0x4F h t rm ftz d a)
  | .fscale h t rm ftz d a b => some (encF3 0x50 h t rm false ftz d a b 0)
  | .vld h gv z rt sc t d a pg off =>
      some (encM 0x60 h (ofV d) a (ofV pg) rt.code sc.code (0#3 ++ (BitVec.ofBool z ++ BitVec.ofBool gv)) t.code off)
  | .vst h gv rt sc t d a pg off => some (encM 0x61 h (ofV d) a (ofV pg) rt.code sc.code (0#4 ++ BitVec.ofBool gv) t.code off)
  | .vldx h g rt sc t d a b =>
      some (encM 0x62 h (ofV d) a (ofV b) rt.code sc.code g.pg t.code (BitVec.ofBool g.gv ++ (BitVec.ofBool g.z ++ 0#16)))
  | .vstx h gv pg rt sc t d a b =>
      some (encM 0x63 h (ofV d) a (ofV b) rt.code sc.code pg t.code (BitVec.ofBool gv ++ 0#17))
  | .vadd h t g sat d a b => some (encVI 0x64 false sat h t g d a b)
  | .vaddu h t g d a b => some (encVI 0x64 true true h t g d a b)
  | .vsub h t g sat d a b => some (encVI 0x65 false sat h t g d a b)
  | .vsubu h t g d a b => some (encVI 0x65 true true h t g d a b)
  | .vmul h t g d a b => some (encVI 0x66 false false h t g d a b)
  | .vmulh h t g d a b => some (encVI 0x67 false false h t g d a b)
  | .vmulhu h t g d a b => some (encVI 0x67 true false h t g d a b)
  | .vmin h t g d a b => some (encVI 0x68 false false h t g d a b)
  | .vmax h t g d a b => some (encVI 0x69 false false h t g d a b)
  | .vminu h t g d a b => some (encVI 0x6A false false h t g d a b)
  | .vmaxu h t g d a b => some (encVI 0x6B false false h t g d a b)
  | .vand h t g d a b => some (encVI 0x6C false false h t g d a b)
  | .vor h t g d a b => some (encVI 0x6D false false h t g d a b)
  | .vxor h t g d a b => some (encVI 0x6E false false h t g d a b)
  | .vshl h t g d a b => some (encVI 0x6F false false h t g d a b)
  | .vshr h t g d a b => some (encVI 0x70 false false h t g d a b)
  | .vsra h t g d a b => some (encVI 0x71 false false h t g d a b)
  | .vfadd h t g rm d a b => some (encVF 0x72 h t g rm.code d a b)
  | .vfmul h t g rm d a b => some (encVF 0x73 h t g rm.code d a b)
  | .vfma h t g rm d a b => some (encVF 0x74 h t g rm.code d a b)
  | .vfmin h t g d a b => some (encVF 0x75 h t g 0 d a b)
  | .vfmax h t g d a b => some (encVF 0x76 h t g 0 d a b)
  | .vfcvt h t s g rm sat p d a => some (encV 0x77 h (ofV d) (ofV a) 0 (0#2 ++ s.code) t.code g (0#2 ++ p) rm.code sat)
  | .vfcvtu h t s g rm sat p d a => some (encV 0x77 h (ofV d) (ofV a) 0 (0#2 ++ s.code) t.code g (1#2 ++ p) rm.code sat)
  | .vcmp h c t g d a b => some (encV 0x78 h (ofV d) (ofV a) b.b b.c t.code g (c.code ++ b.code))
  | .vwhile h t d a b => some (encV 0x79 h (ofV d) a b 0 t.code ⟨false, 0, false⟩ 0)
  | .vlen h d => some (mkWord 0x7A h d 0 0 0)
  | .vsel h t pg d a b => some (encV 0x7B h (ofV d) (ofV a) (ofV b) 0 t.code ⟨true, pg, false⟩ 0)
  | .vbcast h t g d a => some (encV 0x7C h (ofV d) a 0 0 t.code g 0)
  | .vbcastElement h t g d a e => some (encV 0x7C h (ofV d) (ofV a) 0 e t.code g 1)
  | .vperm h t g d a b => some (encV 0x7D h (ofV d) (ofV a) (ofV b) 0 t.code g 0)
  | .vcompress h t gv pg d a c => some (encV 0x7E h (ofV d) (ofV a) 0 c t.code ⟨gv, pg, false⟩ 0)
  | .vredadd h t gv pg rm sat d a b => some (encVR 0x7F false h t ⟨gv, pg, false⟩ rm.code sat d a b)
  | .vredmin h t gv pg d a b => some (encVR 0x80 false h t ⟨gv, pg, false⟩ 0 false d a b)
  | .vredminu h t gv pg d a b => some (encVR 0x80 true h t ⟨gv, pg, false⟩ 0 false d a b)
  | .vredmax h t gv pg d a b => some (encVR 0x81 false h t ⟨gv, pg, false⟩ 0 false d a b)
  | .vredmaxu h t gv pg d a b => some (encVR 0x81 true h t ⟨gv, pg, false⟩ 0 false d a b)
  | .vscan h t g rm d a b => some (encVR 0x82 false h t g rm.code false d a b)
  | .vmerge h t d a b c => some (encVM 0x83 false h t d a b c)
  | .vmergeu h t d a b c => some (encVM 0x83 true h t d a b c)
  | .vmergekv h t d a b c => some (encVM 0x84 false h t d a b c)
  | .vmergekvu h t d a b c => some (encVM 0x84 true h t d a b c)
  | .vpair a b => some (0x85#8 ++ (a.pack ++ b.pack))
  | .ld h rt sc n t d a off => some (encLd 0x90 h rt sc n t d a 0 off)
  | .st h rt sc n t b a off => some (encLd 0x91 h rt sc n t 0 a b off)
  | .ldacq h rt sc n t d a off => some (encLd 0x92 h rt sc n t d a 0 off)
  | .strel h rt sc n t b a off => some (encLd 0x93 h rt sc n t 0 a b off)
  | .fence h sc => some (encM 0x94 h 0 0 0 0 sc.code 0 0 0)
  | .amoadd h rt sc t d a b off => some (encAmo 0x95 false h rt sc t d a b off)
  | .amoand h rt sc t d a b off => some (encAmo 0x96 false h rt sc t d a b off)
  | .amoor h rt sc t d a b off => some (encAmo 0x97 false h rt sc t d a b off)
  | .amoxor h rt sc t d a b off => some (encAmo 0x98 false h rt sc t d a b off)
  | .amomin h rt sc t d a b off => some (encAmo 0x99 false h rt sc t d a b off)
  | .amominu h rt sc t d a b off => some (encAmo 0x99 true h rt sc t d a b off)
  | .amomax h rt sc t d a b off => some (encAmo 0x9A false h rt sc t d a b off)
  | .amomaxu h rt sc t d a b off => some (encAmo 0x9A true h rt sc t d a b off)
  | .amoswap h rt sc t d a b off => some (encAmo 0x9B false h rt sc t d a b off)
  | .amocas h rt sc t d a b off => some (encAmo 0x9C false h rt sc t d a b off)
  | .ldlk h rt sc n t d a off => some (encLd 0x9D h rt sc n t d a 0 off)
  | .stck h rt sc t pd b a off => some (encLd 0x9E h rt sc 0 t (ofP pd) a b off)
  | .subscr h f mode n pd a off => some (encM 0x9F h (ofP pd) a (0#2 ++ (BitVec.ofBool mode ++ f.code)) 0 0 n 2 off)
  | .unsub h n a off => some (encM 0xA0 h 0 a 0 0 0 n 2 off)
  | .upgr h f n pd a off => some (encM 0xA1 h (ofP pd) a (0#3 ++ f.code) 0 0 n 2 off)
  | .invspan h sc n a off => some (encM 0xA2 h 0 a 0 0 sc.code n 2 off)
  | .wbspan h sc n a off => some (encM 0xA3 h 0 a 0 0 sc.code n 2 off)
  | .pref h rt n a off => some (encM 0xA4 h 0 a 0 rt.code 0 n 2 off)
  | .pinw h pd a b off => some (encM 0xA5 h (ofP pd) a b 0 0 0 0 off)
  | .unpinw h pd a off => some (encM 0xA6 h (ofP pd) a 0 0 0 0 0 off)
  | .lds h t d a imm => some (encI 0xA7 h d a 0 t.code 0 false imm)
  | .ldsu h t d a imm => some (encI 0xA7 h d a 0 t.code 0 true imm)
  | .sts h t b a imm => some (encI 0xA8 h 0 a b t.code 0 false imm)
  | .ldsf h t d a imm => some (encI 0xA9 h d a 0 t.code 0 false imm)
  | .ldse h t d a imm => some (encI 0xAA h d a 0 t.code 0 false imm)
  | .stsf h t b a imm => some (encI 0xAB h 0 a b t.code 0 false imm)
  | .stsx h t b a imm => some (encI 0xAC h 0 a b t.code 0 false imm)
  | .feopf h a b => some (encA 0xAD h 0 a b 0 0 1)
  | .feope h a b => some (encA 0xAD h 0 a b 0 0 0)
  | .samoadd h t d a b => some (enc2 0xAE 0 h t d a b)
  | .samoand h t d a b => some (enc2 0xAE 1 h t d a b)
  | .samoor h t d a b => some (enc2 0xAE 2 h t d a b)
  | .samoxor h t d a b => some (enc2 0xAE 3 h t d a b)
  | .samomin h t d a b => some (enc2 0xAE 4 h t d a b)
  | .samomax h t d a b => some (enc2 0xAE 5 h t d a b)
  | .samominu h t d a b => some (enc2 0xAE 6 h t d a b)
  | .samomaxu h t d a b => some (enc2 0xAE 7 h t d a b)
  | .samoswap h t d a b => some (enc2 0xAE 8 h t d a b)
  | .samocas h t d a b c => some (encA 0xAE h d a b c t.code4 9)
  | .salloc h d pc a => some (encA 0xAF h d a 0 (ofP pc) 0 0)
  | .sfree h a => some (encA 0xB0 h 0 a 0 0 0 0)
  | .sfmtWrite h bf a => some (encA 0xB1 h (ofP bf) a 0 0 0 0)
  | .sfmtRead h d bf => some (encA 0xB1 h d (ofP bf) 0 0 0 1)
  | .qbind h q port => some (encQ 0xB2 h 0 0 q false 0 0 port)
  | .qbindOff h q => some (encQ 0xB2 h 0 0 q false 0 1 0)
  | .qpush h q a nb pd => some (encQ 0xB3 h 0 a q nb pd 0 0)
  | .qpop h d q nb pd => some (encQ 0xB4 h d 0 q nb pd 0 0)
  | .qpeek h d q nb pd => some (encQ 0xB5 h d 0 q nb pd 0 0)
  | .qstat h d q => some (encQ 0xB6 h d 0 q false 0 0 0)
  | .qdrain h q => some (encQ 0xB7 h 0 0 q false 0 0 0)
  | .qdrainAbort h q => some (encQ 0xB7 h 0 0 q false 0 1 0)
  | .tclaim h pd c => some (encX 0xB8 h (ofP pd) 0 0 0 0 .whole .whole c 0)
  | .trel h c => some (encX 0xB9 h 0 0 0 0 0 .whole .whole c 0)
  | .tzero h td hd => some (encX 0xBA h td 0 0 0 0 .whole hd 0 0)
  | .tmov h td ta hd ha => some (encX 0xBB h td ta 0 0 0 ha hd 0 0)
  | .tmovt h td ta hd ha => some (encX 0xBB h td ta 0 0 0 ha hd 0 1)
  | .mma h fa fb td ta tb ha hb sat => some (encX 0xBC h td ta tb fa.code fb.code ha hb 0 0 sat)
  | .mmas h fa fb td ta tb ha hb c => some (encX 0xBD h td ta tb fa.code fb.code ha hb c 0)
  | .tcvt h t s rm sat td ta hd ha => some (encX 0xBE h td ta 0 t.code s.code ha hd 0 rm.code sat)
  | .tgang h c => some (encX 0xBF h 0 0 0 0 0 .whole .whole c 0)
  | .tjoin h fa fb td ta tb ha hb sat => some (encX 0xC0 h td ta tb fa.code fb.code ha hb 0 0 sat)
  | .tjoins h fa fb td ta tb ha hb c => some (encX 0xC0 h td ta tb fa.code fb.code ha hb c 1)
  | .barinit h rt sc a b off => some (encLd 0xC1 h rt sc 0 .w64 0 a b off)
  | .bararr h rt sc d a b off => some (encLd 0xC2 h rt sc 0 .w64 d a b off)
  | .barexp h rt sc a b off => some (encLd 0xC3 h rt sc 0 .w64 0 a b off)
  | .barwait h rt sc a b off => some (encLd 0xC4 h rt sc 0 .w64 0 a b off)
  | .bartest h rt sc pd a b off => some (encLd 0xC5 h rt sc 0 .w64 (ofP pd) a b off)
  | .grpsync h gi => some (encA 0xC6 h 0 0 0 0 0 0 (0#4 ++ gi))
  | .grpvoteAll h pd pa gi => some (encA 0xC7 h (ofP pd) (ofP pa) 0 0 0 0 (0#4 ++ gi))
  | .grpvoteAny h pd pa gi => some (encA 0xC7 h (ofP pd) (ofP pa) 0 0 0 1 (0#4 ++ gi))
  | .grpvoteCount h d pa gi => some (encA 0xC7 h d (ofP pa) 0 0 0 2 (0#4 ++ gi))
  | .grpred h op flt d a gi => some (encA 0xC8 h d a 0 0 (if flt then 4 else 3) op.code (0#4 ++ gi))
  | .trap h a code => some (encS 0xD0 h 0 a 0 0 0 code)
  | .eret h a => some (encS 0xD1 h 0 a 0 0 0 0)
  | .wake h d a b => some (encS 0xD2 h d a b 0 0 0)
  | .sendm h sc d a b => some (encS 0xD3 h d a b 0 0 (0#11 ++ sc.code))
  | .waitm h sc d => some (encS 0xD4 h d 0 0 0 0 (0#11 ++ sc.code))
  | .waitmNb h sc d => some (encS 0xD4 h d 0 0 0 1 (0#11 ++ sc.code))
  | .winrd h d a b sel => some (encS 0xD5 h d a b 0 0 sel)
  | .winwr h d a b sel => some (encS 0xD6 h d a b 0 0 sel)
  | .ctxsave h d a => some (encS 0xD7 h d a 0 0 0 0)
  | .ctxload h d a => some (encS 0xD8 h d a 0 0 0 0)
  | .launch h d a => some (encS 0xD9 h d a 0 0 0 0)
  | .launchDrain h d a => some (encS 0xD9 h d a 0 0 1 0)
  | .launchAbort h d a => some (encS 0xD9 h d a 0 0 2 0)
  | .launchReset h d a => some (encS 0xD9 h d a 0 0 3 0)
  | .launchRun h d a => some (encS 0xD9 h d a 0 0 4 0)
  | .preempt h d a => some (encS 0xDA h d a 0 0 0 0)
  | .preemptSave h d a => some (encS 0xDA h d a 0 0 1 0)
  | .preemptKill h d a => some (encS 0xDA h d a 0 0 2 0)
  | .tlbshoot h d a b => some (encS 0xDB h d a b 0 0 0)
  | .tlbshootAsid h d b => some (encS 0xDB h d 0 b 0 1 0)
  | .tlbshootAll h d => some (encS 0xDB h d 0 0 0 2 0)
  | .tlbshootGlob h d a b => some (encS 0xDB h d a b 0 3 0)
  | .tlbsync h a => some (encS 0xDC h 0 a 0 0 0 0)
  | .reclass h a b c => some (encS 0xDD h 0 a b 0 0 (0#12 ++ c.code))
  | .reclassRd h d a => some (encS 0xDD h d a 0 0 1 0)
  | .errbAdd h d a => some (encS 0xDE h d a 0 0 0 0)
  | .errbRep h a => some (encS 0xDE h 0 a 0 0 1 0)
  | .faultack h a => some (encS 0xDF h 0 a 0 0 0 0)
  | .faultackRefuse h a => some (encS 0xDF h 0 a 0 0 1 0)
  | .reservationTimeout | .outstandingFeStep | .sfreeComplete | .feWaiterRetry | .feTimedRetry | .queueRetry | .channelAccept
  | .copy | .copy2d | .gather | .scatter | .fill | .convert | .tileld
  | .tilest | .flagset | .bardec | .gangLatchTimeout | .engineStart | .governorGrant | .governorWindowEnd
  | .barrierWaitRetry | .groupWaitRetry | .reclassComplete | .clauseFetch | .splitIssue | .issueArbitration | .urgentFirstClause
  | .wordComplete | .harnessFormation | .rendezvousTimeout | .teamSplit | .autoSplit | .unitExit | .fadeInterval
  | .rds | .rdo | .stw | .upg | .uns | .evc | .wbk
  | .fwd | .inv | .upd | .rcl | .dat | .ack | .nakRetry
  | .directorySliceFailure | .errorCharge | .translationWalk | .migrationRewalk | .heldRequestComplete | .operandLogRecord | .shootdownComplete
  | .imbShootdownRange | .imbShootdownAsid | .imbShootdownAll | .imbShootdownGlobal | .imbFaultRetry | .imbFaultRefuse | .dispatchCycle
  | .tileFlagReread | .recordComplete | .lateCompletionCheck | .messageDelivery | .eventRecordWrite | .preemptionArrival | .drainTimeout
  | .doorbellAdvance | .doorbellDrain | .doorbellAbort | .doorbellReset | .doorbellRun | .hubLqbaseWrite | .eqCtlWrite
  | .windowEntryWrite | .windowEntryRead | .registerWrite | .inboundPostedWrite | .inboundFrame | .frameAck | .inboundAtomicop
  | .cxlMemRequest | .linkMessage | .linkFlitReceive | .linkReplay | .laneRepair | .powerSample | .thermalTrip
  | .moduleReset | .mgmtAttest | .mgmtReadCert | .mgmtCommitFirmware | .mgmtRestoreSlice | .mgmtInvalidCmd | .waitmTimedRetry
  | .bitError | .imbKindRejected | .inboundReadRequest | .mgmtCommandComplete => none

/-! Word kinds and clauses (02 R17, R21 to R23). -/

/-- Word kinds (02 Table 2-3). -/
inductive Kind where
  | s | sStar | n | v | vStar | m | q | g | y | c | k | u
deriving DecidableEq, Repr

/-- The kind of an opcode (02 Table 2-3). -/
def kindOf (op : Nat) : Kind :=
  match op with
  | 0x01 | 0x03 | 0x04 | 0x05 | 0x06 | 0x07 | 0x08 => .c
  | 0x02 | 0x09 | 0x0B | 0x0C | 0xD0 | 0xD1 => .k
  | 0x0A | 0x0D | 0x0E | 0x0F => .n
  | 0x44 | 0x45 | 0x4B | 0x4C | 0x4D | 0x4E | 0x4F => .sStar
  | 0x60 | 0x61 | 0x62 | 0x63 | 0x7F | 0x80 | 0x81 | 0x82 | 0x83 | 0x84 => .vStar
  | _ =>
    if op < 0x10 then .u
    else if op < 0x53 then .s
    else if op < 0x60 then .u
    else if op < 0x86 then .v
    else if op < 0x90 then .u
    else if op < 0xB2 then .m
    else if op < 0xC1 then .q
    else if op < 0xC9 then .g
    else if op < 0xD0 then .u
    else if op < 0xE0 then .y
    else .u

/-- The opcode of a word. -/
def opOf (w : Word) : Nat := (w.extractLsb' 56 8).toNat

/-- Kinds at any position of a clause of an engine class (02 Table 2-4). -/
def kindAllowed (eclass : Nat) (k : Kind) : Bool :=
  match eclass, k with
  | _, .s | _, .sStar | _, .n | _, .u => true
  | 1, .v | 1, .vStar | 2, .m | 3, .q | 3, .g | 4, .v | 4, .vStar | 4, .m | 4, .q | 4, .g | 5, .g | 5, .y => true
  | _, _ => false

/-- A clause as fetched (02 R15): its header and its words. -/
structure Clause where
  addr : Word
  hdr : Word
  words : List Word
deriving DecidableEq, Repr

def Clause.count (c : Clause) : Nat := (c.hdr.extractLsb' 60 4).toNat
def Clause.eclass (c : Clause) : Nat := (c.hdr.extractLsb' 57 3).toNat
/-- Slot s of the wait field, bit 51 + (s - 1) (02 Table 2-1). -/
def Clause.waits (c : Clause) (s : Nat) : Bool := c.hdr.getLsbD (50 + s)
def Clause.yields (c : Clause) : Bool := c.hdr.getLsbD 50
def Clause.reconv (c : Clause) : Bool := c.hdr.getLsbD 49
def Clause.pair (c : Clause) : Bool := c.hdr.getLsbD 48
def Clause.idem (c : Clause) : Bool := c.hdr.getLsbD 47
def Clause.weight (c : Clause) : Nat := (c.hdr.extractLsb' 40 7).toNat
/-- The address after the clause (02 R15). -/
def Clause.next (c : Clause) : Word := c.addr + BitVec.ofNat 64 (8 * (c.count + 2))
/-- The address of word i (02 R15). -/
def Clause.wordAddr (c : Clause) (i : Nat) : Word := c.addr + BitVec.ofNat 64 (8 * i)

/-- The clause check of 02 R23, lowest cause first (R39). -/
def Clause.check (c : Clause) : Option Nat :=
  let ks := c.words.map (fun w => kindOf (opOf w))
  let isCK (k : Kind) : Bool := k == .c || k == .k
  if c.hdr.extractLsb' 0 40 != 0#40 then some 0x10
  else if 6 ≤ c.eclass then some 0x11
  else if ks.any (fun k => if isCK k then k == .k && c.eclass != 5 else !kindAllowed c.eclass k) then some 0x12
  else if (ks.dropLast).any isCK then some 0x13
  else none

/-- The decoder on an instruction laid out as spec/opcode_table.json numbers its bits: instruction words of this
hardware are doublewords stored little-endian (00 R2), so the numbering is the doubleword's own. The mode is the one in
which the word is legal, with supervisor privilege and 64 registers. -/
def decodeTableWord (nbits w : Nat) : Option Instr :=
  if 64 < nbits then none
  else
    let v := BitVec.ofNat 64 (w % 2 ^ nbits)
    match decodeWord ⟨false, true, 64⟩ v with
    | .ok i => some i
    | .error _ => (decodeWord ⟨true, true, 64⟩ v).toOption

end Sys2Proof
end

