-- ==== Sys2Proof/Machine/State.lean ====
section
/-! DEFINITION. State.lean: the state of the part as plain data, the reasons a step can stop, and the state after reset. -/

namespace Sys2Proof.Machine

/-- Reasons a step stops with a fault. -/
inductive Fault where
  /-- Raised by an instruction word that is executed while no unit is the issuer: a word runs only as a word of a thread or of
  a team (02 R28), so the spec gives a word without one no effect. Safe: no step of the part issues one (`step` sets `cur`). -/
  | noIssuer
deriving DecidableEq, Repr

/-- Reasons a step is refused. -/
inductive Refusal where
  /-- Raised by an arm of `exec` whose row has no meaning yet. Safe: nothing can be proved of such a step. -/
  | notModelled (mnemonic : String)
deriving DecidableEq, Repr

/-- Where a reservation is held (13 R292). -/
inductive ResvPlace where
  | l1 (p : Nat)                     -- the owning L1, by pipeline (32 × cluster + pipe)
  | l2 (die : Nat)
  | home
deriving DecidableEq, Repr

/-- A reservation of LDLK (13 R292): the words held, where, when it was made, the number of the access that made it. -/
structure Resv where
  pf    : PAddr                      -- frame
  mask  : Mask
  place : ResvPlace
  atC   : Nat
  id    : Nat
deriving DecidableEq, Repr

/-- The registers of one thread or lane (07 R131). -/
structure Lane where
  x    : Vector Word 64
  p    : BitVec 16
  resv : Option Resv
deriving DecidableEq, Repr

def Lane.zero : Lane := ⟨Vector.replicate 64 0, 1, none⟩

/-- An entry of the divergence stack (05 R98, R99); `two`: phase 2. -/
structure DivEntry where
  s   : LaneSet
  m   : LaneSet
  pc  : Word
  two : Bool
  hd  : Word                         -- in phase 2, the header of the clause that holds the JOIN at pc
deriving DecidableEq, Repr

/-- States of a unit, as the save-area header codes them (18 Table 18-3). -/
inductive UStatus where
  | running | halted | parked | heldOut | saved
deriving DecidableEq, Repr

/-- Register files as WINRD numbers them (18 R412), for the parity of 07 R132. -/
inductive RFile where
  | x | p | v | sr
deriving DecidableEq, Repr

/-- A register whose parity check fails (07 R132). -/
structure BadReg where
  file : RFile
  lane : Nat
  idx  : Nat                         -- of a vector register: 8 times its number, and the doubleword
deriving DecidableEq, Repr

/-- Why a unit does not issue its next word (06 R112). -/
inductive WaitKind where
  | counters                               -- HALT, CINCH, ERET: until every scoreboard counter is zero
  | fe                                     -- a full/empty word (10 R204)
  | queue                                  -- a queue word (11 R216)
  | barrier                                -- BARWAIT (17 R367)
  | group (phase : Bool)                   -- a group word: the phase of its arrival (17 R372)
  | inbox                                  -- WAITM (18 R411)
  | engine                                 -- a matrix word that finds the engine queue full (12 R249)
  | rendezvous                             -- CINCH arrived (05 R88)
  | logFull                                -- a fault that awaits an operand-log entry (18 R397)
  | sync                                   -- TLBSYNC (16 R357)
  | release                                -- a release of the word is not performed yet (14 R302)
  | other
deriving DecidableEq, Repr

/-- A fault of one lane (18 R458), or of a thread as lane 0: the faulting word (index 0: the header), and what 18 R393 records. -/
structure LaneFault where
  cause  : Nat
  lane   : Nat
  pc     : Word
  widx   : Nat
  detail : Word
  ops    : List Word
  dw24   : Word
  dw25   : Word
deriving DecidableEq, Repr

/-- The wait of a blocked unit: the word at `pc`, `widx` issues again when its condition may hold. `fails` counts its failed tests,
the first included; `last` is the cycle of the latest; `faults`: of lanes in which it has already failed. -/
structure Wait where
  kind  : WaitKind
  id    : Nat
  fails : Nat
  since : Nat
  last  : Nat
  faults : List LaneFault
  poked : Bool                       -- what it waits for has changed since its latest test
deriving DecidableEq, Repr

/-- The resume record of a saved unit or the pre-emption in progress (18 R400, R403). -/
structure Preempt where
  mode  : PreemptMode
  by_   : List Nat                   -- the words to answer; 0: an ABORT
  id    : Nat
  noDrain : Bool
  saving : Bool                      -- SAVE is chosen: its words complete, or stay logged
deriving DecidableEq, Repr

/-- A message in an inbox (18 R390). -/
structure Msg where
  dw0 : Word
  dw1 : Word
  dw2 : Word
  dw3 : Word
deriving DecidableEq, Repr

/-- The launch instance to which a thread or lane belongs (23 R449): the queue, the record, the instance. -/
structure Inst where
  q    : Nat
  seq  : Nat
  inst : Nat
deriving DecidableEq, Repr

/-- A queue register of a team (11 R213, R219). -/
structure QReg where
  bound : Option Nat                 -- the port
  ents  : List (Word × Nat)          -- with each: of a command's words, the number at its push; of a completion word, its scope's rank
  resvd : Nat                        -- reservations of result entries
  infl  : Nat                        -- commands in flight
  err   : Bool
  last  : Nat                        -- laststat
  bar   : Option Word                -- the bound barrier
deriving DecidableEq, Repr

def QReg.reset : QReg := ⟨none, [], 0, 0, false, 0, none⟩

/-- A thread or a team (05 R83, R93; 18 R377). A thread has one lane with K = 64. -/
structure HwUnit where
  id       : UKey
  cluster  : Nat
  pipe     : Nat                     -- of a team, the base pipeline of its harness
  slot     : Nat
  team     : Bool
  n        : Nat
  k        : Nat
  w        : Nat
  rowBase  : Nat
  lanes    : List Lane
  v        : Vector VReg 32
  active   : LaneSet
  exited   : LaneSet
  done     : LaneSet                 -- lanes in which the waiting word has taken effect (10 R205)
  stack    : List DivEntry           -- top first
  sb       : Vector (BitVec 6) 6     -- counters of slots 1 to 6
  sbSeen   : Vector (BitVec 6) 6     -- the counters as the arbiters of this cycle see them (06 R111)
  seenIdle : Bool                    -- not ready at the end of the previous cycle (06 R111)
  pc       : Word                    -- header of the clause
  widx     : Nat                     -- the next word, 1 to 16
  begun    : Bool                    -- a word of the fetched clause has issued
  clause   : Option Clause
  status   : UStatus
  act      : Nat                     -- resume action recorded while saved (18 R400)
  wait     : Option Wait
  only     : Option LaneSet          -- a retried word issues in these lanes only (18 R400)
  after    : Option (Word × Nat)     -- where execution continues after the retried word
  exiting  : Bool
  killed   : Bool                    -- the exit in progress is a kill
  split    : Option (List LaneFault)  -- a split is due; the faults of a trap-split (05 R102, R105)
  preempt  : Option Preempt
  awake    : Nat                     -- YIELD: the thread is not ready before this cycle (06 R127)
  yielded  : Bool
  yieldDue : Bool                    -- a YIELD of the present clause has taken effect (06 R114)
  turned   : Bool                    -- its clause has retired in this cycle; what follows is fetched ahead (06 R110, R111)
  run      : Nat
  order    : Nat                     -- creation order
  issued1  : Bool                    -- a clause has been issued (06 R118)
  fpstat   : Word
  hwFlags  : BitVec 5                -- flags that the hardware set in this cycle (08 R152)
  seed     : BitVec 32
  splitpol : Word
  gang     : Word
  asid     : Nat
  retired  : Word
  super    : Bool
  kclass   : BitVec 2
  ctx      : Nat
  inst     : List (Option Inst)      -- per lane
  wexit    : Nat
  area     : Nat                     -- DPA of the save area; 0: none
  areaIdx  : Nat
  inbox    : List Msg
  pending  : Bool                    -- the sticky pending bit (18 R394)
  msgs     : Nat                     -- messages and events sent (18 R457)
  faultW   : Option (Word × Nat × LaneSet)   -- the faulting word: clause, index, lanes F (18 R400)
  frec     : List Word               -- the fault record
  idem     : Option Word             -- the idempotent-region entry (18 R401)
  taint    : Bool
  prog     : BitVec 32
  prog0    : BitVec 32
  resid    : Word                    -- E
  sparse   : Nat
  groups   : List (Option Nat)       -- group-table entries by index 0 to 3
  q        : Vector QReg 16
  awaiting : List Nat                -- faulted accesses that await an entry
  released : Bool                    -- the release of the word it stands at has been performed
  fetching : Bool                    -- accesses of its fetch are outstanding
  fbuf     : List (Nat × W32)        -- words fetched for the clause, by VA / 4
  logged   : List (Nat × Nat)        -- operand-log entries: outstanding word, pass
  parkDue  : Bool                    -- it is to park at its next clause boundary (15 R331)
  drained  : Nat                     -- DRAIN: the cycle at which the choice is made again; 0: none
  arr      : Option (Nat × Bool)     -- its arrival at a group-table entry, with the phase, until it takes the result (17 R372)
  clashed  : Bool                    -- the phase of that arrival has ended in a disagreement that it is to be told of (17 R372)
  stuck    : Nat                     -- the cycle since which it is blocked on a logged word (18 R398); 0: it is not
  bad      : List BadReg
deriving DecidableEq, Repr

/-- A harness (05 R87). -/
structure Harness where
  cluster : Nat
  base    : Nat
  width   : Nat
  cur     : Option UKey              -- the team that issued the last clause
  curSlot : Nat                      -- the slot it held, 7 at first (21 R445)
  holder  : Option UKey              -- the team that holds the issue slot
  pair    : Option UKey              -- the team paired with it
  lastPair : Option (UKey × UKey)
  freeAt  : Nat                      -- the cycle in which the next word may issue
  heldFor : Option (Nat × Nat)       -- the launch queue and record that hold it (18 R384)
  created : Nat                      -- teams created in it
  engine  : List Nat                 -- engine queue, oldest first: ids of matrix words (12 R248)
  engCur  : Option (Nat × Nat)       -- the word that the engine works on, and the cycles it still needs
deriving DecidableEq, Repr

/-- An allocation of the scratchpad (10 R193). -/
structure Alloc where
  base   : Nat
  units  : Nat
  live   : Bool                      -- LIVE, else DRAINING
  owner  : UKey
  asid   : Nat
deriving DecidableEq, Repr

/-- A rendezvous entry (05 R88). -/
structure Rdv where
  id     : Nat
  hid    : Nat
  w      : Nat
  n      : Nat
  k      : Nat
  base   : Nat
  tgt    : Word
  asid   : Nat
  super  : Bool
  start  : Nat
  limit  : Nat
  parked : List UKey
deriving DecidableEq, Repr


/-- A write that a word makes to a register when it completes (02 R24). -/
inductive RegWrite where
  | ve (r : Vr) (off n v : Nat)      -- n bytes of a vector register
  | x (lane : Nat) (r : Xr) (v : Word)
  | p (lane : Nat) (r : Pr) (b : Bool)
  | v (r : Vr) (v : VReg)
deriving DecidableEq, Repr

/-! ### Caches, directory, accesses (13 to 16) -/

/-- States of a word in an L2 slice (13 Table 13-3); `l p`: owned by the L1 of pipeline p (32 × cluster + pipe). -/
inductive WordState where
  | i | c | d | l (p : Nat)
deriving DecidableEq, Repr

/-- A line of an L1 (13 R267, Table 13-1). -/
structure L1Line where
  p      : Nat                       -- 32 × cluster + pipe
  asid   : Nat                       -- 0: global
  vf     : Nat                       -- VA[56:7]
  pf     : PAddr
  valid  : Mask
  dirty  : Mask
  owned  : Mask
  poison : Mask
  words  : Vector W32 32
  perm   : BitVec 8                  -- low byte of the leaf at fill
  cls    : Option RClass             -- granule class at fill
  used   : Nat
deriving DecidableEq, Repr

/-- A line of an L2 slice (13 R269). -/
structure L2Line where
  die    : Nat
  asid   : Nat
  vf     : Nat
  pf     : PAddr
  st     : Vector WordState 32
  words  : Vector W32 32
  poison : Mask
  perm   : BitVec 8
  cls    : Option RClass
  used   : Nat
deriving DecidableEq, Repr

/-- States of a directory entry (13 Table 13-6). -/
inductive DirState where
  | s | e | m | o
deriving DecidableEq, Repr

/-- A sharer's record (13 Table 13-6). -/
structure Sharer where
  mask : Mask
  fmt  : AssayFmt
  mode : Bool                        -- update
  sub  : Bool
deriving DecidableEq, Repr

def Sharer.none : Sharer := ⟨0, .exact, false, false⟩

/-- An entry of the span directory (13 R275). -/
structure DirEnt where
  pf      : PAddr
  home    : Nat
  st      : DirState
  owner   : Nat
  own     : Mask                     -- of the words of the owner's mask, those that it owns (13 R276)
  busy    : Bool
  held    : Bool
  lru     : Nat
  sharers : Vector Sharer 6
deriving DecidableEq, Repr

/-- What follows the last acknowledgement of a directory transaction. -/
inductive TxnFin where
  | again (e : Ev)                   -- the request is served anew
  | perform (acc : Nat)              -- the store is performed at .dv and .sy
  | grant (e : Ev)                   -- the data of an RDO goes out
  | serial (acc : Nat) (all : Bool)  -- the home has serialised a store; all: it owed no sharer a message
  | freed (die : Nat)                -- a write-back buffer entry is freed
  | victim                           -- the entry is freed
  | frame (port route n : Nat)       -- an inbound frame is performed (19 R422)
  | written (tag : Nat)              -- a write of the host through CXL.mem is performed (14 R314)
  | far (dst frame : Nat) (payload : List Word)  -- another device is told (19 R429, R430)
  | nothing
deriving DecidableEq, Repr

/-- A directory transaction in progress. -/
structure Txn where
  id   : Nat
  pf   : PAddr
  need : Nat
  fin  : TxnFin
deriving DecidableEq, Repr

/-- An entry of the write-back buffer of an L2 slice (13 R280). -/
structure WbEnt where
  die    : Nat
  slice  : Nat
  pf     : PAddr
  m      : Mask                      -- the words that are not yet applied at the home
  words  : Vector W32 32
  poison : Mask
deriving DecidableEq, Repr

/-- Atomic operations (13 R289). -/
inductive AmoOp where
  | add | and | or | xor | min | max | minu | maxu | swap | cas
deriving DecidableEq, Repr

/-- Steps on a barrier object (17 R366, 11 R232). -/
inductive BarOp where
  | init | arr | exp | wait | test | dec
deriving DecidableEq, Repr

/-- What an access does. -/
inductive AccKind where
  | load | store | fetch
  | amo (op : AmoOp) | lock | cond
  | bar (op : BarOp)
  | subscr (fmt : AssayFmt) (mode : Bool) | upgr (fmt : AssayFmt) | unsub
  | invspan | wbspan | pref
  | through                          -- dirty words of an L1 line on their way to the L2
  | fence                            -- no access: a release, an acquire or both
  | spad                             -- a scratchpad step that waits for its release (10 R447)
deriving DecidableEq, Repr

/-- A word, or bytes of it, that an access writes. -/
structure Put where
  w   : Nat                          -- index in the frame
  v   : W32
  be  : BitVec 4
  bad : Bool                         -- poisoned
deriving DecidableEq, Repr

/-- A translation: where a page's frame lies, and what the leaf and the granule say (16 R348). -/
structure Xl where
  pf   : PAddr
  perm : BitVec 8
  nc   : Bool                        -- PBMT 1 or 2: every access acts as .uc
  cls  : Option RClass
  glob : Bool
deriving DecidableEq, Repr

/-- For whom an access is made. -/
inductive Owner where
  | out (id : Nat)                   -- a word that has issued
  | late (id : Nat)                  -- a word that takes effect once its release is performed
  | unit (u : UKey)                  -- a blocked unit that waits for it
  | fetch (u : UKey)
  | cmd (cluster id piece : Nat)
  | none
deriving DecidableEq, Repr

inductive AccStage where
  | held                             -- not yet attempted, or to be attempted again
  | walk                             -- at a translation unit
  | denied                           -- a line that it hits has refused it; its unit is to hold it (16 R343, R350)
  | replay                           -- in its replay queue
  | sent                             -- at the directory or the home
  | bound                            -- its value is bound, its effect made
deriving DecidableEq, Repr

/-- An access to memory, or an ordering point of one agent, that is not yet performed at every scope (13 R271, 14 R302). -/
structure Acc where
  id     : Nat
  kind   : AccKind
  rt     : ReqType
  sc     : Scope
  owner  : Owner
  unit   : Option UKey
  lane   : Nat
  p      : Nat                       -- L1 of the issuer: 32 × cluster + (base) pipe
  w      : Nat                       -- width of its banked L1; 1: its own L1 alone
  asid   : Nat
  super  : Bool
  kclass : BitVec 2
  ctx    : Nat
  va     : Nat
  n      : Nat                       -- bytes of the datum
  mask   : Mask                      -- words of the request span
  puts   : List Put
  arg    : Nat                       -- operand of an atomic or of a barrier step
  cmp    : Nat
  dst    : Option RegWrite           -- the register that takes the result (its value is not looked at)
  sx     : Bool                      -- the result is sign-extended
  rel    : Option Scope
  acq    : Option Scope
  waits  : Option (List Nat)         -- accesses that the release waits for; none: not looked at yet
  stage  : AccStage
  xl     : Option Xl
  got    : Option (List W32 × Mask)  -- words that came with a DAT and are not cached
  perf   : Nat                       -- performed at every scope of a rank below this
  need   : Nat                       -- its word completes when perf reaches this
  told   : Bool                      -- its word has counted it
  naks   : Nat
  fault  : Nat                       -- the cause with which it ended; 0: none
  shot   : Bool                      -- a shootdown has removed its translation since
  ord    : Nat                       -- its place in program order: that of its word,
  seq    : Nat                       -- and within its word
  missed : Bool                      -- it has missed in its die's slice (13 R273)
  heirs  : List UKey                 -- agents in whose program order it stands besides its issuer (14 R301)
deriving DecidableEq, Repr

/-- A cached leaf (16 R349). -/
structure TlbEnt where
  die  : Nat
  unit : Nat
  asid : Nat
  base : Nat                         -- VA of the page
  size : Nat
  pa   : Nat
  pte  : Word
  level : Nat
  at_  : PAddr                       -- where the entry lies
  wins : List (Nat × Nat × PAddr)    -- classification of its addresses when it was walked: first, last, where the first lies (19 R425)
deriving DecidableEq, Repr

/-- A replay-queue entry (16 R350). -/
structure Replay where
  tag  : Nat
  die  : Nat
  unit : Nat
  acc  : Nat
  cause : Nat
  mig  : Bool
deriving DecidableEq, Repr

/-- A shootdown (16 R354). -/
structure Shoot where
  ticket  : Nat
  kind    : Nat
  asid    : Nat
  base    : Nat
  pages   : Nat
  applied : Bool
  host    : Option (Nat × Bool × Nat)  -- the mailbox request: seq, irq, vec
  waits   : List Nat                 -- accesses under way when it was applied
  backs   : List (Nat × PAddr)       -- frames whose write-back buffer entries are to be freed: die, frame
deriving DecidableEq, Repr

/-- A stope (13 R272). -/
structure Stope where
  die    : Nat
  asid   : Nat
  ctx    : Nat
  base   : Nat
  frames : Nat
  fade   : Nat
  hit    : Bool
deriving DecidableEq, Repr

/-- A waiter at a barrier object (17 R367). -/
structure BarWait where
  unit : UKey
  id   : Nat
  lane : Nat
  pf   : PAddr
  off  : Nat
  woken : Bool                       -- the object has completed a phase since
  test : Acc                         -- the access by which it tests again
deriving DecidableEq, Repr

/-! ### Clusters: groups, tiles, channels, governor (10 to 12, 17) -/

/-- A waiter at a scratchpad word (10 R204): a blocked unit, or an outstanding word (R447). -/
structure FeWait where
  unit : UKey
  id   : Nat                         -- the wait of the unit, or the outstanding word
  out  : Bool
  lane : Nat
  addr : Nat
  n    : Nat
  fails : Nat                        -- of an outstanding word: its failed tests, the first included
  last : Nat                         -- and the cycle of the latest
  poked : Bool                       -- the bit of its word has changed since its latest test
  ripe : Bool                        -- its condition held at the latest test: only its release is awaited (22 R447)
deriving DecidableEq, Repr

/-- A tile slot that is not FREE (12 R239). -/
structure Tile where
  slot  : Nat
  owner : UKey
  asid  : Nat
  data  : List Host.Cell
  scale : List Host.Cell
  tag   : Nat
  tagOk : Bool
  busy  : Bool
  inUse : Nat
  bad   : List Nat                   -- its 64-bit units with an uncorrectable error; from 2,048 on, those of its scale area
deriving DecidableEq, Repr

/-- A group-table entry (17 R369). -/
structure Group where
  idx     : Nat
  asid    : Nat
  members : List Nat
  due     : Nat                      -- members that are not placed yet
  arrived : List Nat
  phase   : Bool
  op      : Nat
  contrib : List (Nat × List Word)   -- what acc holds: contributions by unit bit
  result  : Word
deriving DecidableEq, Repr

/-- A command that a channel has accepted (11 R222). -/
structure Cmd where
  id     : Nat
  ch     : Nat
  team   : UKey
  q      : Nat
  words  : List Word
  asid   : Nat
  super  : Bool
  kclass : BitVec 2
  ctx    : Nat
  resv   : Bool
  areas  : List (Nat × Nat × Nat)    -- allocations that it may use, as they stood LIVE at its acceptance: cluster, base, units
  fmts   : List Word                 -- format registers of its source's and its destination's cluster as the channel began it (R200)
  src    : List (Nat × Byte × Bool)  -- bytes read so far: place, value, poisoned
  scls   : List RClass               -- classes of the memory read
  pois   : List Nat                  -- poisoned source blocks
  status : Nat
  landed : Nat
  stage  : Nat
deriving DecidableEq, Repr

/-- A channel: the queue it served last. -/
structure Chan where
  last : Option (Nat × Nat × Nat)
  cmds : List Cmd
deriving DecidableEq, Repr

/-- A gang latch (12 R257). -/
structure Latch where
  die   : Nat
  id    : Nat
  list_ : Nat
  n     : Nat
  key   : Nat                        -- fa, fb, ha, hb, sub, sat of the first arrival
  limit : Nat
  since : Nat
  arrived : List (UKey × Nat)        -- team, and the wait in which it stands
  uses  : List (UKey × List Nat)     -- the slots that each arrival holds in use
deriving DecidableEq, Repr

/-- The sr.issuepol family of registers of a cluster at reset (06, 05, 10, 12, 18), and what the cluster's units share. -/
structure Cluster where
  spad     : List Host.Cell          -- scratchpad bytes that are not 0
  full     : List Nat                -- numbers of the words that are full, rising
  allocs   : List Alloc
  bf       : Vector Word 16
  rdv      : List Rdv
  issuepol : Word
  cinchlim : Word
  waitlim  : Word
  mbudget  : Word
  mstall   : Word
  ganglim  : Word
  drainlim : Word
  faultdst : Word
  spadBad  : List Nat                -- scratchpad words with an uncorrectable error
  feWaits  : List FeWait
  tiles    : List Tile
  groups   : List Group
  chans    : List Chan
  govUsed  : Nat                     -- slice-cycles granted in this window (12 R260)
  govLimit : Nat                     -- the effective limit of this window
  govDenied : Bool
  grpWaits : List (UKey × Nat × Nat)  -- unit, its wait, group index
deriving DecidableEq, Repr

def Cluster.reset : Cluster where
  spad := []
  full := []
  allocs := []
  bf := Vector.replicate 16 0x14
  rdv := []
  issuepol := 0x2
  cinchlim := 0x100000
  waitlim := 0x1000010000
  mbudget := 0x200000002000
  mstall := 0
  ganglim := 0x10000
  drainlim := 0x2000
  faultdst := 0
  spadBad := []
  feWaits := []
  tiles := []
  groups := []
  chans := List.replicate 4 ⟨none, []⟩
  govUsed := 0
  govLimit := 0x2000
  govDenied := false
  grpWaits := []

/-- A word that has issued and has not completed (02 R24). -/
structure OutWord where
  id     : Nat
  unit   : UKey
  instr  : Instr
  pc     : Word
  widx   : Nat
  slot   : BitVec 3
  lanes  : LaneSet
  writes : List RegWrite
  flags  : BitVec 5                  -- floating-point events to record at completion (08 R151)
  faults : List LaneFault            -- faults to raise at completion (08 R154)
  due    : Bool                      -- its completion is scheduled
  born   : Nat                       -- the cycle in which its last pass issued
  slow   : Bool                      -- some access of it was not an L1 hit (R444)
  post   : List LaneFault            -- faults after its effect (15 R331)
  val    : Word                      -- an operand kept for the step that takes effect later
  val2   : Word
  srcs   : List (Nat × List Word)    -- operands by lane, for a fault record
  uses   : List (Nat × Nat)          -- cluster and slot of each in-use count that it has raised (12 R244)
  gang   : Option (Nat × Bool)       -- of a ganged word: the release of its latch, and whether it is its leader's (12 R257)
  opA    : Option Tile               -- the leader's A as it was read and broadcast
deriving DecidableEq, Repr

/-! ### The hub (16, 18, 19, 20) -/

/-- States of a launch queue (18 Table 18-4). -/
inductive QState where
  | stop | run | drain | abort
deriving DecidableEq, Repr

/-- A launch queue as the hub holds it (18 R380). -/
structure LQueue where
  base    : Nat
  size    : Nat
  asid    : Nat
  prio    : Nat
  prod    : Nat
  lastacc : Nat
  lastcmp : Nat
  st      : QState
  next    : Nat
  ann     : List (Nat × Bool)        -- announcements not yet passed: prod, with supervisor privilege
  done    : List Nat                 -- records completed beyond lastcmp
deriving DecidableEq, Repr

def LQueue.reset : LQueue := ⟨0, 4, 0, 0, 0, 0xFFFFFFFF, 0xFFFFFFFF, .stop, 0, [], []⟩

/-- A launch record that has been accepted and has not completed (18 R381, R384). -/
structure Rec where
  q        : Nat
  seq      : Nat
  dws      : List Word
  asid     : Nat
  since    : Nat
  placed   : List Nat                -- instances placed and neither exited nor killed
  next     : Nat                     -- how many instances have been placed
  retired  : List (Nat × Bool)       -- instances that have exited (false) or were killed (true)
  released : List Nat                -- tiles whose flag has been met
  groups   : List (Nat × Nat × Nat)  -- group number, cluster, table index
  any      : Bool                    -- an instance was placed
  abort    : Nat                     -- 0, or the status of an aborted record
  current  : Bool
  flagFrames : List PAddr            -- frames of unmet flags, as last read
  units    : List UKey               -- every unit that belonged to it, for the release of its completion
deriving DecidableEq, Repr

/-- What happened to a completed record, for its consumers (18 R387). -/
structure Ended where
  q   : Nat
  seq : Nat
  st  : Nat
deriving DecidableEq, Repr

/-- A frame of an inbound write (19 R422, R453). -/
structure InFrame where
  port  : Nat
  route : Nat
  n     : Nat                        -- its number on its port and route
  dpa   : Nat
  bytes : List (Option Byte)
  bad   : Mask                       -- words of its frame poisoned in a hub buffer (15 R336)
  ro    : Bool
  need  : List (Nat × Nat)           -- route, frames of it that are to be acknowledged first
  sent  : Bool
  done  : Bool                       -- performed at .sy
  entry : Option (Nat × Bool)        -- the window entry that admitted it, and whether that has changed since
  seen  : Nat                        -- arrival order at its home die
deriving DecidableEq, Repr

/-- A completion that a port returns (19 R421, R424). -/
inductive Reply where
  | data (l : List Byte)
  | poisoned                         -- data marked poisoned
  | written                          -- the completion of a CXL write
  | unsupported                      -- Unsupported Request
deriving DecidableEq, Repr

/-- A Bormuesk link (19 R432, R433). -/
structure Link where
  up     : Bool
  lanes  : Nat
  spares : Nat
  rx     : Nat                       -- the next sequence number it accepts
  tx     : Nat                       -- the next it sends
  unacked : List (Nat × List Word)   -- the replay buffer
  fails  : List (Nat × Nat × Nat)    -- lane, failures, the flit at which their count began
  repair : Option Nat                -- a lane that is to be remapped
  slots  : List (Nat × Nat)          -- receive slots reserved at its far end: message class, and the cycle in which each is free again
  waiting : List (Nat × List Word)   -- flits that wait for a slot or for a repair, with their classes, oldest first
deriving DecidableEq, Repr

def Link.reset : Link := ⟨true, 16, 2, 0, 0, [], [], none, [], []⟩

/-- The hub's registers and what it keeps (16 R359, 18 R380, R396, 19 R419, 20 R441). -/
structure Hub where
  asidtab : Word
  ctxtab  : Word
  lqbase  : Word
  eqBase  : Word
  eqCtl   : Word
  eqProd  : Nat
  eqCons  : Nat
  imbAddr : Word
  imbArg  : Word
  imbAck  : Word
  imbOvf  : Bool
  imbBusy : Nat                      -- requests not yet acknowledged
  windows : Vector Word 256          -- entry i: doublewords 4i to 4i + 3
  routes  : Vector Word 64
  queues  : Vector LQueue 64
  recs    : List Rec
  ended   : List Ended
  returns : List (Nat × UKey)        -- units that CTXLOAD or WAKE bring back, and since when
  lastCl  : Nat                      -- the cluster of the previous placement
  gens    : List (Nat × Nat)         -- generation last recorded for a context
  seqs    : List (Nat × Nat)         -- message counts of sources other than units
  ticket  : Nat
  shoots  : List Shoot
  frames  : List InFrame
  sentOn  : List (Nat × Nat × Nat)   -- port, route, frames numbered so far
  reads   : List (Nat × Nat × List (Nat × Nat × Nat))  -- reads of a window entry that wait for frames: tag, doubleword, frames
  links   : Vector Link 8
  stage   : Nat
  ready   : Bool
  failed  : Bool
  busy    : Bool
  err     : Bool
  trip    : Bool
  rollback : Nat
  cmdAddr : Nat
  cmd     : Nat                      -- the management command that runs
  clear   : Nat                      -- power samples since the last cause to lower a ceiling
  hbmLs   : Nat                      -- Ls, in bytes (15 R318)
  outer   : List (PAddr × Nat)       -- devices and switches that are the Bormuesk sharer of a frame (19 R429, R430)
  snoops  : List (Nat × PAddr × Nat) -- messages to them that await their answers: transaction, frame, device
deriving DecidableEq, Repr

def Hub.reset : Hub where
  asidtab := 0
  ctxtab := 0
  lqbase := 0
  eqBase := 0
  eqCtl := 6
  eqProd := 0
  eqCons := 0
  imbAddr := 0
  imbArg := 0
  imbAck := 0
  imbOvf := false
  imbBusy := 0
  windows := Vector.replicate 256 0
  routes := Vector.replicate 64 0
  queues := Vector.replicate 64 LQueue.reset
  recs := []
  ended := []
  returns := []
  lastCl := 159
  gens := []
  seqs := []
  ticket := 0
  shoots := []
  frames := []
  sentOn := []
  reads := []
  links := Vector.replicate 8 Link.reset
  stage := 0
  ready := false
  failed := false
  busy := false
  err := false
  trip := false
  rollback := 0
  cmdAddr := 0
  cmd := 0
  clear := 0
  hbmLs := 0
  outer := []
  snoops := []

/-- The state of the part. -/
structure State where
  now      : Nat
  phase    : Nat
  agenda   : List Ev
  future   : List (Nat × Ev)
  inputs   : List (Nat × Ev)
  grants   : List (UKey × Option Ev)  -- what issuers do next: a word, or a retry at a bank
  cur      : Option UKey
  arg      : Option Ev
  fresh    : Nat
  ids      : Nat
  units    : List HwUnit
  harnesses : List Harness
  clusters : List Cluster
  incs     : List (UKey × Nat)       -- incarnation counts of places (18 R377), places as ids of incarnation 0
  lastSlot : List (Nat × Nat × Nat)  -- cluster, pipeline, the slot that issued last (06 R119); unlisted: 7
  outw     : List OutWord
  mem      : List Host.Cell          -- device memory by DPA: bytes that are not 0
  fadeint  : Vector Word 4           -- sr.fadeint of each die
  pagerdst : Vector Word 4           -- sr.pagerdst of each die
  staledrop : Word
  errb     : List (Nat × Word)       -- sr.errbudget of a context; unlisted: its reset value
  badSr    : List (Nat × Nat)        -- special registers of scope C, D, V and X that fail their parity check: index, and which copy (07 R132)
  devnum   : Nat
  lates    : List Nat                -- outstanding words whose release is performed and which take effect next
  late     : Option Nat              -- the outstanding word that the present step brings to effect
  ext      : List (Space × List Host.Cell)  -- memory of the host and of peers, as this part knows it
  poison   : List Nat                -- poisoned 64-byte blocks of device memory
  errs     : List (Nat × Bool)       -- blocks that fail their code when read next; true: FULL can rebuild them
  classes  : List (Nat × RClass)     -- the class table; unlisted granules: NONE
  gbusy    : List (Nat × Nat)        -- granules in re-classing: G and S
  l1       : List L1Line
  l2       : List L2Line
  dir      : List DirEnt
  dirBits  : List PAddr              -- frames whose directory bit is set without an entry (13 R282)
  slicesDown : List Nat
  txns     : List Txn
  dirWait  : List (PAddr × Ev)       -- requests that wait for a busy entry
  wbufs    : List WbEnt
  wires    : List (Nat × Nat)        -- per hub channel, the cycle of its last message
  naks     : List (Nat × Nat × Ev)   -- requests to retry: number, NAKs received, request
  nakCount : List (Ev × Nat)
  accs     : List Acc
  tlb      : List TlbEnt
  replays  : List Replay
  stopes   : List Stope
  barWaits : List BarWait
  latches  : List Latch
  hub      : Hub
  msix     : List Nat                -- MSI-X vectors sent on port A, newest first
  replies  : List (Nat × Reply)      -- completions returned at a port, with their tags
  epoch    : Nat                     -- the core cycle of the last reset, from which sr.cycle counts (07 R135)
deriving DecidableEq, Repr

/-- The machine right after reset. (DESIGN CHOICE, log 1, 3, 7, 8.) -/
def State.reset : State where
  now := 0
  phase := 0
  agenda := [.moduleReset]
  future := []
  inputs := []
  grants := []
  cur := none
  arg := none
  fresh := 0
  ids := 1
  units := []
  harnesses := []
  clusters := List.replicate 160 Cluster.reset
  incs := []
  lastSlot := []
  outw := []
  mem := []
  fadeint := Vector.replicate 4 0x1000
  pagerdst := Vector.replicate 4 0
  staledrop := 0
  errb := []
  badSr := []
  devnum := 0
  lates := []
  late := none
  ext := []
  poison := []
  errs := []
  classes := []
  gbusy := []
  l1 := []
  l2 := []
  dir := []
  dirBits := []
  slicesDown := []
  txns := []
  dirWait := []
  wbufs := []
  wires := []
  naks := []
  nakCount := []
  accs := []
  tlb := []
  replays := []
  stopes := []
  barWaits := []
  latches := []
  hub := Hub.reset
  msix := []
  replies := []
  epoch := 0

end Sys2Proof.Machine
end

