-- ==== Sys2Proof/Machine/Ops.lean ====
section
/-! DEFINITION. Ops.lean: the named operations over memory, registers, units and messages; taking an exception, and the ways
back from one. -/

namespace Sys2Proof

/-- The doubleword form of a unit id (18 R377); the device number is that of this device. -/
def UKey.word (k : UKey) (devnum : Nat) : Word :=
  BitVec.ofNat 64 (devnum % 2 ^ 18 * 2 ^ 46 + k.cluster % 256 * 2 ^ 38 + k.pipe % 32 * 2 ^ 33 + k.slot % 8 * 2 ^ 30 +
    (if k.team then 2 ^ 29 else 0) + k.inc % 2 ^ 16)

/-- The unit id that a doubleword names, where it names this device (18 R377). -/
def UKey.ofWord (w : Word) (devnum : Nat) : Option UKey :=
  if (w.extractLsb' 46 18).toNat == devnum % 2 ^ 18 && (w.extractLsb' 16 13) == 0 then
    some { cluster := (w.extractLsb' 38 8).toNat, pipe := (w.extractLsb' 33 5).toNat, slot := (w.extractLsb' 30 3).toNat,
           team := w.getLsbD 29, inc := (w.extractLsb' 0 16).toNat }
  else none

namespace Machine

/-! ### Bytes -/

/-- The byte at an address; an unlisted address reads 0 (log 1). (DESIGN CHOICE, log 1.) -/
def memGet : List Host.Cell → Nat → Byte
  | [], _ => 0
  | (b, v) :: r, a => if b = a then v else memGet r a

/-- The memory without an entry for an address. -/
def memErase : List Host.Cell → Nat → List Host.Cell
  | [], _ => []
  | (b, w) :: r, a => if b = a then memErase r a else (b, w) :: memErase r a

/-- The memory with a byte that is not 0 entered in its place. -/
def memInsert : List Host.Cell → Nat → Byte → List Host.Cell
  | [], a, v => [(a, v)]
  | (b, w) :: r, a, v => if a < b then (a, v) :: (b, w) :: r else if a = b then (a, v) :: r else (b, w) :: memInsert r a v

/-- A write of one byte, which keeps the list in its canonical form: a byte of 0 is not listed. (DESIGN CHOICE, log 1.) -/
def memSet (m : List Host.Cell) (a : Nat) (v : Byte) : List Host.Cell := if v = 0 then memErase m a else memInsert m a v

/-- Addresses strictly rising, from `lo` on, and no byte equal to 0. -/
def memWfFrom : Nat → List Host.Cell → Bool
  | _, [] => true
  | lo, (a, v) :: r => decide (lo ≤ a) && decide (v ≠ 0) && memWfFrom (a + 1) r

/-- The canonical form of a memory. -/
def Memory.wf (m : List Host.Cell) : Bool := memWfFrom 0 m

/-- `n` bytes from an address, little-endian (00 R2). -/
def memRead (m : List Host.Cell) : Nat → Nat → Nat
  | _, 0 => 0
  | a, n + 1 => (memGet m a).toNat + 256 * memRead m (a + 1) n

/-- Writes the low `n` bytes of a number, little-endian. -/
def memWrite : List Host.Cell → Nat → Nat → Nat → List Host.Cell
  | m, _, 0, _ => m
  | m, a, n + 1, v => memWrite (memSet m a (BitVec.ofNat 8 v)) (a + 1) n (v / 256)

/-- Writes those bytes of a list that a mask selects. -/
def memWriteBytes : List Host.Cell → Nat → List (Option Byte) → List Host.Cell
  | m, _, [] => m
  | m, a, none :: r => memWriteBytes m (a + 1) r
  | m, a, some b :: r => memWriteBytes (memSet m a b) (a + 1) r

def memReadBytes (m : List Host.Cell) (a : Nat) : Nat → List Byte
  | 0 => []
  | n + 1 => memGet m a :: memReadBytes m (a + 1) n

/-- A number of little-endian bytes. -/
def ofBytes : List Byte → Nat
  | [] => 0
  | b :: r => b.toNat + 256 * ofBytes r

def toBytes : Nat → Nat → List Byte
  | 0, _ => []
  | n + 1, v => BitVec.ofNat 8 v :: toBytes n (v / 256)

/-! ### Bits -/

/-- sext(v, n) of 03 R59. -/
def sext (v : Nat) (n : Nat) : Word :=
  let m := v % 2 ^ n
  if n = 0 then 0 else if 2 ^ (n - 1) ≤ m then BitVec.ofNat 64 (2 ^ 64 - 2 ^ n + m) else BitVec.ofNat 64 m

/-- zext(v, n) of 03 R59. -/
def zext (v : Nat) (n : Nat) : Word := BitVec.ofNat 64 (v % 2 ^ n)

/-- signed(v) at width n. -/
def sgn (v : Nat) (n : Nat) : Int :=
  let m := v % 2 ^ n
  if n = 0 then 0 else if 2 ^ (n - 1) ≤ m then (m : Int) - (2 ^ n : Nat) else m

/-- The low n bits of an exact integer (03 R58). -/
def slice (v : Int) (n : Nat) : Nat := (v % (2 ^ n : Nat)).toNat

/-- The set of those lanes below n for which a test holds. -/
def lanesWhere (n : Nat) (f : Nat → Bool) : LaneSet :=
  BitVec.ofNat 1024 ((List.range n).foldr (fun i acc => if f i then acc ||| 2 ^ i else acc) 0)

/-- Lanes of a set, rising. -/
def lanesOf (e : LaneSet) (n : Nat) : List Nat := (List.range n).filter (fun i => e.getLsbD i)

/-- The highest lane of a set below n (11 R215, 18 R406). -/
def topLane (e : LaneSet) (n : Nat) : Nat := ((List.range n).filter (fun i => e.getLsbD i)).getLastD 0

def lane1 (i : Nat) : LaneSet := BitVec.ofNat 1024 (2 ^ i)

/-! ### Registers of a lane -/

/-- X(j): x0 reads 0 (07 R131). -/
def Lane.X (l : Lane) (r : Xr) : Word := if r = 0 then 0 else l.x[r.toNat]'(r.isLt)

/-- A write to X(j); a write to x0 is ignored. -/
def Lane.setX (l : Lane) (r : Xr) (v : Word) : Lane := if r = 0 then l else { l with x := l.x.set r.toNat v r.isLt }

/-- P(j): p0 reads 1. -/
def Lane.P (l : Lane) (r : Pr) : Bool := r == 0 || l.p.getLsbD r.toNat

/-- A write to P(j); a write to p0 is ignored. -/
def Lane.setP (l : Lane) (r : Pr) (b : Bool) : Lane :=
  if r = 0 then l
  else { l with p := if b then l.p ||| BitVec.ofNat 16 (2 ^ r.toNat) else l.p &&& ~~~ (BitVec.ofNat 16 (2 ^ r.toNat)) }

/-- The guard of 02 R28. -/
def Lane.guard (l : Lane) (h : Hdr) : Bool := l.P h.g != h.gn

/-! ### Units -/

def HwUnit.env (u : HwUnit) : Env := ⟨u.team, u.super, u.k⟩

def HwUnit.lane (u : HwUnit) (i : Nat) : Lane := u.lanes.getD i Lane.zero

/-- The lanes, active and not masked, in which a word with these common fields executes (02 R28, 18 R400). -/
def HwUnit.exec (u : HwUnit) (h : Hdr) : LaneSet :=
  lanesWhere u.n (fun i => u.active.getLsbD i && (u.lane i).guard h && (u.only.getD u.active).getLsbD i)

/-- Changes the lanes of a set. -/
def HwUnit.mapLanes (u : HwUnit) (e : LaneSet) (f : Nat → Lane → Lane) : HwUnit :=
  { u with lanes := u.lanes.mapIdx (fun i l => if e.getLsbD i then f i l else l) }

def HwUnit.setVr (u : HwUnit) (r : Vr) (v : VReg) : HwUnit := { u with v := u.v.set r.toNat v r.isLt }
def HwUnit.V (u : HwUnit) (r : Vr) : VReg := u.v[r.toNat]'(r.isLt)

/-- A fault, a park, a block or a pre-emption clears the reservations of its unit (13 R293). -/
def HwUnit.dropResv (u : HwUnit) : HwUnit := { u with lanes := u.lanes.map (fun l => { l with resv := none }) }

/-- The counter of a slot, 1 to 6 (02 R24). -/
def HwUnit.counter (u : HwUnit) (slot : BitVec 3) : BitVec 6 := u.sb.toList.getD (slot.toNat - 1) 0

def HwUnit.incSb (u : HwUnit) (slot : BitVec 3) : HwUnit :=
  if slot = 0 then u
  else { u with sb := u.sb.setIfInBounds (slot.toNat - 1) (u.counter slot + 1)
                sbSeen := u.sbSeen.setIfInBounds (slot.toNat - 1) 1 }

def HwUnit.decSb (u : HwUnit) (slot : BitVec 3) : HwUnit :=
  if slot = 0 ∨ u.counter slot = 0 then u else { u with sb := u.sb.setIfInBounds (slot.toNat - 1) (u.counter slot - 1) }

/-- The condition on which the unit waited is met: it goes on at the word at which it stood, whose clause is fetched anew and whose wait field
is applied again (02 R20, 06 R112). -/
def HwUnit.unblock (u : HwUnit) : HwUnit := { u with wait := none, clause := none, begun := false }

/-- The blocking word has taken effect as its wait ended: what follows it in its clause is fetched anew (02 R20, 06 R112). -/
def HwUnit.refetch (u : HwUnit) : HwUnit := { u with clause := none, begun := false }

def HwUnit.sbZero (u : HwUnit) : Bool := u.sb.toList.all (· == 0)

/-- Whether the pass that starts at lane `p × W` is issued (05 R97). -/
def HwUnit.passIssued (u : HwUnit) (p : Nat) : Bool :=
  decide (p * u.w < u.n) && (u.active.extractLsb' (p * u.w / 32 * 32) 32 != 0)

/-- The row of the register SRAM of its pipeline or member that holds xj of a lane (05 R82, R93). -/
def HwUnit.rowX (u : HwUnit) (l j : Nat) : Nat := if u.team then u.rowBase + l / max 1 u.w * u.k + j else u.rowBase + j

/-- The row that holds doubleword `i` of vj of a thread (05 R82). -/
def HwUnit.rowV (u : HwUnit) (j i : Nat) : Nat := u.rowBase + 64 + 8 * j + i

/-- Issued passes of a word (06 R110). -/
def HwUnit.passes (u : HwUnit) : Nat := ((List.range (u.n / u.w)).filter u.passIssued).length

/-- A boundary at which a pre-emption stops issue: of a thread any word boundary, of a team a clause boundary, or the word at
which it is blocked (18 R403). -/
def HwUnit.boundary (u : HwUnit) : Bool := !u.team || (!u.begun && u.widx == 1) || u.wait.isSome

/-- Its issue has stopped: a pre-emption has arrived and the unit does not drain, or it is to park (18 R403, 15 R331). -/
def HwUnit.stopsHere (u : HwUnit) : Bool := u.boundary && ((u.preempt.isSome && u.drained == 0) || u.parkDue)

/-- A unit ready to go on: running, not blocked, not leaving, not splitting (05 R85, 06 R111). -/
def HwUnit.able (u : HwUnit) : Bool :=
  u.status == .running && u.wait.isNone && !u.exiting && u.split.isNone && u.awaiting.isEmpty && !u.stopsHere

def HwUnit.live (u : HwUnit) : LaneSet := u.stack.foldl (fun a e => a ||| e.m) u.active

/-- The wait field of the fetched clause is satisfied, as the arbiters of this cycle see it (02 R18, 06 R111). -/
def HwUnit.waitsMet (u : HwUnit) (c : Clause) : Bool :=
  (List.range 6).all (fun i => !c.waits (i + 1) || u.sbSeen.toList.getD i 0 == 0)

/-! ### The state by its parts -/

def State.unit? (s : State) (k : UKey) : Option HwUnit := s.units.find? (fun u => u.id == k)

/-- Replaces the unit that has this id. -/
def State.setUnit (s : State) (u : HwUnit) : State :=
  { s with units := s.units.map (fun w => if w.id == u.id then u else w) }

def State.modUnit (s : State) (k : UKey) (f : HwUnit → HwUnit) : State :=
  { s with units := s.units.map (fun w => if w.id == k then f w else w) }

def State.dropUnit (s : State) (k : UKey) : State := { s with units := s.units.filter (fun w => w.id != k) }

def State.cluster (s : State) (c : Nat) : Cluster := s.clusters.getD c Cluster.reset

def State.modCluster (s : State) (c : Nat) (f : Cluster → Cluster) : State :=
  { s with clusters := s.clusters.mapIdx (fun i x => if i == c then f x else x) }

/-- The harness of a team. -/
def State.harness? (s : State) (c base : Nat) : Option Harness := s.harnesses.find? (fun h => h.cluster == c && h.base == base)

def State.modHarness (s : State) (c base : Nat) (f : Harness → Harness) : State :=
  { s with harnesses := s.harnesses.map (fun h => if h.cluster == c && h.base == base then f h else h) }

/-- The resident unit in a place. -/
def State.at? (s : State) (c p sl : Nat) (team : Bool) : Option HwUnit :=
  s.units.find? (fun u => u.cluster == c && u.pipe == p && u.slot == sl && u.team == team &&
    u.status != .saved && u.status != .heldOut)

def HwUnit.resident (u : HwUnit) : Bool := u.status != .saved && u.status != .heldOut

/-- Teams resident in a harness. -/
def State.teamsOf (s : State) (c base : Nat) : List HwUnit :=
  s.units.filter (fun u => u.team && u.resident && u.cluster == c && u.pipe == base)

/-- Whether a team is splittable (05 R101). -/
def State.splittable (s : State) (u : HwUnit) : Bool :=
  u.team && u.resident && decide (u.slot ≤ 6) && decide (u.n ≤ 7 * u.w) && (s.teamsOf u.cluster u.pipe).length == 1

/-- A number at which free values are drawn, used once (log 5). -/
def State.draw (s : State) : Nat × State := (s.fresh, { s with fresh := s.fresh + 1 })

/-- A step due in a later cycle. -/
def State.at_ (s : State) (t : Nat) (e : Ev) : State := { s with future := s.future ++ [(t, e)] }

/-- A step due after a latency that the spec leaves open (log 4). (DESIGN CHOICE, log 4, 43.) -/
def State.post (s : State) (e : Ev) : State :=
  { s with future := s.future ++ [(s.now + 1 + Config.latency s.fresh, e)], fresh := s.fresh + 1 }

/-- A step of this cycle, after those now due. -/
def State.soon (s : State) (e : Ev) : State := { s with agenda := s.agenda ++ [e] }

/-- A step due after an open latency, behind every earlier one of the same channel. (DESIGN CHOICE, log 4.) -/
def State.wire (s : State) (key : Nat) (e : Ev) : State :=
  let last := ((s.wires.find? (·.1 == key)).map (·.2)).getD 0
  let t := max last (s.now + 1 + Config.latency s.fresh)
  { s with future := s.future ++ [(t, e)], fresh := s.fresh + 1, wires := (key, t) :: s.wires.filter (·.1 != key) }

/-- Channels: from the hub to a sharer, from a die to the hub, from a source of messages (18 R390). -/
def toSharer (n : Nat) : Nat := 2 * n
def toHub (die : Nat) : Nat := 20 + 2 * die
def chanOf : Source → Nat
  | .num n => 41 + 2 * n
  | .unit u => 1000 + 2 * ((u.cluster * 32 + u.pipe) * 8 + u.slot) + (if u.team then 1 else 0)
  | .farUnit dev _ | .farNum dev _ => 200000 + dev

/-! ### Device memory by DPA -/

def State.r64 (s : State) (a : Nat) : Word := BitVec.ofNat 64 (memRead s.mem a 8)

/-- A doubleword of a frame's words. -/
def patch64 (ws : Vector W32 32) (i : Nat) (v : Word) : Vector W32 32 :=
  (ws.setIfInBounds i (v.setWidth 32)).setIfInBounds (i + 1) ((v >>> 32).setWidth 32)

/-- A doubleword that the hardware writes, seen at once by every cached copy. -/
def State.w64 (s : State) (a : Nat) (v : Word) : State :=
  let pf : PAddr := ⟨.dev, a / 128⟩
  let i := a % 128 / 4
  { s with mem := memWrite s.mem a 8 v.toNat,
           l1 := s.l1.map (fun l => if l.pf == pf then { l with words := patch64 l.words i v } else l),
           l2 := s.l2.map (fun l => if l.pf == pf then { l with words := patch64 l.words i v } else l) }

/-- Doublewords from an address on. -/
def State.w64s (s : State) : Nat → List Word → State
  | _, [] => s
  | a, v :: r => (s.w64 a v).w64s (a + 8) r

/-! ### Messages and events -/

end Machine

/-- A source as two doublewords of a link's message name it (log 39). (DESIGN CHOICE, log 39.) -/
def Source.code (src : Source) (devnum : Nat) : List Word :=
  match src with
  | .unit u => [0, u.word devnum]
  | .num n => [1, BitVec.ofNat 64 n]
  | .farUnit dev u => [0, u.word dev]
  | .farNum _ n => [1, BitVec.ofNat 64 n]

namespace Machine

/-- dw0 of a message (18 Table 18-9). -/
def msgDw0 (cause asid : Nat) (event team split : Bool) (seq : Nat) : Word :=
  BitVec.ofNat 64 (cause % 256 * 2 ^ 56 + asid % 2 ^ 16 * 2 ^ 40 + (if event then 2 ^ 39 else 0) + (if team then 2 ^ 38 else 0) +
    (if split then 2 ^ 37 else 0) + seq % 2 ^ 32)

/-- Sends a message whose destination is a register of the form of 16 Table 16-5: to the thread it names, else to the host
event queue (18 R391, 16 R351); one for another device leaves on a link (19 R431). `own`: the offender, which is never told of its
own fault. -/
def State.sendTo (s : State) (dst : Word) (src : Source) (own : Option UKey) (cause seq : Nat) (d0 d1 d2 d3 : Word) : State :=
  let dev := (dst.extractLsb' 16 18).toNat
  let there := s.at? (dst.extractLsb' 8 8).toNat (dst.extractLsb' 3 5).toNat (dst.extractLsb' 0 3).toNat false
  if dst.getLsbD 63 && dev == s.devnum % 2 ^ 18 then
    match there.filter (fun u => some u.id != own) with
    | some u => s.wire (chanOf src) (.messageDelivery src u.id d0 d1 d2 d3 0 0)
    | none => s.wire (chanOf src) (.eventRecordWrite src seq d0 d1 d2 d3 cause)
  else if dst.getLsbD 63 then s.wire (chanOf src) (.linkMessage s.devnum dev 0 ([2, dst, d0, d1, d2, d3] ++ src.code s.devnum) 0)
  else s.wire (chanOf src) (.eventRecordWrite src seq d0 d1 d2 d3 cause)

/-- The four doublewords of a unit's fault message or event (18 Table 18-9). -/
def HwUnit.faultDws (u : HwUnit) (devnum cause lane : Nat) (event split : Bool) (addr detail : Word) : List Word :=
  [ msgDw0 cause u.asid event u.team split u.msgs, addr,
    u.id.word devnum ||| (if u.team && !event then BitVec.ofNat 64 (lane % 1024 * 2 ^ 19) else 0), detail ]

/-- Sends a fault message or an event of a unit to its cluster's supervisor (18 R391, R457), and counts it. -/
def State.tell (s : State) (k : UKey) (cause lane : Nat) (event split : Bool) (addr detail : Word) : State :=
  match s.unit? k with
  | none => s
  | some u =>
    match u.faultDws s.devnum cause lane event split addr detail with
    | [d0, d1, d2, d3] =>
      (s.modUnit k (fun u => { u with msgs := u.msgs + 1 })).sendTo (s.cluster u.cluster).faultdst (.unit k) (some k) cause
        u.msgs d0 d1 d2 d3
    | _ => s

/-! ### The error budget -/

/-- sr.errbudget of a context (15 Table 15-5); unlisted: its reset value. -/
def State.errbudget (s : State) (ctx : Nat) : Word := ((s.errb.find? (·.1 == ctx)).map (·.2)).getD 0xFFFFFFFF

def State.setErrbudget (s : State) (ctx : Nat) (v : Word) : State :=
  { s with errb := (ctx, v) :: s.errb.filter (·.1 != ctx) }

/-- One charge (15 R331): the state, and whether the charging agent is exhausted. -/
def State.charge (s : State) (ctx : Nat) : State × Bool :=
  let v := s.errbudget ctx
  let count := (v.extractLsb' 0 32).toNat
  if 1 < count then (s.setErrbudget ctx (v - 1), false)
  else if count = 1 then (s.setErrbudget ctx ((v - 1) ||| BitVec.ofNat 64 (2 ^ 63)), true)
  else
    let ovr := (v.extractLsb' 32 16).toNat
    (s.setErrbudget ctx (if ovr < 0xFFFF then v + BitVec.ofNat 64 (2 ^ 32) else v), true)

/-! ### Save areas -/

def UStatus.code : UStatus → Nat
  | .running => 1 | .halted => 2 | .parked => 3 | .heldOut => 4 | .saved => 5

/-- sr.teamshape (07 Table 7-5). -/
def HwUnit.shape (u : HwUnit) : Word :=
  if u.team then BitVec.ofNat 64 (u.n * 2 ^ 16 + u.k * 2 ^ 8 + u.w) else 0

/-- The header of a save area (18 Table 18-3). -/
def HwUnit.header (u : HwUnit) (devnum : Nat) : List Word :=
  let i := (u.inst.headD none).getD ⟨0, 0, 0⟩
  [ u.id.word devnum,
    BitVec.ofNat 64 (u.status.code * 2 ^ 60 + u.act % 8 * 2 ^ 57 + u.ctx % 4096 * 2 ^ 40 + u.kclass.toNat * 2 ^ 38 +
      (if u.super then 2 ^ 37 else 0) + u.widx % 32 * 2 ^ 32 + i.seq % 2 ^ 32),
    u.pc, BitVec.ofNat 64 i.inst, BitVec.ofNat 64 (u.wexit % 2 ^ 32 * 2 ^ 32 + u.shape.toNat % 2 ^ 32), 0, 0, 0 ]

/-- The resumption point as bytes 32 to 39 of a fault record hold it (18 Table 18-5). -/
def resumeDw (pc : Word) (widx : Nat) : Word := ((pc >>> 3) <<< 5) ||| BitVec.ofNat 64 (widx % 32)

/-- Lanes of a set as 16 doublewords. -/
def laneDws (e : LaneSet) : List Word := (List.range 16).map (fun i => e.extractLsb' (64 * i) 64)

/-- Causes that have a meaning for doubleword 24 (18 R393); for any other it is zero. -/
def hasDw24 (cause : Nat) : Bool :=
  [0x30, 0x34, 0x38, 0x39, 0x4B, 0x50, 0x51, 0x52, 0x53, 0x60, 0x61, 0x66, 0x70, 0x71, 0x72, 0x73, 0x74, 0x75, 0xA4].contains cause

/-- The fault record (18 R393). (DEDUCED, log 34.) -/
def faultRecord (msg : List Word) (pc : Word) (widx : Nat) (f : LaneFault) (lanes : LaneSet) : List Word :=
  msg ++ [resumeDw pc widx] ++ [f.ops.getD 0 0, f.ops.getD 1 0, f.ops.getD 2 0] ++ laneDws lanes ++ [if hasDw24 f.cause then f.dw24 else 0, f.dw25] ++
    List.replicate 6 0

/-- Writes the header and the fault record of a unit into its save area (18 R379). (DEDUCED, log 25.) -/
def State.writeArea (s : State) (k : UKey) : State :=
  match s.unit? k with
  | none => s
  | some u => if u.area = 0 then s else (s.w64s u.area (u.header s.devnum)).w64s (u.area + 0x80) u.frec

/-! ### Issuing a word -/

/-- Where execution goes after a word. -/
inductive Next where
  | seq
  | to (pc : Word)
deriving DecidableEq, Repr

/-- The clause retires (02 R19): its weight and its hints count in a team (18 R402, 06 R113, R114). -/
def HwUnit.retire (u : HwUnit) (c : Clause) (pc : Word) : HwUnit :=
  let p := u.prog.toNat + c.weight
  { u with pc := pc, widx := 1, begun := false, clause := none, issued1 := true, run := u.run + 1,
           yielded := u.yielded || (u.team && (c.yields || u.yieldDue)), yieldDue := false, turned := true,
           prog := if u.team then BitVec.ofNat 32 (min p (2 ^ 32 - 1)) else u.prog }

/-- Moves past the word at widx: to the next word, or out of the clause. -/
def HwUnit.advance (u : HwUnit) (nx : Next) : HwUnit :=
  match u.after with
  | some (pc, i) => { u with pc := pc, widx := i, begun := false, clause := none, only := none, after := none }
  | none =>
    match u.clause with
    | none => u
    | some c =>
      match nx with
      | .to pc => u.retire c pc
      | .seq => if c.words.length ≤ u.widx then u.retire c c.next else { u with widx := u.widx + 1, begun := true }

/-- The idempotent region begins when the first word of a clause with idem issues in a team (18 R401). -/
def HwUnit.enter (u : HwUnit) : HwUnit :=
  match u.clause with
  | some c => if u.team && c.idem && u.widx == 1 && !u.begun then { u with idem := some u.pc, taint := false, prog0 := u.prog } else u
  | none => u

/-- Sparse passes (05 R104). -/
def HwUnit.countSparse (u : HwUnit) (once : Bool) : HwUnit :=
  let p := if once then (if u.passes = 0 then 0 else 1) else u.passes
  if !u.team || p = 0 then u
  else
    let act := (lanesOf u.active u.n).length
    let th := min 64 (u.splitpol.extractLsb' 0 7).toNat
    if act * 64 / u.n < th then { u with sparse := u.sparse + p } else { u with sparse := 0 }

/-- Words that execute once for a team, in one pass (06 R110). -/
def onceWord : Instr → Bool
  | .salloc .. | .sfree .. | .sfmtWrite .. | .sfmtRead .. | .qbind .. | .qbindOff .. | .qpush .. | .qpop .. | .qpeek ..
  | .qstat .. | .qdrain .. | .qdrainAbort .. | .tclaim .. | .trel .. | .tzero .. | .tmov .. | .tmovt .. | .mma .. | .mmas ..
  | .tcvt .. | .tgang .. | .tjoin .. | .tjoins .. | .grpsync .. | .errbAdd .. | .errbRep .. | .reclass .. | .reclassRd ..
  | .tlbshoot .. | .tlbshootAsid .. | .tlbshootAll .. | .tlbshootGlob .. | .tlbsync .. | .trap .. | .eret .. | .wake ..
  | .sendm .. | .waitm .. | .waitmNb .. | .winrd .. | .winwr .. | .ctxsave .. | .ctxload .. | .launch .. | .launchDrain ..
  | .launchAbort .. | .launchReset .. | .launchRun .. | .preempt .. | .preemptSave .. | .preemptKill .. | .faultack ..
  | .faultackRefuse .. => true
  | _ => false

/-- Words that taint an idempotent region as they issue (18 R401). -/
def taintWord : Instr → Bool
  | .brDiv .. | .join .. | .halt .. | .movrs .. | .movrsSet .. | .movrsClr .. | .sts .. | .ldse .. | .stsf .. | .stsx ..
  | .ldsf .. | .feopf .. | .feope .. | .samoadd .. | .samoand .. | .samoor .. | .samoxor .. | .samomin .. | .samomax ..
  | .samominu .. | .samomaxu .. | .samoswap .. | .samocas .. | .salloc .. | .sfree .. | .sfmtWrite .. | .qbind .. | .qbindOff ..
  | .qpush .. | .qpop .. | .qdrain .. | .qdrainAbort .. | .trel .. | .tzero .. | .tmov .. | .tmovt .. | .mma ..
  | .mmas .. | .tcvt .. | .tjoin .. | .tjoins .. | .barinit .. | .bararr .. | .barexp .. | .barwait .. | .bartest ..
  | .grpsync .. | .grpvoteAll .. | .grpvoteAny .. | .grpvoteCount .. | .grpred .. | .launch .. | .launchDrain .. | .launchAbort ..
  | .launchReset .. | .launchRun .. | .sendm .. | .waitm .. | .waitmNb .. => true
  | _ => false

/-- The bookkeeping of a word that issues with executing lanes `e`: what counts in sr.retired (07 R136), the taint of a region,
and the word it stands at next. -/
def HwUnit.issue (u : HwUnit) (i : Instr) (e : LaneSet) (nx : Next) : HwUnit :=
  let u := u.enter
  let u := { u with retired := if e = 0 then u.retired else u.retired + 1,
                    taint := u.taint || (u.team && e != 0 && taintWord i) }
  u.advance nx

/-- Passes of two teams together (06 R116). -/
def jointPasses (u v : HwUnit) : Nat :=
  ((List.range (max u.n v.n / max 1 u.w)).filter (fun p => u.passIssued p || v.passIssued p)).length

/-- Core cycles for which a word of this team holds the issue slot (06 R110, R116). -/
def State.occupancy (s : State) (u : HwUnit) (once : Bool) : Nat :=
  if once then 1
  else
    let other := (s.harness? u.cluster u.pipe).bind (fun h =>
      match h.holder, h.pair with
      | some a, some b => s.unit? (if a == u.id then b else a)
      | _, _ => none)
    match other with
    | some v => max 1 (jointPasses u v)
    | none => max 1 u.passes

/-- The slot stays with a team for its word (06 R110). -/
def State.occupy (s : State) (u : HwUnit) (i : Instr) : State :=
  if u.team then
    let o := s.now + s.occupancy u (onceWord i)
    s.modHarness u.cluster u.pipe (fun h => { h with freeAt := max h.freeAt o })
  else s

/-- Issues a word: the unit as the word leaves it (`u'`, made from `u`), with its bookkeeping; the sparse passes are those of the active
set with which it issues (05 R104). -/
def State.issueAs (s : State) (u u' : HwUnit) (i : Instr) (e : LaneSet) (nx : Next := .seq) : State :=
  (s.occupy u i).setUnit ({ u' with sparse := (u.countSparse (onceWord i)).sparse }.issue i e nx)

/-- Counts a word in its scoreboard slot until it completes (02 R24). -/
def State.addOut (s : State) (k : UKey) (o : OutWord) : State :=
  { s.modUnit k (fun u => u.incSb o.slot) with outw := s.outw ++ [o] }

/-- The words of a unit that have issued and not completed. -/
def State.outOf (s : State) (k : UKey) : List OutWord := s.outw.filter (fun o => o.unit == k)

/-! ### Taking an exception -/

/-- The fault among several that a parked team reports: the lowest cause, then the lowest lane (18 R458). -/
def leadFault : List LaneFault → Option LaneFault
  | [] => none
  | f :: r =>
    match leadFault r with
    | none => some f
    | some g => if f.cause < g.cause || (f.cause == g.cause && f.lane ≤ g.lane) then some f else some g

def faultLanes (fs : List LaneFault) : LaneSet := fs.foldl (fun a f => a ||| lane1 f.lane) 0

/-- The offender halts or parks alone at its resumption point, which its pc and widx hold: the faulting word, the fault record
and the header are written, and then the message is sent (02 R38, 18 R393, R400). The message of a team names the lowest lane of F (Table 18-9).
Where a fault comes while the unit is halted already, as of a second S* word, a second message is sent and the later fault's record and faulting
word stand, of which 08 R154 says nothing. (DESIGN CHOICE, log 46.) -/
def State.halt (s : State) (k : UKey) (f : LaneFault) (lanes : LaneSet) (split : Bool) : State :=
  match s.unit? k with
  | none => s
  | some u =>
    let addr := f.pc + BitVec.ofNat 64 (8 * f.widx)
    let low := if u.team then (lanesOf lanes u.n).headD f.lane else f.lane
    let rec_ := faultRecord (u.faultDws s.devnum f.cause low false split addr f.detail) u.pc u.widx f lanes
    let u' := { u.dropResv with
      status := if !u.resident then u.status else if u.team then .parked else .halted, wait := none, clause := none, begun := false,
      faultW := if f.widx = 0 then none else some (f.pc, f.widx, lanes), frec := rec_ }
    ((s.setUnit u').writeArea k).tell k f.cause low false split addr f.detail

/-- TAKING AN EXCEPTION: the one operation by which a fault halts its offender (02 R38, 05 R105, 18 R458). A thread halts; a
splittable team is to trap-split, which its TEAM_SPLIT step carries out; another team parks and reports its leading fault. The
unit's pc and widx already stand at the resumption point. -/
def State.raise (s : State) (k : UKey) (fs : List LaneFault) : State :=
  match s.unit? k, leadFault fs with
  | some u, some f =>
    if u.team && s.splittable u then
      s.setUnit { u with split := some (u.split.getD [] ++ fs), wait := none }
    else s.halt k f (faultLanes fs) false
  | _, _ => s

/-- A fault of the lanes of a set, all of one cause, at the word at pc and widx. -/
def mkFaults (e : LaneSet) (n cause : Nat) (pc : Word) (widx : Nat) : List LaneFault :=
  (lanesOf e n).map (fun l => ⟨cause, l, pc, widx, 0, [], 0, 0⟩)

/-- Moves a unit past a word that has faulted: the word counts as issued for the resumption point (18 R400), not in
sr.retired (07 R136). -/
def State.passWord (s : State) (k : UKey) : State :=
  s.modUnit k (fun u => (u.advance .seq))

/-- A fault found as a word issues, in the lanes of a set: the word has no effect there, the resumption point is the next word. -/
def State.raiseAt (s : State) (u : HwUnit) (cause : Nat) (e : LaneSet) : State :=
  (s.passWord u.id).raise u.id (mkFaults e u.n cause u.pc u.widx)

/-- An event about a unit that goes on (18 R457). -/
def State.notify (s : State) (u : HwUnit) (cause : Nat) (addr detail : Word) : State :=
  s.tell u.id cause 0 true false addr detail

/-! ### Returning from an exception -/

/-- WAKE's actions 0 to 2 on a unit that has stopped (18 R400): it resumes, as an acquire at .sy. -/
def HwUnit.resume (u : HwUnit) (act : Nat) (at_ : Word) : HwUnit :=
  let u := { u with status := .running, wait := none, clause := none, begun := false, act := 0 }
  match act, u.faultW with
  | 0, some (pc, i, f) =>
    { u with pc := pc, widx := i, only := if u.team then some f else none, after := some (u.pc, u.widx), faultW := none }
  | 2, _ => { u with pc := (at_ >>> 3) <<< 3, widx := 1, only := none, after := none, faultW := none, done := 0, arr := none, clashed := false }
  | 1, some _ => { u with only := none, after := none, faultW := none, done := 0, arr := none, clashed := false }
  | _, _ => { u with only := none, after := none, faultW := none }

/-- ERET gives up supervisor privilege and goes on at an address (18 R408). -/
def HwUnit.eret (u : HwUnit) : HwUnit := { u with super := false }

end Machine

end Sys2Proof
end

