-- ==== Sys2Proof/Machine/Operands.lean ====
section
/-! DEFINITION. Operands.lean: which registers a word names, its operand forms, and the frame in which every instruction word
executes (02 R28, R37, R38; 03 R58). -/

namespace Sys2Proof

/-- Registers by file. -/
structure RegSet where
  x  : List Xr
  p  : List Pr
  v  : List Vr
  sr : List (BitVec 12)
deriving DecidableEq, Repr

def Gov.regs (g : Gov) (d : Vr) : List Vr := if g.gv then g.pg :: (if g.z then [] else [d]) else []

def VSrc.regs : VSrc → List Vr
  | .reg b => [b]
  | _ => []

def VSrc.xs : VSrc → List Xr
  | .scalar x => [x]
  | _ => []

def Rm.srs : Rm → List (BitVec 12)
  | .dyn => [0x010]
  | .sr => [0x011]
  | _ => []

/-- The common fields of a word; VPAIR has none (02 R33). -/
def Instr.hdr : Instr → Hdr
  | .br h _ => h
  | .brDiv h _ => h
  | .join h => h
  | .jmp h _ => h
  | .jmpx h _ => h
  | .call h _ _ => h
  | .callx h _ _ => h
  | .ret h _ => h
  | .loop h _ _ => h
  | .halt h => h
  | .yield h => h
  | .nop h => h
  | .cinch h _ _ _ _ _ => h
  | .split h => h
  | .movsr h _ _ => h
  | .movrs h _ _ => h
  | .movrsSet h _ _ => h
  | .movrsClr h _ _ => h
  | .add h _ _ _ _ => h
  | .sub h _ _ _ _ => h
  | .adds h _ _ _ _ => h
  | .addsu h _ _ _ _ => h
  | .subs h _ _ _ _ => h
  | .subsu h _ _ _ _ => h
  | .mul h _ _ _ _ => h
  | .mulh h _ _ _ _ => h
  | .mulhu h _ _ _ _ => h
  | .div h _ _ _ _ => h
  | .divu h _ _ _ _ => h
  | .rem h _ _ _ _ => h
  | .remu h _ _ _ _ => h
  | .and h _ _ _ _ => h
  | .or h _ _ _ _ => h
  | .xor h _ _ _ _ => h
  | .andn h _ _ _ _ => h
  | .orn h _ _ _ _ => h
  | .shl h _ _ _ _ => h
  | .shr h _ _ _ _ => h
  | .sra h _ _ _ _ => h
  | .rol h _ _ _ _ => h
  | .clz h _ _ _ => h
  | .ctz h _ _ _ => h
  | .popc h _ _ _ => h
  | .min h _ _ _ _ => h
  | .max h _ _ _ _ => h
  | .minu h _ _ _ _ => h
  | .maxu h _ _ _ _ => h
  | .abs h _ _ _ _ => h
  | .sel h _ _ _ _ => h
  | .lea h _ _ _ _ => h
  | .ext h _ _ _ => h
  | .extu h _ _ _ => h
  | .bfx h _ _ _ _ => h
  | .bfxu h _ _ _ _ => h
  | .bfi h _ _ _ _ => h
  | .cmp h _ _ _ _ _ _ => h
  | .pand h _ _ _ => h
  | .por h _ _ _ => h
  | .pxor h _ _ _ => h
  | .pnot h _ _ => h
  | .addi h _ _ _ _ => h
  | .muli h _ _ _ _ => h
  | .andi h _ _ _ _ => h
  | .ori h _ _ _ _ => h
  | .xori h _ _ _ _ => h
  | .shli h _ _ _ _ => h
  | .shri h _ _ _ _ => h
  | .srai h _ _ _ _ => h
  | .roli h _ _ _ _ => h
  | .cmpi h _ _ _ _ _ => h
  | .li h _ _ => h
  | .lihMid h _ _ => h
  | .lihHigh h _ _ => h
  | .fadd h _ _ _ _ _ _ _ => h
  | .fsub h _ _ _ _ _ _ _ => h
  | .fmul h _ _ _ _ _ _ _ => h
  | .fma h _ _ _ _ _ _ _ _ => h
  | .fdiv h _ _ _ _ _ _ => h
  | .fsqrt h _ _ _ _ _ => h
  | .fmin h _ _ _ _ _ => h
  | .fmax h _ _ _ _ _ => h
  | .fcmp h _ _ _ _ _ _ _ => h
  | .fcvt h _ _ _ _ _ _ _ => h
  | .fcvtu h _ _ _ _ _ _ => h
  | .fclass h _ _ _ => h
  | .frcp h _ _ _ _ _ => h
  | .frsq h _ _ _ _ _ => h
  | .fexp2 h _ _ _ _ _ => h
  | .flog2 h _ _ _ _ _ => h
  | .fsinp h _ _ _ _ _ => h
  | .fscale h _ _ _ _ _ _ => h
  | .vld h _ _ _ _ _ _ _ _ _ => h
  | .vst h _ _ _ _ _ _ _ _ => h
  | .vldx h _ _ _ _ _ _ _ => h
  | .vstx h _ _ _ _ _ _ _ _ => h
  | .vadd h _ _ _ _ _ _ => h
  | .vaddu h _ _ _ _ _ => h
  | .vsub h _ _ _ _ _ _ => h
  | .vsubu h _ _ _ _ _ => h
  | .vmul h _ _ _ _ _ => h
  | .vmulh h _ _ _ _ _ => h
  | .vmulhu h _ _ _ _ _ => h
  | .vmin h _ _ _ _ _ => h
  | .vmax h _ _ _ _ _ => h
  | .vminu h _ _ _ _ _ => h
  | .vmaxu h _ _ _ _ _ => h
  | .vand h _ _ _ _ _ => h
  | .vor h _ _ _ _ _ => h
  | .vxor h _ _ _ _ _ => h
  | .vshl h _ _ _ _ _ => h
  | .vshr h _ _ _ _ _ => h
  | .vsra h _ _ _ _ _ => h
  | .vfadd h _ _ _ _ _ _ => h
  | .vfmul h _ _ _ _ _ _ => h
  | .vfma h _ _ _ _ _ _ => h
  | .vfmin h _ _ _ _ _ => h
  | .vfmax h _ _ _ _ _ => h
  | .vfcvt h _ _ _ _ _ _ _ _ => h
  | .vfcvtu h _ _ _ _ _ _ _ _ => h
  | .vcmp h _ _ _ _ _ _ => h
  | .vwhile h _ _ _ _ => h
  | .vlen h _ => h
  | .vsel h _ _ _ _ _ => h
  | .vbcast h _ _ _ _ => h
  | .vbcastElement h _ _ _ _ _ => h
  | .vperm h _ _ _ _ _ => h
  | .vcompress h _ _ _ _ _ _ => h
  | .vredadd h _ _ _ _ _ _ _ _ => h
  | .vredmin h _ _ _ _ _ _ => h
  | .vredminu h _ _ _ _ _ _ => h
  | .vredmax h _ _ _ _ _ _ => h
  | .vredmaxu h _ _ _ _ _ _ => h
  | .vscan h _ _ _ _ _ _ => h
  | .vmerge h _ _ _ _ _ => h
  | .vmergeu h _ _ _ _ _ => h
  | .vmergekv h _ _ _ _ _ => h
  | .vmergekvu h _ _ _ _ _ => h
  | .vpair _ _ => ⟨0, false, 0⟩
  | .ld h _ _ _ _ _ _ _ => h
  | .st h _ _ _ _ _ _ _ => h
  | .ldacq h _ _ _ _ _ _ _ => h
  | .strel h _ _ _ _ _ _ _ => h
  | .fence h _ => h
  | .amoadd h _ _ _ _ _ _ _ => h
  | .amoand h _ _ _ _ _ _ _ => h
  | .amoor h _ _ _ _ _ _ _ => h
  | .amoxor h _ _ _ _ _ _ _ => h
  | .amomin h _ _ _ _ _ _ _ => h
  | .amominu h _ _ _ _ _ _ _ => h
  | .amomax h _ _ _ _ _ _ _ => h
  | .amomaxu h _ _ _ _ _ _ _ => h
  | .amoswap h _ _ _ _ _ _ _ => h
  | .amocas h _ _ _ _ _ _ _ => h
  | .ldlk h _ _ _ _ _ _ _ => h
  | .stck h _ _ _ _ _ _ _ => h
  | .subscr h _ _ _ _ _ _ => h
  | .unsub h _ _ _ => h
  | .upgr h _ _ _ _ _ => h
  | .invspan h _ _ _ _ => h
  | .wbspan h _ _ _ _ => h
  | .pref h _ _ _ _ => h
  | .pinw h _ _ _ _ => h
  | .unpinw h _ _ _ => h
  | .lds h _ _ _ _ => h
  | .ldsu h _ _ _ _ => h
  | .sts h _ _ _ _ => h
  | .ldsf h _ _ _ _ => h
  | .ldse h _ _ _ _ => h
  | .stsf h _ _ _ _ => h
  | .stsx h _ _ _ _ => h
  | .feopf h _ _ => h
  | .feope h _ _ => h
  | .samoadd h _ _ _ _ => h
  | .samoand h _ _ _ _ => h
  | .samoor h _ _ _ _ => h
  | .samoxor h _ _ _ _ => h
  | .samomin h _ _ _ _ => h
  | .samomax h _ _ _ _ => h
  | .samominu h _ _ _ _ => h
  | .samomaxu h _ _ _ _ => h
  | .samoswap h _ _ _ _ => h
  | .samocas h _ _ _ _ _ => h
  | .salloc h _ _ _ => h
  | .sfree h _ => h
  | .sfmtWrite h _ _ => h
  | .sfmtRead h _ _ => h
  | .qbind h _ _ => h
  | .qbindOff h _ => h
  | .qpush h _ _ _ _ => h
  | .qpop h _ _ _ _ => h
  | .qpeek h _ _ _ _ => h
  | .qstat h _ _ => h
  | .qdrain h _ => h
  | .qdrainAbort h _ => h
  | .tclaim h _ _ => h
  | .trel h _ => h
  | .tzero h _ _ => h
  | .tmov h _ _ _ _ => h
  | .tmovt h _ _ _ _ => h
  | .mma h _ _ _ _ _ _ _ _ => h
  | .mmas h _ _ _ _ _ _ _ _ => h
  | .tcvt h _ _ _ _ _ _ _ _ => h
  | .tgang h _ => h
  | .tjoin h _ _ _ _ _ _ _ _ => h
  | .tjoins h _ _ _ _ _ _ _ _ => h
  | .barinit h _ _ _ _ _ => h
  | .bararr h _ _ _ _ _ _ => h
  | .barexp h _ _ _ _ _ => h
  | .barwait h _ _ _ _ _ => h
  | .bartest h _ _ _ _ _ _ => h
  | .grpsync h _ => h
  | .grpvoteAll h _ _ _ => h
  | .grpvoteAny h _ _ _ => h
  | .grpvoteCount h _ _ _ => h
  | .grpred h _ _ _ _ _ => h
  | .trap h _ _ => h
  | .eret h _ => h
  | .wake h _ _ _ => h
  | .sendm h _ _ _ _ => h
  | .waitm h _ _ => h
  | .waitmNb h _ _ => h
  | .winrd h _ _ _ _ => h
  | .winwr h _ _ _ _ => h
  | .ctxsave h _ _ => h
  | .ctxload h _ _ => h
  | .launch h _ _ => h
  | .launchDrain h _ _ => h
  | .launchAbort h _ _ => h
  | .launchReset h _ _ => h
  | .launchRun h _ _ => h
  | .preempt h _ _ => h
  | .preemptSave h _ _ => h
  | .preemptKill h _ _ => h
  | .tlbshoot h _ _ _ => h
  | .tlbshootAsid h _ _ => h
  | .tlbshootAll h _ => h
  | .tlbshootGlob h _ _ _ => h
  | .tlbsync h _ => h
  | .reclass h _ _ _ => h
  | .reclassRd h _ _ => h
  | .errbAdd h _ _ => h
  | .errbRep h _ => h
  | .faultack h _ => h
  | .faultackRefuse h _ => h
  | _ => ⟨0, false, 0⟩

/-- The registers that a word reads beside its guard (07 R132). -/
def Instr.reads : Instr → RegSet
  | .jmpx _ a => ⟨[a], [], [], []⟩
  | .callx _ _ a => ⟨[a], [], [], []⟩
  | .ret _ a => ⟨[a], [], [], []⟩
  | .loop _ a _ => ⟨[a], [], [], []⟩
  | .cinch _ a b _ _ _ => ⟨[a, b], [], [], []⟩
  | .movsr _ _ sri => ⟨[], [], [], [sri]⟩
  | .movrs _ _ a => ⟨[a], [], [], []⟩
  | .movrsSet _ sri a => ⟨[a], [], [], [sri]⟩
  | .movrsClr _ sri a => ⟨[a], [], [], [sri]⟩
  | .add _ _ _ a b => ⟨[a, b], [], [], []⟩
  | .sub _ _ _ a b => ⟨[a, b], [], [], []⟩
  | .adds _ _ _ a b => ⟨[a, b], [], [], []⟩
  | .addsu _ _ _ a b => ⟨[a, b], [], [], []⟩
  | .subs _ _ _ a b => ⟨[a, b], [], [], []⟩
  | .subsu _ _ _ a b => ⟨[a, b], [], [], []⟩
  | .mul _ _ _ a b => ⟨[a, b], [], [], []⟩
  | .mulh _ _ _ a b => ⟨[a, b], [], [], []⟩
  | .mulhu _ _ _ a b => ⟨[a, b], [], [], []⟩
  | .div _ _ _ a b => ⟨[a, b], [], [], []⟩
  | .divu _ _ _ a b => ⟨[a, b], [], [], []⟩
  | .rem _ _ _ a b => ⟨[a, b], [], [], []⟩
  | .remu _ _ _ a b => ⟨[a, b], [], [], []⟩
  | .and _ _ _ a b => ⟨[a, b], [], [], []⟩
  | .or _ _ _ a b => ⟨[a, b], [], [], []⟩
  | .xor _ _ _ a b => ⟨[a, b], [], [], []⟩
  | .andn _ _ _ a b => ⟨[a, b], [], [], []⟩
  | .orn _ _ _ a b => ⟨[a, b], [], [], []⟩
  | .shl _ _ _ a b => ⟨[a, b], [], [], []⟩
  | .shr _ _ _ a b => ⟨[a, b], [], [], []⟩
  | .sra _ _ _ a b => ⟨[a, b], [], [], []⟩
  | .rol _ _ _ a b => ⟨[a, b], [], [], []⟩
  | .clz _ _ _ a => ⟨[a], [], [], []⟩
  | .ctz _ _ _ a => ⟨[a], [], [], []⟩
  | .popc _ _ _ a => ⟨[a], [], [], []⟩
  | .min _ _ _ a b => ⟨[a, b], [], [], []⟩
  | .max _ _ _ a b => ⟨[a, b], [], [], []⟩
  | .minu _ _ _ a b => ⟨[a, b], [], [], []⟩
  | .maxu _ _ _ a b => ⟨[a, b], [], [], []⟩
  | .abs _ _ _ _ a => ⟨[a], [], [], []⟩
  | .sel _ _ pc a b => ⟨[a, b], [pc], [], []⟩
  | .lea _ _ a b _ => ⟨[a, b], [], [], []⟩
  | .ext _ _ _ a => ⟨[a], [], [], []⟩
  | .extu _ _ _ a => ⟨[a], [], [], []⟩
  | .bfx _ _ a _ _ => ⟨[a], [], [], []⟩
  | .bfxu _ _ a _ _ => ⟨[a], [], [], []⟩
  | .bfi _ d a _ _ => ⟨[d, a], [], [], []⟩
  | .cmp _ _ _ _ a b pc => ⟨[a, b], [pc], [], []⟩
  | .pand _ _ pa pb => ⟨[], [pa, pb], [], []⟩
  | .por _ _ pa pb => ⟨[], [pa, pb], [], []⟩
  | .pxor _ _ pa pb => ⟨[], [pa, pb], [], []⟩
  | .pnot _ _ pa => ⟨[], [pa], [], []⟩
  | .addi _ _ _ a _ => ⟨[a], [], [], []⟩
  | .muli _ _ _ a _ => ⟨[a], [], [], []⟩
  | .andi _ _ _ a _ => ⟨[a], [], [], []⟩
  | .ori _ _ _ a _ => ⟨[a], [], [], []⟩
  | .xori _ _ _ a _ => ⟨[a], [], [], []⟩
  | .shli _ _ _ a _ => ⟨[a], [], [], []⟩
  | .shri _ _ _ a _ => ⟨[a], [], [], []⟩
  | .srai _ _ _ a _ => ⟨[a], [], [], []⟩
  | .roli _ _ _ a _ => ⟨[a], [], [], []⟩
  | .cmpi _ _ _ _ a _ => ⟨[a], [], [], []⟩
  | .lihMid _ d _ => ⟨[d], [], [], []⟩
  | .lihHigh _ d _ => ⟨[d], [], [], []⟩
  | .fadd _ _ rm _ _ _ a b => ⟨[a, b], [], [], rm.srs⟩
  | .fsub _ _ rm _ _ _ a b => ⟨[a, b], [], [], rm.srs⟩
  | .fmul _ _ rm _ _ _ a b => ⟨[a, b], [], [], rm.srs⟩
  | .fma _ _ rm _ _ _ a b c => ⟨[a, b, c], [], [], rm.srs⟩
  | .fdiv _ _ rm _ _ a b => ⟨[a, b], [], [], rm.srs⟩
  | .fsqrt _ _ rm _ _ a => ⟨[a], [], [], rm.srs⟩
  | .fmin _ _ _ _ a b => ⟨[a, b], [], [], []⟩
  | .fmax _ _ _ _ a b => ⟨[a, b], [], [], []⟩
  | .fcmp _ _ _ _ _ a b pc => ⟨[a, b], [pc], [], []⟩
  | .fcvt _ _ _ rm _ _ _ a => ⟨[a], [], [], rm.srs⟩
  | .fcvtu _ _ _ rm _ _ a => ⟨[a], [], [], rm.srs⟩
  | .fclass _ _ _ a => ⟨[a], [], [], []⟩
  | .frcp _ _ rm _ _ a => ⟨[a], [], [], rm.srs⟩
  | .frsq _ _ rm _ _ a => ⟨[a], [], [], rm.srs⟩
  | .fexp2 _ _ rm _ _ a => ⟨[a], [], [], rm.srs⟩
  | .flog2 _ _ rm _ _ a => ⟨[a], [], [], rm.srs⟩
  | .fsinp _ _ rm _ _ a => ⟨[a], [], [], rm.srs⟩
  | .fscale _ _ rm _ _ a b => ⟨[a, b], [], [], rm.srs⟩
  | .vld _ gv _ _ _ _ _ a pg _ => ⟨[a], [], [] ++ (if gv then [pg] else []), []⟩
  | .vst _ gv _ _ _ d a pg _ => ⟨[a], [], [d] ++ (if gv then [pg] else []), []⟩
  | .vldx _ gov _ _ _ d a b => ⟨[a], [], [b] ++ gov.regs d, []⟩
  | .vstx _ gv pg _ _ _ d a b => ⟨[a], [], [d, b] ++ (if gv then [pg] else []), []⟩
  | .vadd _ _ gov _ d a b => ⟨b.xs, [], [a] ++ gov.regs d ++ b.regs, []⟩
  | .vaddu _ _ gov d a b => ⟨b.xs, [], [a] ++ gov.regs d ++ b.regs, []⟩
  | .vsub _ _ gov _ d a b => ⟨b.xs, [], [a] ++ gov.regs d ++ b.regs, []⟩
  | .vsubu _ _ gov d a b => ⟨b.xs, [], [a] ++ gov.regs d ++ b.regs, []⟩
  | .vmul _ _ gov d a b => ⟨b.xs, [], [a] ++ gov.regs d ++ b.regs, []⟩
  | .vmulh _ _ gov d a b => ⟨b.xs, [], [a] ++ gov.regs d ++ b.regs, []⟩
  | .vmulhu _ _ gov d a b => ⟨b.xs, [], [a] ++ gov.regs d ++ b.regs, []⟩
  | .vmin _ _ gov d a b => ⟨b.xs, [], [a] ++ gov.regs d ++ b.regs, []⟩
  | .vmax _ _ gov d a b => ⟨b.xs, [], [a] ++ gov.regs d ++ b.regs, []⟩
  | .vminu _ _ gov d a b => ⟨b.xs, [], [a] ++ gov.regs d ++ b.regs, []⟩
  | .vmaxu _ _ gov d a b => ⟨b.xs, [], [a] ++ gov.regs d ++ b.regs, []⟩
  | .vand _ _ gov d a b => ⟨b.xs, [], [a] ++ gov.regs d ++ b.regs, []⟩
  | .vor _ _ gov d a b => ⟨b.xs, [], [a] ++ gov.regs d ++ b.regs, []⟩
  | .vxor _ _ gov d a b => ⟨b.xs, [], [a] ++ gov.regs d ++ b.regs, []⟩
  | .vshl _ _ gov d a b => ⟨b.xs, [], [a] ++ gov.regs d ++ b.regs, []⟩
  | .vshr _ _ gov d a b => ⟨b.xs, [], [a] ++ gov.regs d ++ b.regs, []⟩
  | .vsra _ _ gov d a b => ⟨b.xs, [], [a] ++ gov.regs d ++ b.regs, []⟩
  | .vfadd _ _ gov rm d a b => ⟨b.xs, [], [a] ++ gov.regs d ++ b.regs, rm.srs⟩
  | .vfmul _ _ gov rm d a b => ⟨b.xs, [], [a] ++ gov.regs d ++ b.regs, rm.srs⟩
  | .vfma _ _ gov rm d a b => ⟨b.xs, [], [d, a] ++ gov.regs d ++ b.regs, rm.srs⟩
  | .vfmin _ _ gov d a b => ⟨b.xs, [], [a] ++ gov.regs d ++ b.regs, []⟩
  | .vfmax _ _ gov d a b => ⟨b.xs, [], [a] ++ gov.regs d ++ b.regs, []⟩
  | .vfcvt _ _ _ gov rm _ _ d a => ⟨[], [], [a] ++ gov.regs d, rm.srs⟩
  | .vfcvtu _ _ _ gov rm _ _ d a => ⟨[], [], [a] ++ gov.regs d, rm.srs⟩
  | .vcmp _ _ _ gov d a b => ⟨b.xs, [], [a] ++ gov.regs d ++ b.regs, []⟩
  | .vwhile _ _ _ a b => ⟨[a, b], [], [], []⟩
  | .vsel _ _ pg _ a b => ⟨[], [], [a, b] ++ [pg], []⟩
  | .vbcast _ _ gov d a => ⟨[a], [], [] ++ gov.regs d, []⟩
  | .vbcastElement _ _ gov d a _ => ⟨[], [], [a] ++ gov.regs d, []⟩
  | .vperm _ _ gov d a b => ⟨[], [], [a, b] ++ gov.regs d, []⟩
  | .vcompress _ _ gv pg _ a _ => ⟨[], [], [a] ++ (if gv then [pg] else []), []⟩
  | .vredadd _ _ gv pg rm _ _ a b => ⟨[], [], [a, b] ++ (if gv then [pg] else []), rm.srs⟩
  | .vredmin _ _ gv pg _ a b => ⟨[], [], [a, b] ++ (if gv then [pg] else []), []⟩
  | .vredminu _ _ gv pg _ a b => ⟨[], [], [a, b] ++ (if gv then [pg] else []), []⟩
  | .vredmax _ _ gv pg _ a b => ⟨[], [], [a, b] ++ (if gv then [pg] else []), []⟩
  | .vredmaxu _ _ gv pg _ a b => ⟨[], [], [a, b] ++ (if gv then [pg] else []), []⟩
  | .vscan _ _ gov rm d a b => ⟨[], [], [a, b] ++ gov.regs d, rm.srs⟩
  | .vmerge _ _ _ a b c => ⟨[c], [], [a, b], []⟩
  | .vmergeu _ _ _ a b c => ⟨[c], [], [a, b], []⟩
  | .vmergekv _ _ _ a b c => ⟨[c], [], [a, b], []⟩
  | .vmergekvu _ _ _ a b c => ⟨[c], [], [a, b], []⟩
  | .vpair a b => ⟨[], [], (vpReads a false ++ vpReads b true).map (BitVec.ofNat 5), []⟩
  | .ld _ _ _ _ _ _ a _ => ⟨[a], [], [], []⟩
  | .st _ _ _ _ _ b a _ => ⟨[b, a], [], [], []⟩
  | .ldacq _ _ _ _ _ _ a _ => ⟨[a], [], [], []⟩
  | .strel _ _ _ _ _ b a _ => ⟨[b, a], [], [], []⟩
  | .amoadd _ _ _ _ _ a b _ => ⟨[a, b], [], [], []⟩
  | .amoand _ _ _ _ _ a b _ => ⟨[a, b], [], [], []⟩
  | .amoor _ _ _ _ _ a b _ => ⟨[a, b], [], [], []⟩
  | .amoxor _ _ _ _ _ a b _ => ⟨[a, b], [], [], []⟩
  | .amomin _ _ _ _ _ a b _ => ⟨[a, b], [], [], []⟩
  | .amominu _ _ _ _ _ a b _ => ⟨[a, b], [], [], []⟩
  | .amomax _ _ _ _ _ a b _ => ⟨[a, b], [], [], []⟩
  | .amomaxu _ _ _ _ _ a b _ => ⟨[a, b], [], [], []⟩
  | .amoswap _ _ _ _ _ a b _ => ⟨[a, b], [], [], []⟩
  | .amocas _ _ _ _ d a b _ => ⟨[a, b, d], [], [], []⟩
  | .ldlk _ _ _ _ _ _ a _ => ⟨[a], [], [], []⟩
  | .stck _ _ _ _ _ b a _ => ⟨[b, a], [], [], []⟩
  | .subscr _ _ _ _ _ a _ => ⟨[a], [], [], []⟩
  | .unsub _ _ a _ => ⟨[a], [], [], []⟩
  | .upgr _ _ _ _ a _ => ⟨[a], [], [], []⟩
  | .invspan _ _ _ a _ => ⟨[a], [], [], []⟩
  | .wbspan _ _ _ a _ => ⟨[a], [], [], []⟩
  | .pref _ _ _ a _ => ⟨[a], [], [], []⟩
  | .pinw _ _ a b _ => ⟨[a, b], [], [], []⟩
  | .unpinw _ _ a _ => ⟨[a], [], [], []⟩
  | .lds _ _ _ a _ => ⟨[a], [], [], []⟩
  | .ldsu _ _ _ a _ => ⟨[a], [], [], []⟩
  | .sts _ _ b a _ => ⟨[b, a], [], [], []⟩
  | .ldsf _ _ _ a _ => ⟨[a], [], [], []⟩
  | .ldse _ _ _ a _ => ⟨[a], [], [], []⟩
  | .stsf _ _ b a _ => ⟨[b, a], [], [], []⟩
  | .stsx _ _ b a _ => ⟨[b, a], [], [], []⟩
  | .feopf _ a b => ⟨[a, b], [], [], []⟩
  | .feope _ a b => ⟨[a, b], [], [], []⟩
  | .samoadd _ _ _ a b => ⟨[a, b], [], [], []⟩
  | .samoand _ _ _ a b => ⟨[a, b], [], [], []⟩
  | .samoor _ _ _ a b => ⟨[a, b], [], [], []⟩
  | .samoxor _ _ _ a b => ⟨[a, b], [], [], []⟩
  | .samomin _ _ _ a b => ⟨[a, b], [], [], []⟩
  | .samomax _ _ _ a b => ⟨[a, b], [], [], []⟩
  | .samominu _ _ _ a b => ⟨[a, b], [], [], []⟩
  | .samomaxu _ _ _ a b => ⟨[a, b], [], [], []⟩
  | .samoswap _ _ _ a b => ⟨[a, b], [], [], []⟩
  | .samocas _ _ _ a b c => ⟨[a, b, c], [], [], []⟩
  | .salloc _ _ _ a => ⟨[a], [], [], []⟩
  | .sfree _ a => ⟨[a], [], [], []⟩
  | .sfmtWrite _ _ a => ⟨[a], [], [], []⟩
  | .qpush _ _ a _ _ => ⟨[a], [], [], []⟩
  | .tclaim _ _ c => ⟨[c], [], [], []⟩
  | .trel _ c => ⟨[c], [], [], []⟩
  | .mmas _ _ _ _ _ _ _ _ c => ⟨[c], [], [], []⟩
  | .tcvt _ _ _ rm _ _ _ _ _ => ⟨[], [], [], rm.srs⟩
  | .tgang _ c => ⟨[c], [], [], []⟩
  | .tjoins _ _ _ _ _ _ _ _ c => ⟨[c], [], [], []⟩
  | .barinit _ _ _ a b _ => ⟨[a, b], [], [], []⟩
  | .bararr _ _ _ _ a b _ => ⟨[a, b], [], [], []⟩
  | .barexp _ _ _ a b _ => ⟨[a, b], [], [], []⟩
  | .barwait _ _ _ a b _ => ⟨[a, b], [], [], []⟩
  | .bartest _ _ _ _ a b _ => ⟨[a, b], [], [], []⟩
  | .grpvoteAll _ _ pa _ => ⟨[], [pa], [], []⟩
  | .grpvoteAny _ _ pa _ => ⟨[], [pa], [], []⟩
  | .grpvoteCount _ _ pa _ => ⟨[], [pa], [], []⟩
  | .grpred _ _ _ _ a _ => ⟨[a], [], [], []⟩
  | .trap _ a _ => ⟨[a], [], [], []⟩
  | .eret _ a => ⟨[a], [], [], []⟩
  | .wake _ _ a b => ⟨[a, b], [], [], []⟩
  | .sendm _ _ _ a b => ⟨[a, b, b + 1], [], [], []⟩
  | .winrd _ _ a b _ => ⟨[a, b], [], [], []⟩
  | .winwr _ d a b _ => ⟨[d, a, b], [], [], []⟩
  | .ctxsave _ _ a => ⟨[a], [], [], []⟩
  | .ctxload _ _ a => ⟨[a], [], [], []⟩
  | .launch _ _ a => ⟨[a], [], [], []⟩
  | .launchDrain _ _ a => ⟨[a], [], [], []⟩
  | .launchAbort _ _ a => ⟨[a], [], [], []⟩
  | .launchReset _ _ a => ⟨[a], [], [], []⟩
  | .launchRun _ _ a => ⟨[a], [], [], []⟩
  | .preempt _ _ a => ⟨[a], [], [], []⟩
  | .preemptSave _ _ a => ⟨[a], [], [], []⟩
  | .preemptKill _ _ a => ⟨[a], [], [], []⟩
  | .tlbshoot _ _ a b => ⟨[a, b], [], [], []⟩
  | .tlbshootAsid _ _ b => ⟨[b], [], [], []⟩
  | .tlbshootGlob _ _ a b => ⟨[a, b], [], [], []⟩
  | .tlbsync _ a => ⟨[a], [], [], []⟩
  | .reclass _ a b _ => ⟨[a, b], [], [], []⟩
  | .reclassRd _ _ a => ⟨[a], [], [], []⟩
  | .errbAdd _ _ a => ⟨[a], [], [], []⟩
  | .errbRep _ a => ⟨[a], [], [], []⟩
  | .faultack _ a => ⟨[a], [], [], []⟩
  | .faultackRefuse _ a => ⟨[a], [], [], []⟩
  | _ => ⟨[], [], [], []⟩

/-- A special register without a writable field: a write leaves it, and its parity, as they are (00 R4; 07 Table 7-2). -/
def readOnlySr (sri : BitVec 12) : Bool := decide (sri.toNat ≤ 6) || sri == 0x013

/-- The registers that a word writes. -/
def Instr.dests : Instr → RegSet
  | .call _ d _ => ⟨[d], [], [], []⟩
  | .callx _ d _ => ⟨[d], [], [], []⟩
  | .movsr _ d _ => ⟨[d], [], [], []⟩
  | .movrs _ sri _ => ⟨[], [], [], if readOnlySr sri then [] else [sri]⟩
  | .add _ _ d _ _ => ⟨[d], [], [], []⟩
  | .sub _ _ d _ _ => ⟨[d], [], [], []⟩
  | .adds _ _ d _ _ => ⟨[d], [], [], []⟩
  | .addsu _ _ d _ _ => ⟨[d], [], [], []⟩
  | .subs _ _ d _ _ => ⟨[d], [], [], []⟩
  | .subsu _ _ d _ _ => ⟨[d], [], [], []⟩
  | .mul _ _ d _ _ => ⟨[d], [], [], []⟩
  | .mulh _ _ d _ _ => ⟨[d], [], [], []⟩
  | .mulhu _ _ d _ _ => ⟨[d], [], [], []⟩
  | .div _ _ d _ _ => ⟨[d], [], [], []⟩
  | .divu _ _ d _ _ => ⟨[d], [], [], []⟩
  | .rem _ _ d _ _ => ⟨[d], [], [], []⟩
  | .remu _ _ d _ _ => ⟨[d], [], [], []⟩
  | .and _ _ d _ _ => ⟨[d], [], [], []⟩
  | .or _ _ d _ _ => ⟨[d], [], [], []⟩
  | .xor _ _ d _ _ => ⟨[d], [], [], []⟩
  | .andn _ _ d _ _ => ⟨[d], [], [], []⟩
  | .orn _ _ d _ _ => ⟨[d], [], [], []⟩
  | .shl _ _ d _ _ => ⟨[d], [], [], []⟩
  | .shr _ _ d _ _ => ⟨[d], [], [], []⟩
  | .sra _ _ d _ _ => ⟨[d], [], [], []⟩
  | .rol _ _ d _ _ => ⟨[d], [], [], []⟩
  | .clz _ _ d _ => ⟨[d], [], [], []⟩
  | .ctz _ _ d _ => ⟨[d], [], [], []⟩
  | .popc _ _ d _ => ⟨[d], [], [], []⟩
  | .min _ _ d _ _ => ⟨[d], [], [], []⟩
  | .max _ _ d _ _ => ⟨[d], [], [], []⟩
  | .minu _ _ d _ _ => ⟨[d], [], [], []⟩
  | .maxu _ _ d _ _ => ⟨[d], [], [], []⟩
  | .abs _ _ _ d _ => ⟨[d], [], [], []⟩
  | .sel _ d _ _ _ => ⟨[d], [], [], []⟩
  | .lea _ d _ _ _ => ⟨[d], [], [], []⟩
  | .ext _ _ d _ => ⟨[d], [], [], []⟩
  | .extu _ _ d _ => ⟨[d], [], [], []⟩
  | .bfx _ d _ _ _ => ⟨[d], [], [], []⟩
  | .bfxu _ d _ _ _ => ⟨[d], [], [], []⟩
  | .bfi _ d _ _ _ => ⟨[d], [], [], []⟩
  | .cmp _ _ _ pd _ _ _ => ⟨[], [pd], [], []⟩
  | .pand _ pd _ _ => ⟨[], [pd], [], []⟩
  | .por _ pd _ _ => ⟨[], [pd], [], []⟩
  | .pxor _ pd _ _ => ⟨[], [pd], [], []⟩
  | .pnot _ pd _ => ⟨[], [pd], [], []⟩
  | .addi _ _ d _ _ => ⟨[d], [], [], []⟩
  | .muli _ _ d _ _ => ⟨[d], [], [], []⟩
  | .andi _ _ d _ _ => ⟨[d], [], [], []⟩
  | .ori _ _ d _ _ => ⟨[d], [], [], []⟩
  | .xori _ _ d _ _ => ⟨[d], [], [], []⟩
  | .shli _ _ d _ _ => ⟨[d], [], [], []⟩
  | .shri _ _ d _ _ => ⟨[d], [], [], []⟩
  | .srai _ _ d _ _ => ⟨[d], [], [], []⟩
  | .roli _ _ d _ _ => ⟨[d], [], [], []⟩
  | .cmpi _ _ _ pd _ _ => ⟨[], [pd], [], []⟩
  | .li _ d _ => ⟨[d], [], [], []⟩
  | .lihMid _ d _ => ⟨[d], [], [], []⟩
  | .lihHigh _ d _ => ⟨[d], [], [], []⟩
  | .fadd _ _ _ _ _ d _ _ => ⟨[d], [], [], []⟩
  | .fsub _ _ _ _ _ d _ _ => ⟨[d], [], [], []⟩
  | .fmul _ _ _ _ _ d _ _ => ⟨[d], [], [], []⟩
  | .fma _ _ _ _ _ d _ _ _ => ⟨[d], [], [], []⟩
  | .fdiv _ _ _ _ d _ _ => ⟨[d], [], [], []⟩
  | .fsqrt _ _ _ _ d _ => ⟨[d], [], [], []⟩
  | .fmin _ _ _ d _ _ => ⟨[d], [], [], []⟩
  | .fmax _ _ _ d _ _ => ⟨[d], [], [], []⟩
  | .fcmp _ _ _ _ pd _ _ _ => ⟨[], [pd], [], []⟩
  | .fcvt _ _ _ _ _ _ d _ => ⟨[d], [], [], []⟩
  | .fcvtu _ _ _ _ _ d _ => ⟨[d], [], [], []⟩
  | .fclass _ _ d _ => ⟨[d], [], [], []⟩
  | .frcp _ _ _ _ d _ => ⟨[d], [], [], []⟩
  | .frsq _ _ _ _ d _ => ⟨[d], [], [], []⟩
  | .fexp2 _ _ _ _ d _ => ⟨[d], [], [], []⟩
  | .flog2 _ _ _ _ d _ => ⟨[d], [], [], []⟩
  | .fsinp _ _ _ _ d _ => ⟨[d], [], [], []⟩
  | .fscale _ _ _ _ d _ _ => ⟨[d], [], [], []⟩
  | .vld _ _ _ _ _ _ d _ _ _ => ⟨[], [], [d], []⟩
  | .vldx _ _ _ _ _ d _ _ => ⟨[], [], [d], []⟩
  | .vadd _ _ _ _ d _ _ => ⟨[], [], [d], []⟩
  | .vaddu _ _ _ d _ _ => ⟨[], [], [d], []⟩
  | .vsub _ _ _ _ d _ _ => ⟨[], [], [d], []⟩
  | .vsubu _ _ _ d _ _ => ⟨[], [], [d], []⟩
  | .vmul _ _ _ d _ _ => ⟨[], [], [d], []⟩
  | .vmulh _ _ _ d _ _ => ⟨[], [], [d], []⟩
  | .vmulhu _ _ _ d _ _ => ⟨[], [], [d], []⟩
  | .vmin _ _ _ d _ _ => ⟨[], [], [d], []⟩
  | .vmax _ _ _ d _ _ => ⟨[], [], [d], []⟩
  | .vminu _ _ _ d _ _ => ⟨[], [], [d], []⟩
  | .vmaxu _ _ _ d _ _ => ⟨[], [], [d], []⟩
  | .vand _ _ _ d _ _ => ⟨[], [], [d], []⟩
  | .vor _ _ _ d _ _ => ⟨[], [], [d], []⟩
  | .vxor _ _ _ d _ _ => ⟨[], [], [d], []⟩
  | .vshl _ _ _ d _ _ => ⟨[], [], [d], []⟩
  | .vshr _ _ _ d _ _ => ⟨[], [], [d], []⟩
  | .vsra _ _ _ d _ _ => ⟨[], [], [d], []⟩
  | .vfadd _ _ _ _ d _ _ => ⟨[], [], [d], []⟩
  | .vfmul _ _ _ _ d _ _ => ⟨[], [], [d], []⟩
  | .vfma _ _ _ _ d _ _ => ⟨[], [], [d], []⟩
  | .vfmin _ _ _ d _ _ => ⟨[], [], [d], []⟩
  | .vfmax _ _ _ d _ _ => ⟨[], [], [d], []⟩
  | .vfcvt _ _ _ _ _ _ _ d _ => ⟨[], [], [d], []⟩
  | .vfcvtu _ _ _ _ _ _ _ d _ => ⟨[], [], [d], []⟩
  | .vcmp _ _ _ _ d _ _ => ⟨[], [], [d], []⟩
  | .vwhile _ _ d _ _ => ⟨[], [], [d], []⟩
  | .vlen _ d => ⟨[d], [], [], []⟩
  | .vsel _ _ _ d _ _ => ⟨[], [], [d], []⟩
  | .vbcast _ _ _ d _ => ⟨[], [], [d], []⟩
  | .vbcastElement _ _ _ d _ _ => ⟨[], [], [d], []⟩
  | .vperm _ _ _ d _ _ => ⟨[], [], [d], []⟩
  | .vcompress _ _ _ _ d _ c => ⟨[c], [], [d], []⟩
  | .vredadd _ _ _ _ _ _ d _ _ => ⟨[], [], [d], []⟩
  | .vredmin _ _ _ _ d _ _ => ⟨[], [], [d], []⟩
  | .vredminu _ _ _ _ d _ _ => ⟨[], [], [d], []⟩
  | .vredmax _ _ _ _ d _ _ => ⟨[], [], [d], []⟩
  | .vredmaxu _ _ _ _ d _ _ => ⟨[], [], [d], []⟩
  | .vscan _ _ _ _ d _ _ => ⟨[], [], [d], []⟩
  | .vmerge _ _ d _ _ _ => ⟨[], [], [d], []⟩
  | .vmergeu _ _ d _ _ _ => ⟨[], [], [d], []⟩
  | .vmergekv _ _ d _ _ _ => ⟨[], [], [d], []⟩
  | .vmergekvu _ _ d _ _ _ => ⟨[], [], [d], []⟩
  | .vpair a b => ⟨[], [], [BitVec.ofNat 5 a.vd.toNat, BitVec.ofNat 5 (16 + b.vd.toNat)], []⟩
  | .ld _ _ _ _ _ d _ _ => ⟨[d], [], [], []⟩
  | .ldacq _ _ _ _ _ d _ _ => ⟨[d], [], [], []⟩
  | .amoadd _ _ _ _ d _ _ _ => ⟨[d], [], [], []⟩
  | .amoand _ _ _ _ d _ _ _ => ⟨[d], [], [], []⟩
  | .amoor _ _ _ _ d _ _ _ => ⟨[d], [], [], []⟩
  | .amoxor _ _ _ _ d _ _ _ => ⟨[d], [], [], []⟩
  | .amomin _ _ _ _ d _ _ _ => ⟨[d], [], [], []⟩
  | .amominu _ _ _ _ d _ _ _ => ⟨[d], [], [], []⟩
  | .amomax _ _ _ _ d _ _ _ => ⟨[d], [], [], []⟩
  | .amomaxu _ _ _ _ d _ _ _ => ⟨[d], [], [], []⟩
  | .amoswap _ _ _ _ d _ _ _ => ⟨[d], [], [], []⟩
  | .amocas _ _ _ _ d _ _ _ => ⟨[d], [], [], []⟩
  | .ldlk _ _ _ _ _ d _ _ => ⟨[d], [], [], []⟩
  | .stck _ _ _ _ pd _ _ _ => ⟨[], [pd], [], []⟩
  | .subscr _ _ _ _ pd _ _ => ⟨[], [pd], [], []⟩
  | .upgr _ _ _ pd _ _ => ⟨[], [pd], [], []⟩
  | .pinw _ pd _ _ _ => ⟨[], [pd], [], []⟩
  | .unpinw _ pd _ _ => ⟨[], [pd], [], []⟩
  | .lds _ _ d _ _ => ⟨[d], [], [], []⟩
  | .ldsu _ _ d _ _ => ⟨[d], [], [], []⟩
  | .ldsf _ _ d _ _ => ⟨[d], [], [], []⟩
  | .ldse _ _ d _ _ => ⟨[d], [], [], []⟩
  | .samoadd _ _ d _ _ => ⟨[d], [], [], []⟩
  | .samoand _ _ d _ _ => ⟨[d], [], [], []⟩
  | .samoor _ _ d _ _ => ⟨[d], [], [], []⟩
  | .samoxor _ _ d _ _ => ⟨[d], [], [], []⟩
  | .samomin _ _ d _ _ => ⟨[d], [], [], []⟩
  | .samomax _ _ d _ _ => ⟨[d], [], [], []⟩
  | .samominu _ _ d _ _ => ⟨[d], [], [], []⟩
  | .samomaxu _ _ d _ _ => ⟨[d], [], [], []⟩
  | .samoswap _ _ d _ _ => ⟨[d], [], [], []⟩
  | .samocas _ _ d _ _ _ => ⟨[d], [], [], []⟩
  | .salloc _ d pc _ => ⟨[d], [pc], [], []⟩
  | .sfmtRead _ d _ => ⟨[d], [], [], []⟩
  | .qpush _ _ _ _ pd => ⟨[], [pd], [], []⟩
  | .qpop _ d _ _ pd => ⟨[d], [pd], [], []⟩
  | .qpeek _ d _ _ pd => ⟨[d], [pd], [], []⟩
  | .qstat _ d _ => ⟨[d], [], [], []⟩
  | .tclaim _ pd _ => ⟨[], [pd], [], []⟩
  | .bararr _ _ _ d _ _ _ => ⟨[d], [], [], []⟩
  | .bartest _ _ _ pd _ _ _ => ⟨[], [pd], [], []⟩
  | .grpvoteAll _ pd _ _ => ⟨[], [pd], [], []⟩
  | .grpvoteAny _ pd _ _ => ⟨[], [pd], [], []⟩
  | .grpvoteCount _ d _ _ => ⟨[d], [], [], []⟩
  | .grpred _ _ _ d _ _ => ⟨[d], [], [], []⟩
  | .wake _ d _ _ => ⟨[d], [], [], []⟩
  | .sendm _ _ d _ _ => ⟨[d], [], [], []⟩
  | .waitm _ _ d => ⟨[d, d + 1, d + 2, d + 3], [], [], []⟩
  | .waitmNb _ _ d => ⟨[d, d + 1, d + 2, d + 3], [], [], []⟩
  | .winrd _ d _ _ _ => ⟨[d], [], [], []⟩
  | .ctxsave _ d _ => ⟨[d], [], [], []⟩
  | .ctxload _ d _ => ⟨[d], [], [], []⟩
  | .launch _ d _ => ⟨[d], [], [], []⟩
  | .launchDrain _ d _ => ⟨[d], [], [], []⟩
  | .launchAbort _ d _ => ⟨[d], [], [], []⟩
  | .launchReset _ d _ => ⟨[d], [], [], []⟩
  | .launchRun _ d _ => ⟨[d], [], [], []⟩
  | .preempt _ d _ => ⟨[d], [], [], []⟩
  | .preemptSave _ d _ => ⟨[d], [], [], []⟩
  | .preemptKill _ d _ => ⟨[d], [], [], []⟩
  | .tlbshoot _ d _ _ => ⟨[d], [], [], []⟩
  | .tlbshootAsid _ d _ => ⟨[d], [], [], []⟩
  | .tlbshootAll _ d => ⟨[d], [], [], []⟩
  | .tlbshootGlob _ d _ _ => ⟨[d], [], [], []⟩
  | .reclassRd _ d _ => ⟨[d], [], [], []⟩
  | .errbAdd _ d _ => ⟨[d], [], [], []⟩
  | _ => ⟨[], [], [], []⟩

namespace Machine

/-! ### Operand forms of the integer words (07 R140) -/

/-- The low n bits of an x register. -/
def opX (l : Lane) (r : Xr) (n : Nat) : Nat := (l.X r).toNat % 2 ^ n

/-- sext(imm24, 24)[n−1:0]. -/
def opImm (imm : BitVec 24) (n : Nat) : Nat := (sext imm.toNat 24).toNat % 2 ^ n

/-- The effective address of format I and M words: X(a) plus a signed offset (13 R264). -/
def eaOff (l : Lane) (a : Xr) (off : BitVec 18) : Word := l.X a + sext off.toNat 18

/-- A canonical address (16 R344). -/
def canonical (ea : Word) : Bool := ea.extractLsb' 57 7 == (if ea.getLsbD 56 then 0x7F else 0)

/-- The target of a format B transfer (02 R32). -/
def offTarget (u : HwUnit) (off : BitVec 30) : Word := u.pc + (sext off.toNat 30) * 8

/-- The header of the clause that follows the one now executed (02 R15). -/
def followPc (u : HwUnit) : Word := match u.clause with | some c => c.next | none => u.pc

/-! ### Register parity (07 R132) -/

/-- The copy of a special register that a unit reads, where it is shared (07 Table 7-2): of its cluster, die, device or context; none:
the register is the unit's own. -/
def HwUnit.srCopy (u : HwUnit) (sri : Nat) : Option Nat :=
  if sri = 3 ∨ 0x020 ≤ sri ∧ sri < 0x030 then some u.cluster
  else if 0x030 ≤ sri ∧ sri < 0x040 then some (u.cluster / Config.clustersPerDie)
  else if sri = 0 ∨ sri = 1 ∨ sri = 0x040 then some 0
  else if sri = 0x050 then some u.ctx
  else none

/-- Special registers, of the unit and shared, that fail their check and that a word reads. -/
def State.badSrIn (s : State) (u : HwUnit) (i : Instr) : Option BadReg :=
  (i.reads.sr.find? (fun r => s.badSr.any (fun q => q.1 == r.toNat && u.srCopy q.1 == some q.2))).map (fun r => ⟨.sr, 0, r.toNat⟩)

/-- A bad register that a word reads in a lane: its guard in every active lane (02 R28), the others where it executes. Of several the
one struck last is named. (DESIGN CHOICE, log 45.) -/
def State.badIn (s : State) (u : HwUnit) (i : Instr) (e : LaneSet) (l : Nat) : Option BadReg :=
  let r := i.reads
  (u.bad.find? (fun b => (b.file == .p && b.lane == l && b.idx == i.hdr.g.toNat) || (e.getLsbD l && match b.file with
    | .x => b.lane == l && r.x.any (fun x => x.toNat == b.idx)
    | .p => b.lane == l && r.p.any (fun x => x.toNat == b.idx)
    | .v => r.v.any (fun x => x.toNat == b.idx / 8)
    | .sr => r.sr.any (fun x => x.toNat == b.idx)))).orElse (fun _ => if e.getLsbD l then s.badSrIn u i else none)

def RFile.code : RFile → Nat
  | .x => 0 | .p => 1 | .v => 2 | .sr => 3

/-- The parity faults of a word that executes in the lanes `e`: one error charged for each lane, 0x62 in place of 0x2A where that exhausts
the budget. The detail names the register, by WINRD's index, in both (the spec gives the layout for 0x62 alone). (DESIGN CHOICE, log 45.) -/
def parityFaults (u : HwUnit) (i : Instr) (e : LaneSet) : List Nat → State → State × List LaneFault
  | [], s => (s, [])
  | l :: r, s =>
    match s.badIn u i e l with
    | none => parityFaults u i e r s
    | some b =>
      let (s', ex) := s.charge u.ctx
      let (s'', fs) := parityFaults u i e r s'
      (s'', ⟨if ex then 0x62 else 0x2A, l, u.pc, u.widx,
        BitVec.ofNat 64 (0x2A + b.idx % 2 ^ 11 * 2 ^ 8 + b.file.code * 2 ^ 19), [], 0, 0⟩ :: fs)

/-- A register that a word writes whole has its parity replaced. -/
def HwUnit.repair (u : HwUnit) (d : RegSet) (e : LaneSet) : HwUnit :=
  { u with bad := u.bad.filter (fun b => !(match b.file with
      | .x => e.getLsbD b.lane && d.x.any (fun x => x.toNat == b.idx)
      | .p => e.getLsbD b.lane && d.p.any (fun x => x.toNat == b.idx)
      | .v => d.v.any (fun x => x.toNat == b.idx / 8)
      | .sr => d.sr.any (fun x => x.toNat == b.idx))) }

/-- A register write. -/
def HwUnit.land (u : HwUnit) : RegWrite → HwUnit
  | .x l r v => u.mapLanes (lane1 l) (fun _ x => x.setX r v)
  | .p l r v => u.mapLanes (lane1 l) (fun _ x => x.setP r v)
  | .v r v => u.setVr r v
  | .ve r o n v =>
    let m : VReg := BitVec.ofNat 512 ((2 ^ (8 * n) - 1) * 2 ^ (8 * o))
    u.setVr r ((u.V r &&& ~~~m) ||| BitVec.ofNat 512 (v % 2 ^ (8 * n) * 2 ^ (8 * o)))

/-- The write covers the byte `k` of a register; a register of x or p is one byte here. -/
def RegWrite.covers (w : RegWrite) (b : BadReg) (k : Nat) : Bool :=
  match w with
  | .x l r _ => b.file == .x && b.lane == l && b.idx == r.toNat
  | .p l r _ => b.file == .p && b.lane == l && b.idx == r.toNat
  | .v r _ => b.file == .v && b.idx / 8 == r.toNat
  | .ve r o n _ => b.file == .v && b.idx / 8 == r.toNat && decide (o ≤ b.idx % 8 * 8 + k) && decide (b.idx % 8 * 8 + k < o + n)

/-- The register writes of a completing word (02 R24): what they cover whole has its parity replaced (07 R132). -/
def HwUnit.landAll (u : HwUnit) (ws : List RegWrite) : HwUnit :=
  let u' := ws.foldl HwUnit.land u
  { u' with bad := u'.bad.filter (fun b => !(List.range 8).all (fun k => ws.any (fun w => w.covers b k))) }

/-! ### The frame of a word -/

/-- The issuer of the word now executed. -/
def State.issuer (s : State) : Option HwUnit := s.cur.bind s.unit?

/-- The cause that the encoding checks report for a word that they refuse (02 R39). -/
def encCause (e : Env) (i : Instr) : Nat :=
  match encode i with
  | none => 0x01
  | some w => match decodeWord e w with
    | .error c => c.code
    | .ok _ => 0x04

/-- The frame of every instruction word: the encoding, mode and privilege checks (02 R37, R38); a counter at 63 holds the word
back (R24); a word that executes nowhere changes no state but R24's (R28), unless `always`; register parity (07 R132). The body
gets the unit, the lanes in which the word executes, and the state. -/
def frame (always : Bool) (i : Instr) (s : State) (body : HwUnit → LaneSet → State → State) :
    Host.Outcome State Fault Refusal :=
  match s.issuer with
  | none => .fault .noIssuer
  | some u =>
    if !i.wf u.env then .next (s.raiseAt u (encCause u.env i) u.active)
    else if i.hdr.sb != 0 && u.counter i.hdr.sb == 63 then .next s
    else
      let e := u.exec i.hdr
      let (s1, fs) := if u.bad.isEmpty && s.badSr.isEmpty then (s, []) else parityFaults u i e (lanesOf u.active u.n) s
      let e' := e &&& ~~~ (faultLanes fs)
      if fs.isEmpty then
        (if e = 0 && !always then .next (s.issueAs u u i 0) else .next (body u e s))
      else if e' = 0 then .next ((s1.passWord u.id).raise u.id fs)
      else .next ((body u e' s1).raise u.id fs)

/-- Source operands of a word in a lane, as a fault record holds them (18 R393). -/
def HwUnit.srcs (u : HwUnit) (i : Instr) (l : Nat) : List Word := (i.reads.x.take 3).map (u.lane l).X

/-- A fault found as a word issues, in the lanes of a set: the word has no effect there, the resumption point is the next word. -/
def State.raiseOp (s : State) (u : HwUnit) (i : Instr) (cause : Nat) (e : LaneSet) : State :=
  (s.passWord u.id).raise u.id ((mkFaults e u.n cause u.pc u.widx).map (fun f => { f with ops := u.srcs i f.lane }))

/-- The same, for a fault about an address. -/
def State.raiseAddr (s : State) (u : HwUnit) (i : Instr) (cause : Nat) (e : LaneSet) (a : Word) : State :=
  (s.passWord u.id).raise u.id ((mkFaults e u.n cause u.pc u.widx).map (fun f => { f with ops := u.srcs i f.lane, dw24 := a }))

def word (i : Instr) (s : State) (body : HwUnit → LaneSet → State → State) : Host.Outcome State Fault Refusal :=
  frame false i s body

/-- An outstanding word as it issues. -/
def mkOut (id : Nat) (u : HwUnit) (i : Instr) (e : LaneSet) : OutWord :=
  ⟨id, u.id, i, u.pc, u.widx, i.hdr.sb, e, [], 0, [], false, 0, false, [], 0, 0, [], [], none, none⟩

/-- Issues a fixed-latency word, whose effect is in `u'`, and which has replaced the parity of what it wrote: it completes after its last
pass (02 R24, 07 R132). -/
def State.issueFixed (s : State) (u u' : HwUnit) (i : Instr) (e : LaneSet) (nx : Next := .seq) : State :=
  let s' := s.issueAs u (u'.repair i.dests e) i e nx
  if i.hdr.sb = 0 then s'
  else
    let occ := if u.team then s.occupancy u (onceWord i) else 1
    ({ s' with ids := s'.ids + 1 }.addOut u.id { mkOut s'.ids u i e with due := true }).at_ (s.now + occ) (.wordComplete s'.ids)

/-- Issues a word whose results are known now and are written when it completes, `lat` core cycles after its last pass. -/
def State.issueLater (s : State) (u : HwUnit) (i : Instr) (e : LaneSet) (o : OutWord → OutWord) (lat : Nat) : State :=
  let s' := s.issueAs u u i e
  let occ := if u.team then s.occupancy u (onceWord i) else 1
  ({ s' with ids := s'.ids + 1 }.addOut u.id { o (mkOut s'.ids u i e) with due := true }).at_ (s.now + occ - 1 + lat)
    (.wordComplete s'.ids)

/-- A fixed-latency word that acts in each executing lane by itself. -/
def laneWord (i : Instr) (s : State) (f : Lane → Lane) : Host.Outcome State Fault Refusal :=
  word i s (fun u e s => s.issueFixed u (u.mapLanes e (fun _ l => f l)) i e)

/-- The word does not issue now: its unit is blocked and stands at it (06 R112). It has had the one core cycle of its attempt; the spec
does not say how long a word that blocks occupies the slot. (DESIGN CHOICE, log 46.) -/
def State.block (s : State) (u : HwUnit) (k : WaitKind) : State :=
  match u.wait with
  | some _ => s
  | none => { s.setUnit { u.dropResv with wait := some ⟨k, s.ids, 0, s.now, s.now, [], false⟩ } with ids := s.ids + 1 }

end Machine

end Sys2Proof
end

