-- ==== Sys2Proof/Machine/Home.lean ====
section
/-! DEFINITION. Home.lean: homes of memory, the device-physical map, the memory controllers, classes, poison, events of the hub
and retries (13 R270, R279; 15 R318 to R325; 18 R457; 19 R420). -/

namespace Sys2Proof.Machine

/-! ### Events of sources that are no units -/

def State.srcSeq (s : State) (src : Nat) : Nat := ((s.hub.seqs.find? (·.1 == src)).map (·.2)).getD 0

def State.bumpSeq (s : State) (src : Nat) : State :=
  { s with hub := { s.hub with seqs := (src, s.srcSeq src + 1) :: s.hub.seqs.filter (·.1 != src) } }

/-- An event of a source of 18 Table 18-15, with a message of its own as the payload. -/
def State.hubRecord (s : State) (src cause : Nat) (d0 d1 d2 d3 : Word) : State :=
  (s.bumpSeq src).wire (chanOf (.num src)) (.eventRecordWrite (.num src) (s.srcSeq src) d0 d1 d2 d3 cause)

def State.hubEvent (s : State) (src cause : Nat) (addr detail : Word) : State :=
  s.hubRecord src cause (msgDw0 cause 0 true false false (s.srcSeq src)) addr 0 detail

/-! ### Retries (13 R279) -/

def State.nakCountOf (s : State) (e : Ev) : Nat := ((s.nakCount.find? (·.1 == e)).map (·.2)).getD 0

/-- A request is refused with NAK: it is retried after 16 × 2ᵏ fabric cycles, k the NAKs it has received, at most 8. (DEDUCED, log 16.) -/
def State.nak (s : State) (e : Ev) : State :=
  let k := s.nakCountOf e + 1
  { s with ids := s.ids + 1, naks := s.naks ++ [(s.ids, k, e)], nakCount := (e, k) :: s.nakCount.filter (·.1 != e) }.at_
    (s.now + 2 * 16 * 2 ^ (min k 8)) (.nakRetry s.ids)

/-- The request has been taken. -/
def State.nakDone (s : State) (e : Ev) : State := { s with nakCount := s.nakCount.filter (·.1 != e) }

/-! ### Classes and the device-physical map -/

def classCode : RClass → Nat
  | .full => 0 | .detect => 1 | .none => 2

def granuleBytes : Nat := 4194304
def deviceBytes : Nat := 0x6000000000

/-- The class of a granule (15 R319). -/
def State.cls (s : State) (g : Nat) : RClass := ((s.classes.find? (·.1 == g)).map (·.2)).getD .none

/-- A DPA in a FULL hole (15 R322). -/
def State.hole (s : State) (dpa : Nat) : Bool := s.cls (dpa / granuleBytes) == .full && decide (0x380000 ≤ dpa % granuleBytes)

/-- The media address of a DPA (15 R321). -/
def State.media (s : State) (dpa : Nat) : Nat :=
  let g := dpa / granuleBytes
  let o := dpa % granuleBytes
  g * granuleBytes + (if s.cls g == .full then 512 * (o / 448) + o % 448 else o)

/-- The stack of a media address (15 R318). -/
def State.stackOf (s : State) (m : Nat) : Nat :=
  let shared := 8 * (48 * 2 ^ 30 - s.hub.hbmLs)
  if m < shared then m / 2048 % 8 else 2 * ((m - shared) / (2 * max 1 s.hub.hbmLs)) + m / 2048 % 2

/-- The die whose memory holds a DPA. -/
def State.dieOf (s : State) (dpa : Nat) : Nat := s.stackOf (s.media dpa) / 2 % 4

/-- The home of a frame: a die, 4 the host, 5 a peer device (13 Table 13-6). -/
def State.home (s : State) (pf : PAddr) : Nat :=
  match pf.space with
  | .dev => s.dieOf (pf.addr * 128)
  | .host | .portB => 4
  | .peer _ => 5

/-- The class of a frame's granule; host and peer memory have none (15 R328). -/
def State.frameCls (s : State) (pf : PAddr) : Option RClass :=
  match pf.space with
  | .dev => some (s.cls (pf.addr * 128 / granuleBytes))
  | _ => none

/-- A granule in re-classing (15 R334). -/
def State.reclassing (s : State) (pf : PAddr) : Bool :=
  pf.space == .dev && s.gbusy.any (fun g => g.1 == pf.addr * 128 / granuleBytes || g.2 == pf.addr * 128 / granuleBytes)

/-! ### Memory of the host and of peers -/

def State.extMem (s : State) (sp : Space) : List Host.Cell := ((s.ext.find? (·.1 == sp)).map (·.2)).getD []

def State.setExt (s : State) (sp : Space) (m : List Host.Cell) : State :=
  { s with ext := (sp, m) :: s.ext.filter (·.1 != sp) }

/-- Bytes that their own agents have stored since (log 14). (DESIGN CHOICE, log 14.) -/
def refreshed (draw : Nat) : List Host.Cell → Nat → Nat → List Host.Cell
  | m, _, 0 => m
  | m, a, n + 1 => refreshed draw (match Config.extWrote draw a with | some b => memSet m a b | none => m) (a + 1) n

def State.refresh (s : State) (sp : Space) (a n : Nat) : State :=
  { s with fresh := s.fresh + 1 }.setExt sp (refreshed s.fresh (s.extMem sp) a n)

/-- Bytes of the host's memory, read by the hub, and the state after the read. -/
def State.hostRead (s : State) (a n : Nat) : Nat × State :=
  let s := s.refresh .host a n
  (memRead (s.extMem .host) a n, s)

def State.hostWrite (s : State) (a n v : Nat) : State := s.setExt .host (memWrite (s.extMem .host) a n v)

/-! ### Memory controllers -/

def insertNat (a : Nat) : List Nat → List Nat
  | [] => [a]
  | b :: r => if a < b then a :: b :: r else if a = b then b :: r else b :: insertNat a r

/-- The controller's event source of a DPA (18 Table 18-15): of a die's 16, each stack is served by 8 (01 Table 1-1). -/
def State.mcSource (s : State) (dpa : Nat) : Nat :=
  0x20 + 16 * s.dieOf dpa + 8 * (s.stackOf (s.media dpa) % 2) + Config.controller (dpa / 64) % 8

/-- A controller reads a 64-byte block of device memory: POISON_DETECT (15 R324). -/
def State.detect (s : State) (blk : Nat) : State :=
  match s.errs.find? (·.1 == blk) with
  | none => s
  | some (_, reb) =>
    let s' := { s with errs := s.errs.filter (·.1 != blk) }
    match s.cls (blk * 64 / granuleBytes), reb with
    | .none, _ => s
    | .full, true => s'
    | _, _ => { s' with poison := insertNat blk s'.poison }.hubEvent (s.mcSource (blk * 64)) 0x63 (BitVec.ofNat 64 (blk * 64)) 0

/-- The words of a mask in the lower or the upper half of a frame. -/
def halfMask (m : Mask) (hi : Bool) : Mask := if hi then m &&& 0xFFFF0000 else m &&& 0xFFFF

def wordsOfMask (m : Mask) : List Nat := (List.range 32).filter (fun i => m.getLsbD i)

def maskWhere (f : Nat → Bool) : Mask :=
  BitVec.ofNat 32 ((List.range 32).foldr (fun i acc => if f i then acc ||| 2 ^ i else acc) 0)

/-- The words of a frame of a byte store, as they stand. -/
def frameWords (m : List Host.Cell) (base : Nat) (mask : Mask) (old : Vector W32 32) : Vector W32 32 :=
  (wordsOfMask mask).foldl (fun v i => v.setIfInBounds i (BitVec.ofNat 32 (memRead m (base + 4 * i) 4))) old

def zeroWords : Vector W32 32 := Vector.replicate 32 0

/-- What a home's memory answers for words of a frame: the words, those that are poisoned, and the state after the read. -/
def State.memWords (s : State) (pf : PAddr) (m : Mask) : Vector W32 32 × Mask × State :=
  match pf.space with
  | .dev =>
    let b := pf.addr * 2
    let s := if halfMask m false != 0 then s.detect b else s
    let s := if halfMask m true != 0 then s.detect (b + 1) else s
    let bad := (if s.poison.contains b then halfMask m false else 0) ||| (if s.poison.contains (b + 1) then halfMask m true else 0)
    (frameWords s.mem (pf.addr * 128) m zeroWords, bad, s)
  | sp =>
    let s := s.refresh sp (pf.addr * 128) 128
    (frameWords (s.extMem sp) (pf.addr * 128) m zeroWords, 0, s)

/-- A word with some of its bytes replaced. -/
def mergeW (o n : W32) (be : BitVec 4) : W32 :=
  let m : W32 := (if be.getLsbD 0 then 0xFF else 0) ||| (if be.getLsbD 1 then 0xFF00 else 0) |||
    (if be.getLsbD 2 then 0xFF0000 else 0) ||| (if be.getLsbD 3 then 0xFF000000 else 0)
  (o &&& ~~~m) ||| (n &&& m)

def Put.full (p : Put) : Bool := p.be == 15

/-- Writes of a list into a byte store. -/
def putCells (m : List Host.Cell) (base : Nat) (ps : List Put) : List Host.Cell :=
  ps.foldl (fun m p => memWrite m (base + 4 * p.w) 4
    (mergeW (BitVec.ofNat 32 (memRead m (base + 4 * p.w) 4)) p.v p.be).toNat) m

/-- The block `blk` takes these writes: a full one clears its poison, a masked one keeps it (15 R325). A masked write reads the block first, and
in FULL every write does (R320); a read block is checked (R324). -/
def State.blockPuts (s : State) (blk : Nat) (ps : List Put) : State :=
  if ps.isEmpty then s
  else
    let full := (List.range 16).all (fun i => ps.any (fun p => p.w % 16 == i && p.full))
    let s := if !full || s.cls (blk * 64 / granuleBytes) == .full then s.detect blk else s
    let s := if full then { s with poison := s.poison.filter (· != blk), errs := s.errs.filter (·.1 != blk) } else s
    if ps.any (·.bad) then { s with poison := insertNat blk s.poison } else s

/-- A store to the frame of an unmet tile flag has the dispatcher read it again (18 R383). -/
def State.flagSeen (s : State) (pf : PAddr) : State :=
  { s with agenda := s.agenda ++ (s.hub.recs.filter (fun (r : Rec) => r.current && r.flagFrames.contains pf)).map (fun (r : Rec) => Ev.tileFlagReread r.q) }

/-- Writes reach a home's memory. -/
def State.memPuts (s : State) (pf : PAddr) (ps : List Put) : State :=
  match pf.space with
  | .dev =>
    let s := s.blockPuts (pf.addr * 2) (ps.filter (fun p => p.w < 16))
    let s := s.blockPuts (pf.addr * 2 + 1) (ps.filter (fun p => 16 ≤ p.w))
    ({ s with mem := putCells s.mem (pf.addr * 128) ps } : State).flagSeen pf
  | sp => (s.setExt sp (putCells (s.extMem sp) (pf.addr * 128) ps)).flagSeen pf

/-- A write-back of words: into a FULL hole it is discarded, with event 0x67 (15 R322). -/
def State.memBack (s : State) (pf : PAddr) (ps : List Put) : State :=
  if ps.isEmpty then s
  else if pf.space == .dev && s.hole (pf.addr * 128) then
    s.hubEvent (s.mcSource (pf.addr * 128)) 0x67 (BitVec.ofNat 64 (pf.addr * 128)) 0
  else s.memPuts pf ps

/-! ### Words and bytes of a frame -/

/-- The writes of an aligned datum of n bytes at an offset in its frame. -/
def putsOf (off n v : Nat) : List Put :=
  if n < 4 then
    [⟨off / 4, BitVec.ofNat 32 (v % 2 ^ (8 * n) * 2 ^ (8 * (off % 4))), BitVec.ofNat 4 ((2 ^ n - 1) * 2 ^ (off % 4)), false⟩]
  else (List.range (n / 4)).map (fun i => ⟨off / 4 + i, BitVec.ofNat 32 (v / 2 ^ (32 * i)), 15, false⟩)

/-- The words that a list writes. -/
def putMask (ps : List Put) : Mask := ps.foldl (fun m p => m ||| BitVec.ofNat 32 (2 ^ p.w)) 0

/-- The words that a datum of n bytes at an offset names. -/
def datumMask (off n : Nat) : Mask := maskWhere (fun i => decide (off / 4 ≤ i) && decide (i * 4 < off + n))

def applyPuts (v : Vector W32 32) (ps : List Put) : Vector W32 32 :=
  ps.foldl (fun v p => v.setIfInBounds p.w (mergeW (v.toList.getD p.w 0) p.v p.be)) v

/-- The datum of n bytes at an offset of a frame. -/
def datumOf (v : Vector W32 32) (off n : Nat) : Nat :=
  let l := v.toList
  let raw := (List.range ((n + 3) / 4)).foldr (fun i acc => acc * 2 ^ 32 + (l.getD (off / 4 + i) 0).toNat) 0
  raw / 2 ^ (8 * (off % 4)) % 2 ^ (8 * n)

end Sys2Proof.Machine
end

