-- ==== Sys2Proof/Machine/Xlate.lean ====
section
/-! DEFINITION. Xlate.lean: lines of the caches, current values at a home, stores at a home (13 R283), the window table and the
Sv57 walk (16 R345 to R349; 19 R420). -/

namespace Sys2Proof.Machine

/-! ### Lines -/

def State.l1At (s : State) (p asid vf : Nat) : Option L1Line :=
  s.l1.find? (fun l => l.p == p && l.vf == vf && (l.asid == asid || l.asid == 0))

def State.l2At (s : State) (die asid vf : Nat) : Option L2Line :=
  s.l2.find? (fun l => l.die == die && l.vf == vf && (l.asid == asid || l.asid == 0))

def L1Line.same (a b : L1Line) : Bool := a.p == b.p && a.asid == b.asid && a.vf == b.vf
def L2Line.same (a b : L2Line) : Bool := a.die == b.die && a.asid == b.asid && a.vf == b.vf

def State.setL1 (s : State) (l : L1Line) : State := { s with l1 := s.l1.map (fun x => if x.same l then l else x) }
def State.setL2 (s : State) (l : L2Line) : State := { s with l2 := s.l2.map (fun x => if x.same l then l else x) }

def L2Line.stAt (l : L2Line) (i : Nat) : WordState := l.st.toList.getD i .i
def L2Line.word (l : L2Line) (i : Nat) : W32 := l.words.toList.getD i 0
def L1Line.word (l : L1Line) (i : Nat) : W32 := l.words.toList.getD i 0

/-- The words of a line whose state passes a test. -/
def L2Line.where_ (l : L2Line) (f : WordState → Bool) : Mask := maskWhere (fun i => f (l.stAt i))

def WordState.valid : WordState → Bool
  | .c | .d => true
  | _ => false

/-- Sets the state of the words of a mask. -/
def L2Line.mark (l : L2Line) (m : Mask) (f : Nat → WordState) : L2Line :=
  { l with st := Vector.ofFn (fun i => if m.getLsbD i.val then f i.val else l.stAt i.val) }

/-- Takes words of a mask from another frame image. -/
def pickWords (m : Mask) (new old : Vector W32 32) : Vector W32 32 :=
  Vector.ofFn (fun i => if m.getLsbD i.val then new.toList.getD i.val 0 else old.toList.getD i.val 0)

/-! ### Reservations (13 R293) -/

/-- Clears the reservations on words of a frame that a test selects. -/
def State.clearResv (s : State) (pf : PAddr) (m : Mask) (hits : UKey → Nat → ResvPlace → Bool) : State :=
  { s with units := s.units.map (fun u =>
      if u.lanes.any (fun l => l.resv.isSome) then
        { u with lanes := u.lanes.mapIdx (fun i l => match l.resv with
            | some r => if r.pf == pf && r.mask &&& m != 0 && hits u.id i r.place then { l with resv := none } else l
            | none => l) }
      else u) }

/-- A store or an atomic by an agent takes effect: reservations of every other agent on the words are cleared. -/
def State.storeClears (s : State) (pf : PAddr) (m : Mask) (by_ : Option UKey) (lane : Nat) : State :=
  s.clearResv pf m (fun u l _ => !(some u == by_ && l == lane))

/-! ### Recalls inside a die (13 Table 13-3) -/

/-- The L1 of pipeline p gives up the owned words of a mask of a line, its dirty words written back to the slice. -/
def State.recallL1 (s : State) (l : L2Line) (p : Nat) (m : Mask) : State :=
  match s.l1At p l.asid l.vf with
  | none => s.setL2 (l.mark (m &&& l.where_ (· == .l p)) (fun _ => .c))
  | some a =>
    let mine := m &&& l.where_ (· == .l p)
    let dirty := mine &&& a.dirty
    let l' := { (l.mark mine (fun i => if a.dirty.getLsbD i then .d else .c)) with
      words := pickWords dirty a.words l.words, poison := (l.poison &&& ~~~dirty) ||| (a.poison &&& dirty) }
    ((s.setL2 l').setL1 { a with owned := a.owned &&& ~~~mine, dirty := a.dirty &&& ~~~mine }).clearResv l.pf mine
      (fun _ _ pl => pl == .l1 p)

/-- Recalls the words of a mask from every L1 that owns one of them, except the L1 of pipeline `keep`. -/
def State.recallLine (s : State) (l : L2Line) (m : Mask) (keep : Option Nat) : State :=
  ((wordsOfMask m).filterMap (fun i => match l.stAt i with
      | .l p => if some p == keep then none else some p
      | _ => none)).eraseDups.foldl
    (fun s p => match s.l2.find? (fun x => x.same l) with
      | some l => s.recallL1 l p m
      | none => s) s

/-! ### Values at the home -/

/-- The dirty words that a line holds, as writes. -/
def L2Line.dirtyPuts (l : L2Line) (m : Mask) : List Put :=
  (wordsOfMask (m &&& l.where_ (· == .d))).map (fun i => ⟨i, l.word i, 15, l.poison.getLsbD i⟩)

/-- The words of a mask that a write-back buffer entry still holds, as writes. -/
def WbEnt.puts (b : WbEnt) (m : Mask) : List Put :=
  (wordsOfMask (b.m &&& m)).map (fun i => ⟨i, b.words.toList.getD i 0, 15, b.poison.getLsbD i⟩)

/-- The words of a mask of a frame that stand in the write-back buffers of the dies of a test are applied at the home (13 R280): a WBK that
reaches the home later finds them gone. -/
def State.drainWb (s : State) (pf : PAddr) (m : Mask) (who : Nat → Bool) : State :=
  let mine := fun (b : WbEnt) => b.pf == pf && who b.die
  let s' := (s.wbufs.filter mine).foldl (fun s b => s.memBack pf (b.puts m)) s
  { s' with wbufs := s'.wbufs.map (fun b => if mine b then { b with m := b.m &&& ~~~m } else b) }

/-- Brings every dirty or owned word of a mask of a frame, wherever a cache of a die other than `keep` holds it, to the home: the caches keep
clean copies. -/
def State.pullBut (s : State) (pf : PAddr) (m : Mask) (keep : Option Nat) : State :=
  let s := s.drainWb pf m (fun d => some d != keep)
  let lines := s.l2.filter (fun l => l.pf == pf && some l.die != keep)
  let s := lines.foldl (fun s l => match s.l2.find? (fun x => x.same l) with
    | some l => s.recallLine l m none
    | none => s) s
  lines.foldl (fun s l => match s.l2.find? (fun x => x.same l) with
    | some l =>
      let ps := l.dirtyPuts m
      if ps.isEmpty then s else (s.memBack pf ps).setL2 (l.mark (putMask ps) (fun _ => .c))
    | none => s) s

def State.pull (s : State) (pf : PAddr) (m : Mask) : State := s.pullBut pf m none

/-- The current words of a frame at its home. -/
def State.homeWords (s : State) (pf : PAddr) (m : Mask) : Vector W32 32 × Mask × State := (s.pull pf m).memWords pf m

def State.entry? (s : State) (pf : PAddr) : Option DirEnt := s.dir.find? (fun e => e.pf == pf)

/-- Poison of the words of a frame after writes. -/
def poisonAfter (old : Mask) (ps : List Put) : Mask :=
  ps.foldl (fun m p => if p.bad then m ||| BitVec.ofNat 32 (2 ^ p.w)
                       else if p.full then m &&& ~~~(BitVec.ofNat 32 (2 ^ p.w)) else m) old


/-! ### Assay formats (13 R283, R284) -/

def AssayTy : AssayFmt → Option Ty
  | .exact => none
  | .bf16 => some .bf16
  | .f16 => some .f16
  | .e4m3 => some .e4m3
  | .e5m2 => some .e5m2

/-- The rounded pattern of a word at a format. -/
def roundTo (f : AssayFmt) (w : W32) : Nat :=
  match AssayTy f with
  | none => w.toNat
  | some t => (t.write false .rne (f == .e4m3) false 0 (Ty.read .f32 false false w.toNat)).1

/-- The FP32 pattern that a die of a format holds for a word. -/
def heldAs (f : AssayFmt) (w : W32) : W32 :=
  match AssayTy f with
  | none => w
  | some t => BitVec.ofNat 32 (Ty.write .f32 false .rne false false 0 (t.read false false (roundTo f w))).1

/-- Every value of `g` is a value of `f` (13 R285): the change from f to g is silent. -/
def silentChange (f g : AssayFmt) : Bool :=
  f == g || f == .exact || ((f == .f16 || f == .bf16) && (g == .e4m3 || g == .e5m2))

/-! ### The directory's records -/

def State.setEntry (s : State) (e : DirEnt) : State := { s with dir := s.dir.map (fun x => if x.pf == e.pf then e else x) }
def State.dropEntry (s : State) (pf : PAddr) : State := { s with dir := s.dir.filter (fun x => x.pf != pf) }

def DirEnt.sharer (e : DirEnt) (x : Nat) : Sharer := e.sharers.toList.getD x Sharer.none
def DirEnt.setSharer (e : DirEnt) (x : Nat) (r : Sharer) : DirEnt :=
  let v := e.sharers.setIfInBounds x r
  { e with sharers := v, held := v.toList.any (fun r => r.mask != 0 && r.fmt != .exact) }

/-- The die owns the words (13 R270): a store there needs no message. In O another die holds copies, so it does not. -/
def State.owns (s : State) (die : Nat) (pf : PAddr) (m : Mask) : Bool :=
  match s.entry? pf with
  | some e => (e.st == .e || e.st == .m) && e.owner == die && m &&& ~~~e.own == 0
  | none => false

/-- Writes at the home: memory, and the copies of the home die's own slices of a frame without an entry. Where the frame has one, the home die
is a sharer and is sent INV as any other (13 R275, R283). -/
def State.homePuts (s : State) (pf : PAddr) (ps : List Put) : State :=
  let h := s.home pf
  let alone := (s.entry? pf).isNone
  let s := s.memPuts pf ps
  { s with l2 := s.l2.map (fun l => if alone && l.pf == pf && l.die == h then
      let ok := ps.filter (fun p => (l.stAt p.w).valid)
      { l with words := applyPuts l.words ok, poison := poisonAfter l.poison ok }
    else l) }

/-- The slice of the directory that a frame hashes to has failed (13 R282). -/
def frameCode (pf : PAddr) : Nat :=
  4 * pf.addr + (match pf.space with | .dev => 0 | .host => 1 | .portB => 2 | .peer _ => 3)

def dirSliceOf (pf : PAddr) : Nat := Config.dirSlice (frameCode pf) % 16
def State.sliceDown (s : State) (pf : PAddr) : Bool := s.slicesDown.contains (dirSliceOf pf)

/-- A frame that its home die alone caches (13 R270), or whose directory slice has failed (R282). -/
def State.homeLocal (s : State) (die : Nat) (pf : PAddr) : Bool :=
  pf.space == .dev && s.home pf == die && (s.sliceDown pf || ((s.entry? pf).isNone && !s.dirBits.contains pf))

/-- A new transaction, which ends at the last of `n` acknowledgements. -/
def State.newTxn (s : State) (pf : PAddr) (n : Nat) (fin : TxnFin) : Nat × State :=
  (s.ids, { s with ids := s.ids + 1, txns := s.txns ++ [⟨s.ids, pf, n, fin⟩] })

/-- The messages that a store of these words owes the sharers, all but the storing die (13 R283), as sharer and word. -/
def DirEnt.owed (e : DirEnt) (storer : Option Nat) (old new : Vector W32 32) (m : Mask) : List (Nat × Nat) :=
  (List.range 6).flatMap (fun x =>
    if some x == storer then []
    else
      let r := e.sharer x
      ((wordsOfMask (m &&& r.mask)).filter (fun i =>
        let a := old.toList.getD i 0
        let b := new.toList.getD i 0
        if r.fmt == .exact then a != b
        else roundTo r.fmt a != roundTo r.fmt b)).map (fun i => (x, i)))

/-- Sends the INVs and UPDs of a store at the home, with its poison (15 R324), and says what follows their last acknowledgement; the number
sent. -/
def State.notifyStore (s : State) (pf : PAddr) (storer : Option Nat) (old new : Vector W32 32) (bad m : Mask) (fin : TxnFin) :
    Nat × State :=
  match s.entry? pf with
  | none => (0, s)
  | some e =>
    let owed := e.owed storer old new m
    let upds := owed.filter (fun q => (e.sharer q.1).mode)
    let invs := ((owed.filter (fun q => !(e.sharer q.1).mode)).map (·.1)).eraseDups.map (fun x =>
      (x, maskWhere (fun i => owed.contains (x, i))))
    let n := upds.length + invs.length
    if n = 0 then (0, s)
    else
      let (t, s) := s.newTxn pf n fin
      let s := upds.foldl (fun s q => s.wire (toSharer q.1)
        (.upd q.1 pf q.2 (heldAs (e.sharer q.1).fmt (new.toList.getD q.2 0)) (bad.getLsbD q.2) t)) s
      let s := invs.foldl (fun s q => s.wire (toSharer q.1) (.inv q.1 pf q.2 t)) s
      let e := invs.foldl (fun e q =>
        let r := e.sharer q.1
        if r.sub then e else e.setSharer q.1 { r with mask := r.mask &&& ~~~q.2 }) e
      (n, s.setEntry e)

/-! ### Physical addresses -/

def State.window (s : State) (i dw : Nat) : Word := s.hub.windows.toList.getD (4 * i + dw) 0

/-- The valid outbound windows, in order, as a range of physical addresses and where the first of it leads (19 R420). -/
def State.windows (s : State) : List (Nat × Nat × PAddr) :=
  (List.range 64).filterMap (fun i =>
    let d0 := s.window i 0
    let base := (d0.extractLsb' 12 40).toNat
    let last := ((s.window i 1).extractLsb' 12 40).toNat
    let first := (s.window i 2).toNat
    if d0.getLsbD 63 && !d0.getLsbD 62 then
      (match (d0.extractLsb' 59 3).toNat with
        | 0 => some Space.dev
        | 1 => some Space.host
        | 2 => some Space.portB
        | 3 => some (Space.peer ((s.window i 3).extractLsb' 46 18).toNat)
        | _ => none).map (fun sp => (base * 4096, last * 4096 + 4095, (⟨sp, first⟩ : PAddr)))
    else none)

/-- A physical address as a list of windows classifies it (16 R345): by the first that holds it; a DPA beyond device memory is unmapped. -/
def classifyBy (ws : List (Nat × Nat × PAddr)) (pa : Nat) : Option PAddr :=
  if 2 ^ 52 ≤ pa then none
  else (ws.find? (fun w => decide (w.1 ≤ pa) && decide (pa ≤ w.2.1))).bind (fun w =>
    let a := (w.2.2.addr + (pa - w.1)) % 2 ^ 64
    if w.2.2.space == .dev && decide (deviceBytes ≤ a) then none else some ⟨w.2.2.space, a⟩)

/-- A physical address as the window table now classifies it (16 R345, 19 R420). -/
def State.classify (s : State) (pa : Nat) : Option PAddr := classifyBy s.windows pa

end Sys2Proof.Machine

/-- The frame of a physical address. -/
def Sys2Proof.PAddr.frameOf (a : PAddr) : PAddr := { a with addr := a.addr / 128 }

namespace Sys2Proof.Machine

/-- Reads an aligned datum of n bytes at its home. -/
def State.homeRead (s : State) (a : PAddr) (n : Nat) : Nat × State :=
  let (v, _, s) := s.homeWords a.frameOf (datumMask (a.addr % 128) n)
  (datumOf v (a.addr % 128) n, s)

/-! ### Routes (19 R428) -/

/-- The link on which a message to a device leaves: of the first valid entry that names it and has a link that is up. -/
def State.route (s : State) (dst frame : Nat) : Option Nat :=
  s.hub.routes.toList.findSome? (fun (e : Word) =>
    let up := (List.range 8).filter (fun i => e.getLsbD i && ((s.hub.links.toList[i]?).map (·.up)).getD false)
    if e.getLsbD 63 && dst % 2 ^ 18 &&& (e.extractLsb' 24 18).toNat == (e.extractLsb' 44 18).toNat && !up.isEmpty then
      up[Config.linkChoice (2 ^ 18 * (2 ^ 18 * frame + s.devnum % 2 ^ 18) + dst % 2 ^ 18) % up.length]?
    else none)

/-- A frame of a device to which no route leads. -/
def State.unreachable (s : State) (pf : PAddr) : Bool :=
  match pf.space with
  | .peer n => (s.route n pf.addr).isNone
  | _ => false

/-! ### The walk (16 R347, R348) -/

/-- How a walk ends. -/
inductive WalkRes where
  | leaf (pte : Word) (level : Nat) (at_ : PAddr)
  | fault (cause level : Nat)
  | mig (level : Nat)
deriving DecidableEq, Repr

def vpn (va i : Nat) : Nat := va / 2 ^ (12 + 9 * i) % 512

/-- The walk from a table at level i − 1 down. -/
def State.walkFrom (va : Nat) : Nat → Nat → State → WalkRes × State
  | 0, _, s => (.fault 0x74 0, s)
  | i + 1, tab, s =>
    match s.classify (tab + 8 * vpn va i) with
    | none => (.fault 0x75 i, s)
    | some a =>
      let (v, s) := s.homeRead a 8
      let pte : Word := BitVec.ofNat 64 v
      let b := fun k => pte.getLsbD k
      if !b 0 then (if b 8 then .mig i else .fault 0x71 i, s)
      else if pte.extractLsb' 54 7 != 0 || pte.extractLsb' 61 2 == 3 || (!b 1 && b 2) then (.fault 0x74 i, s)
      else if b 1 || b 3 then (.leaf pte i a, s)
      else if i == 0 || b 63 || b 7 || b 6 || b 4 then (.fault 0x74 i, s)
      else State.walkFrom va i ((pte.extractLsb' 10 44).toNat * 4096) s

/-- What an access needs of a leaf. -/
inductive Need where
  | read | exec | write
deriving DecidableEq, Repr

/-- The page size of a leaf. -/
def pageSize (pte : Word) (level : Nat) : Nat := if pte.getLsbD 63 then 65536 else 2 ^ (12 + 9 * level)

/-- The physical address that a leaf gives. -/
def leafPa (pte : Word) (level va : Nat) : Nat :=
  let sz := pageSize pte level
  (pte.extractLsb' 10 44).toNat * 4096 / sz * sz + va % sz

/-- The permissions of R348 that the low byte of a leaf grants. -/
def permits (perm : BitVec 8) (need : Need) (super : Bool) : Bool :=
  (match need with
    | .read => perm.getLsbD 1
    | .exec => perm.getLsbD 3
    | .write => perm.getLsbD 1 && perm.getLsbD 2) && (super || perm.getLsbD 4)

/-- What a translation comes to. -/
inductive XlRes where
  | ok (x : Xl) (size : Nat) (pte : Word) (level : Nat) (at_ : PAddr)
  | fault (cause level : Nat)
  | mig (level : Nat)
  | later
deriving DecidableEq, Repr

/-- What a leaf means for an address under a classification; the granule's class is that of the class table. -/
def State.leafXl (s : State) (ws : List (Nat × Nat × PAddr)) (pte : Word) (pa : Nat) : Option Xl :=
  (classifyBy ws pa).map (fun a => ⟨a.frameOf, pte.extractLsb' 0 8, pte.extractLsb' 61 2 != 0, s.frameCls a.frameOf, pte.getLsbD 5⟩)

/-- How an AD_UPDATE ends. -/
inductive AdRes where
  | done (pte : Word)
  | gone                             -- it finds V = 0
  | later
deriving DecidableEq, Repr

/-- AD_UPDATE: the walker sets bits of the PTE in memory, as it now stands, at its home (16 R348): by an atomic OR, and at the host by a CAS
that is retried until it succeeds or finds V = 0. While the directory is busy with the frame the walk is made again. -/
def State.adUpdate (s : State) (a : PAddr) (set : Word) : AdRes × State :=
  let pf := a.frameOf
  let off := a.addr % 128
  let m := datumMask off 8
  if s.reclassing pf || (match s.entry? pf with | some e => e.busy | none => false) then (.later, s)
  else
    let (old, bad, s) := s.homeWords pf m
    let now : Word := BitVec.ofNat 64 (datumOf old off 8)
    let d := s.fresh
    let s := if pf.space == .host then { s with fresh := s.fresh + 1 } else s
    if pf.space == .host && !now.getLsbD 0 then (.gone, s)
    else if pf.space == .host && !Config.hostCasHits d then (.later, s)
    else
      let ps := (putsOf off 8 (now ||| set).toNat).map (fun p => { p with bad := bad.getLsbD p.w })
      let s := (s.homePuts pf ps).storeClears pf m none 0
      (.done (now ||| set), (s.notifyStore pf none old (applyPuts old ps) (bad &&& m) m .nothing).2)

/-- An entry of the ASID table (16 R341): its root, fwd and ad bits; none: invalid. -/
def State.asidEntry (s : State) (asid : Nat) : Option (Nat × Bool × Bool) × State :=
  let base := (s.hub.asidtab.toNat / 2 ^ 20 * 2 ^ 20) % 2 ^ 52 + 16 * asid
  if deviceBytes ≤ base then (none, s)
  else
    let (v, s) := s.homeRead ⟨.dev, base⟩ 16
    let lo : Word := BitVec.ofNat 64 v
    let hi : Word := BitVec.ofNat 64 (v / 2 ^ 64)
    if lo.extractLsb' 60 4 != 10 || lo.extractLsb' 44 16 != 0 || hi.extractLsb' 0 62 != 0 then (none, s)
    else (some ((lo.extractLsb' 0 44).toNat, hi.getLsbD 63, hi.getLsbD 62), s)

/-- What a leaf that stands at `a` comes to for an access: the checks of R348, the setting of A and D, and the classification under `ws`. -/
def State.useLeaf (s : State) (pte : Word) (i : Nat) (a : PAddr) (ws : List (Nat × Nat × PAddr)) (ad : Bool) (va : Nat) (need : Need)
    (super : Bool) : XlRes × State :=
  if !permits (pte.extractLsb' 0 8) need super then (.fault 0x72 i, s)
  else
    let lacks := !pte.getLsbD 6 || (need == .write && !pte.getLsbD 7)
    let set : Word := 0x40 ||| (if need == .write then 0x80 else 0)
    if lacks && !ad then (.fault 0x73 i, s)
    else
      match (if lacks then s.adUpdate a set else (.done pte, s)) with
      | (.later, s) => (.later, s)
      | (.gone, s) => (.fault 0x71 i, s)
      | (.done _, s) =>
        match s.leafXl ws pte (leafPa pte i va) with
        | none => (.fault 0x75 i, s)
        | some x => (.ok x (pageSize pte i) (pte ||| set) i a, s)

/-- The walk of R347 with the checks of R348 and the classification of R345. -/
def State.walk (s : State) (asid va : Nat) (need : Need) (super : Bool) : XlRes × State :=
  match s.asidEntry asid with
  | (none, s) => (.fault 0x74 5, s)
  | (some (root, _, ad), s) =>
    match State.walkFrom va 5 (root * 4096) s with
    | (.fault c l, s) => (.fault c l, s)
    | (.mig l, s) => (.mig l, s)
    | (.leaf pte i a, s) =>
      let ppn := (pte.extractLsb' 10 44).toNat
      if ppn % 2 ^ (9 * i) != 0 || (pte.getLsbD 63 && (i != 0 || ppn % 16 != 8)) then (.fault 0x74 i, s)
      else s.useLeaf pte i a s.windows ad va need super

/-! ### TLBs (16 R343, R349) -/

def unitOfVa (va : Nat) : Nat := Config.xlateUnit (va / 4096) % 16

/-- The leaf that the unit holds for an address. -/
def State.cachedLeaf (s : State) (die asid va : Nat) : Option TlbEnt :=
  s.tlb.find? (fun t => t.die == die && t.unit == unitOfVa va && (t.asid == asid || t.asid == 0) && decide (t.base ≤ va) &&
      decide (va < t.base + t.size))

/-- A translation that a cached leaf gives at once, under the classification with which it was cached (19 R425). A store to a leaf whose D bit is
clear needs the walker. -/
def State.tlbHit (s : State) (die asid va : Nat) (need : Need) (super : Bool) : Option Xl :=
  (s.cachedLeaf die asid va).bind (fun t =>
    if permits (t.pte.extractLsb' 0 8) need super && (need != .write || t.pte.getLsbD 7) then
      s.leafXl t.wins t.pte (t.pa + (va - t.base))
    else none)

/-- The parts of windows that touch a range of physical addresses. -/
def windowsOver (ws : List (Nat × Nat × PAddr)) (pa size : Nat) : List (Nat × Nat × PAddr) :=
  ws.filter (fun w => decide (w.1 < pa + size) && decide (pa ≤ w.2.1))

/-- A unit takes a leaf into its TLB; a full TLB gives one up (log 8). -/
def State.tlbFill (s : State) (die asid va size : Nat) (x : Xl) (pte : Word) (pa level : Nat) (at_ : PAddr) (ws : List (Nat × Nat × PAddr)) : State :=
  let base := va / size * size
  let mine := s.tlb.filter (fun t => !(t.die == die && t.unit == unitOfVa va && t.base == base && t.size == size &&
    t.asid == (if x.glob then 0 else asid)))
  let here := mine.filter (fun t => t.die == die && t.unit == unitOfVa va)
  let mine := if here.length < 4096 then mine else
    (match here[Config.victim s.fresh % 4096]? with | some v => mine.filter (fun t => t != v) | none => mine)
  { s with tlb := ⟨die, unitOfVa va, if x.glob then 0 else asid, base, size, pa, pte, level, at_, windowsOver ws pa size⟩ :: mine,
           fresh := s.fresh + 1 }

end Sys2Proof.Machine
end

