-- ==== Sys2Proof/Machine/Image.lean ====
section
/-! DEFINITION. Image.lean: the image of a unit in its save area (18 R379, R395, R402, R461). -/

namespace Sys2Proof.Machine

/-- The queue status word (11 Table 11-3). -/
def QReg.status (r : QReg) : Word :=
  BitVec.ofNat 64 ((r.bound.getD 0) * 2 ^ 48 + (if r.bound.isSome then 2 ^ 47 else 0) + (if r.err then 2 ^ 46 else 0) + r.last % 16 * 2 ^ 32 +
    r.infl % 256 * 2 ^ 24 + r.resvd % 256 * 2 ^ 16 + (8 - r.ents.length - r.resvd) * 2 ^ 8 + r.ents.length)

/-- Scoreboard counters packed 6 bits each (18 Table 18-2). -/
def HwUnit.packSb (u : HwUnit) : Word := BitVec.ofNat 64 (u.sb.toList.foldr (fun c acc => acc * 64 + c.toNat) 0)

def unpackSb (v : Word) : Vector (BitVec 6) 6 := Vector.ofFn (fun i => v.extractLsb' (6 * i.val) 6)

/-- The queue image of R461. -/
def QReg.image (r : QReg) : List Word :=
  [r.status, match r.bar with | some b => (b &&& ~~~(15 : Word)) ||| 1 | none => 0] ++ (List.range 8).map (fun i => ((r.ents[i]?).map (·.1)).getD 0)

/-- A divergence-stack entry (R461); the address of a clause header or of a JOIN has bits [2:0] zero. -/
def DivEntry.image (x : DivEntry) : List Word :=
  laneDws x.s ++ laneDws x.m ++ [(x.pc &&& ~~~(7 : Word)) ||| (if x.two then 1 else 0)]

/-- The progress state (18 R402); `p`: what stands for the counter. -/
def HwUnit.progress (u : HwUnit) : List Word :=
  [u.prog.setWidth 64, u.prog0.setWidth 64, u.resid,
   BitVec.ofNat 64 ((if u.taint then 1 else 0) + u.stack.length % 64 * 2 ^ 8)]

/-- Where xj of a lane stands in the area: member by member, the rows of each in turn (05 R93, 18 Table 18-2). -/
def HwUnit.laneOff (u : HwUnit) (l j : Nat) : Nat :=
  if u.team then 0x18000 + 8 * (l % max 1 u.w * (u.n / max 1 u.w * u.k) + l / max 1 u.w * u.k + j) else 0x200 + 8 * j

/-- Four 16-bit predicate registers to a doubleword. -/
def HwUnit.predDws (u : HwUnit) : List Word :=
  (List.range ((u.n + 3) / 4)).map (fun i => BitVec.ofNat 64 ((List.range 4).foldr (fun j acc =>
    acc * 65536 + (if 4 * i + j < u.n then ((u.lane (4 * i + j)).p ||| 1).toNat else 0)) 0))

/-- What a save holds, as runs of doublewords at offsets, but for the operand log. (DEDUCED, log 25.) -/
def HwUnit.image (u : HwUnit) : List (Nat × List Word) :=
  [(0x40, [u.fpstat, u.seed.setWidth 64, if u.team then u.splitpol else 0, u.gang, BitVec.ofNat 64 u.asid, u.retired, u.packSb, u.idem.getD 0]),
   (0x180, (List.range 4).flatMap (fun i => match u.inbox[i]? with | some m => [m.dw0, m.dw1, m.dw2, m.dw3] | none => [0, 0, 0, 0]))] ++
  (if u.team then
    [(0x200, laneDws u.active ++ laneDws u.done ++ laneDws u.exited), (0x400, u.predDws)] ++
    (List.range 16).map (fun q => (0xC00 + 80 * q, (u.q.toList.getD q QReg.reset).image)) ++
    [(0x1100, u.progress)] ++
    (List.range 32).map (fun e => (0x2000 + 264 * e, match u.stack.reverse[e]? with | some x => x.image | none => List.replicate 33 0)) ++
    (List.range u.n).map (fun l => (u.laneOff l 0, (List.range u.k).map (fun j => (u.lane l).X (BitVec.ofNat 6 j))))
  else
    [(0x200, (List.range 64).map (fun j => (u.lane 0).X (BitVec.ofNat 6 j))), (0x400, u.predDws),
     (0x800, u.v.toList.flatMap (fun r => (List.range 8).map (fun k => r.extractLsb' (64 * k) 64)))])

/-- The operand-log entries in use, as runs of doublewords at offsets: implementation state, so free values from the draw `n` on (18 R461).
(DEDUCED, log 25.) -/
def HwUnit.logImage (u : HwUnit) (n : Nat) : List (Nat × List Word) :=
  let size := if u.team then 128 else 16
  (List.range u.logged.length).map (fun e =>
    ((if u.team then 0x8000 else 0x1000) + 8 * size * e, (List.range size).map (fun i => Config.logWord (n + size * e + i))))

/-- Writes the whole of a save area. (DEDUCED, log 25.) -/
def State.writeImage (s : State) (k : UKey) : State :=
  match s.unit? k with
  | none => s
  | some u =>
    if u.area = 0 then s
    else
      let n := s.fresh
      let s : State := { s with fresh := n + 128 * u.logged.length }
      (u.image ++ u.logImage n).foldl (fun s (r : Nat × List Word) => s.w64s (u.area + r.1) r.2) (s.writeArea k)

/-! ### Reading an image -/

/-- Every copy of an area's words goes home. -/
def State.pullArea (s : State) (a n : Nat) : State :=
  let mine := fun (pf : PAddr) => pf.space == .dev && decide (a / 128 ≤ pf.addr) && decide (pf.addr < (a + n + 127) / 128)
  (((s.l2.map (·.pf)).filter mine).eraseDups).foldl (fun s pf => s.pull pf 0xFFFFFFFF) s

def State.dws (s : State) (a n : Nat) : List Word := (List.range n).map (fun i => s.r64 (a + 8 * i))

/-- A set of lanes of 16 doublewords; lanes from N on read as zero (05 R97). -/
def ofLaneDws (n : Nat) (ws : List Word) : LaneSet :=
  BitVec.ofNat 1024 (ws.foldr (fun w acc => acc * 2 ^ 64 + w.toNat) 0 % 2 ^ min n 1024)

/-- A lane as its image gives it. -/
def Lane.ofImage (l : Lane) (k : Nat) (xs : List Word) (p : Nat) : Lane :=
  { l with x := Vector.ofFn (fun i => if i.val = 0 then 0 else if i.val < k then xs.getD i.val 0 else l.x[i.val]), p := BitVec.ofNat 16 p ||| 1 }

/-- A queue register with the entries and the barrier of its image; its counts are the hardware's. -/
def QReg.ofImage (r : QReg) (ws : List Word) : QReg :=
  { r with ents := r.ents.mapIdx (fun i e => (ws.getD (2 + i) e.1, e.2)),
           bar := if (ws.getD 1 0).getLsbD 0 then some (ws.getD 1 0 &&& ~~~(15 : Word)) else none }

/-- A stack entry as its image gives it; `old`: where it stood, which tells the clause of a JOIN. -/
def DivEntry.ofImage (n : Nat) (old : List DivEntry) (ws : List Word) : DivEntry :=
  let pc := ws.getD 32 0
  let two := pc.getLsbD 0
  let at_ := pc &&& ~~~(7 : Word)
  ⟨ofLaneDws n (ws.take 16), ofLaneDws n ((ws.drop 16).take 16), at_, two,
   ((old.find? (fun x => x.two == two && x.pc == at_)).map (·.hd)).getD 0⟩

/-- A unit as its image gives it. The header's fields are read-only: they stay (18 Table 18-3), and reserved fields read as zero (00 R4).
(DEDUCED, log 25.) -/
def HwUnit.ofImage (u : HwUnit) (s : State) : HwUnit :=
  let a := u.area
  let g := s.dws (a + 0x40) 8
  let idem := g.getD 7 0
  let msgs := ((List.range 4).map (fun i => match s.dws (a + 0x180 + 32 * i) 4 with
    | [d0, d1, d2, d3] => (⟨d0, d1, d2, d3⟩ : Msg)
    | _ => ⟨0, 0, 0, 0⟩)).takeWhile (fun m => m.dw0.extractLsb' 56 8 != 0)
  let u := { u with
    fpstat := g.getD 0 0 &&& 0x71F1F, seed := (g.getD 1 0).setWidth 32, splitpol := if u.team then g.getD 2 0 &&& 0xFF else u.splitpol,
    gang := g.getD 3 0 &&& 0x0FFFFFFFFFFFFFFF, asid := (g.getD 4 0).toNat % 2 ^ 16, retired := g.getD 5 0, sb := unpackSb (g.getD 6 0),
    idem := if idem = 0 ∧ u.idem != some 0 then none else some idem, inbox := msgs,
    lanes := u.lanes.mapIdx (fun (l : Nat) (x : Lane) => x.ofImage u.k (s.dws (a + u.laneOff l 0) u.k) (memRead s.mem (a + 0x400 + 2 * l) 2)) }
  if u.team then
    let pr := s.dws (a + 0x1100) 4
    let depth := min 32 ((pr.getD 3 0).extractLsb' 8 6).toNat
    { u with
      active := ofLaneDws u.n (s.dws (a + 0x200) 16), done := ofLaneDws u.n (s.dws (a + 0x280) 16), exited := ofLaneDws u.n (s.dws (a + 0x300) 16),
      q := Vector.ofFn (fun i => u.q[i.val].ofImage (s.dws (a + 0xC00 + 80 * i.val) 10)),
      prog := (pr.getD 0 0).setWidth 32, prog0 := (pr.getD 1 0).setWidth 32, resid := pr.getD 2 0, taint := (pr.getD 3 0).getLsbD 0,
      stack := ((List.range depth).map (fun e => DivEntry.ofImage u.n u.stack (s.dws (a + 0x2000 + 264 * e) 33))).reverse }
  else
    { u with v := Vector.ofFn (fun i => BitVec.ofNat 512 (memRead s.mem (a + 0x800 + 64 * i.val) 64)) }

/-- Takes a saved or held-out unit's registers from its save area. -/
def State.loadImage (s : State) (k : UKey) : State :=
  match s.unit? k with
  | none => s
  | some u =>
    if u.area = 0 ∨ u.resident then s
    else
      let s : State := s.pullArea u.area (if u.team then 622592 else 8192)
      s.setUnit (u.ofImage s)

/-- A change that reaches a unit wherever it stands: in its registers, or in its save area while it is saved or held out (18 R395). (DEDUCED, log
25.) -/
def State.touch (s : State) (k : UKey) (f : HwUnit → HwUnit) : State :=
  match s.unit? k with
  | none => s
  | some u => if u.resident then s.modUnit k f else ((s.loadImage k).modUnit k f).writeImage k

end Sys2Proof.Machine
end

