-- ==== Sys2Proof/Machine/Schedule.lean ====
section
/-! DEFINITION. Schedule.lean: which word an issuer issues next, and the grants of a core cycle. -/

namespace Sys2Proof

namespace Machine

/-- The word that a unit issues next, of its fetched clause. -/
def HwUnit.nextWord (u : HwUnit) : Option Word :=
  if u.able then u.clause.bind (fun c => c.words[u.widx - 1]?) else none

/-- The unit that has the issue slot, and the word that it issues. -/
def State.wordDue (s : State) (k : UKey) : Option (HwUnit × Word) := (s.unit? k).bind (fun u => u.nextWord.map (fun w => (u, w)))

/-- A word that the checks refuse as it comes to issue (02 R38): in a team, for all its active lanes. -/
def State.illegalWord (s : State) (u : HwUnit) (c : EncFault) : State := s.raiseAt u c.code u.active

/-- Order of issuers within a cycle (10 R202): cluster, pipeline, slot; the channels of a cluster after its pipelines (15 R331). -/
def issuerRank (k : UKey) : Nat := k.cluster * 512 + k.pipe * 8 + k.slot

/-- The word at which a unit stands writes the error budget; it comes after the charges of its cycle (07 R134, 15 R331). -/
def State.setsBudget (s : State) (k : UKey) : Bool :=
  match s.wordDue k with
  | none => false
  | some (u, w) =>
    match decodeWord u.env w with
    | .ok (.errbAdd ..) => true
    | .ok (.movrs _ sri _) | .ok (.movrsSet _ sri _) | .ok (.movrsClr _ sri _) => sri == 0x050
    | _ => false

/-- The turn of a grant within its cycle. (DESIGN CHOICE, log 2.) -/
def State.turn (s : State) (g : UKey × Option Ev) : Nat :=
  match g.2 with
  | some (.errorCharge _ _ _ _ _ true _) => issuerRank g.1 + 256
  | some _ => issuerRank g.1
  | none => issuerRank g.1 + (if s.setsBudget g.1 then 2 ^ 20 else 0)

/-- Inserts by turn, behind those of the same turn. (DESIGN CHOICE, log 2.) -/
def State.insertGrant (s : State) (g : UKey × Option Ev) : List (UKey × Option Ev) → List (UKey × Option Ev)
  | [] => [g]
  | x :: r => if s.turn x ≤ s.turn g then x :: s.insertGrant g r else g :: x :: r

def addGrant (s : State) (k : UKey) (e : Option Ev) : State := { s with grants := s.insertGrant (k, e) s.grants }

/-- The grants of a pair, the first before the second. -/
def addInTurn (s : State) (t q : UKey) : State :=
  let low := fun (g : UKey × Option Ev) => decide (s.turn g < min (s.turn (t, none)) (s.turn (q, none)))
  { s with grants := s.grants.filter low ++ [(t, none), (q, none)] ++ s.grants.filter (fun g => !low g) }

/-- Entries of a timed list that are due, in order. -/
def dueNow (now : Nat) (l : List (Nat × Ev)) : List Ev := (l.filter (fun p => p.1 ≤ now)).map (·.2)

/-- A team that may be granted the slot in this decision (06 R111). -/
def HwUnit.ready (u : HwUnit) : Bool :=
  u.able && !u.seenIdle && (match u.clause with | some c => u.waitsMet c | none => false)

end Machine

end Sys2Proof
end

