-- ==== Sys2Proof/Machine/Issue.lean ====
section
/-! DEFINITION. Issue.lean: the issue slots as steps of the part: SPLIT_ISSUE, ISSUE_ARBITRATION, URGENT_FIRST_CLAUSE,
WORD_COMPLETE and AUTO_SPLIT (05 R104; 06 R109 to R119; 02 R24). -/

namespace Sys2Proof.Machine

/-! ### Split mode -/

def State.lastOf (s : State) (c p : Nat) : Nat := ((s.lastSlot.find? (fun x => x.1 == c && x.2.1 == p)).map (·.2.2)).getD 7

def State.setLast (s : State) (c p sl : Nat) : State :=
  { s with lastSlot := (c, p, sl) :: s.lastSlot.filter (fun x => !(x.1 == c && x.2.1 == p)) }

/-- A thread whose next word may issue (05 R85). -/
def State.threadReady (s : State) (u : HwUnit) : Bool :=
  !u.team && u.able && !u.seenIdle && decide (u.awake ≤ s.now) &&
  (match u.clause with | some c => u.begun || u.waitsMet c | none => false)

/-- SPLIT_ISSUE: the next ready slot after the last that issued (06 R119). A thread whose next word is held back by a counter at 63 (02 R24)
counts as ready: it has the cycle, issues nothing and its slot is the last, which the spec leaves open. (DESIGN CHOICE, log 46.) -/
def execSplitIssue (s : State) : Host.Outcome State Fault Refusal :=
  match s.arg with
  | some (.splitIssue c p) =>
    let last := s.lastOf c p
    let pick := (List.range 8).findSome? (fun i =>
      let sl := (last + 1 + i) % 8
      match s.at? c p sl false with
      | some u => if s.threadReady u then some (sl, u.id) else none
      | none => none)
    match pick with
    | some (sl, k) => .next (addGrant (s.setLast c p sl) k none)
    | none => .next s
  | _ => .next s

/-! ### The arbiter of a harness -/

/-- The older of a list of teams. -/
def oldest : List HwUnit → Option HwUnit
  | [] => none
  | u :: r => match oldest r with
    | none => some u
    | some v => if u.order ≤ v.order then some u else some v

/-- The first team in ascending slot order after a slot, wrapping. -/
def nextSlot (slot : Nat) (l : List HwUnit) : Option HwUnit :=
  (List.range 8).findSome? (fun i => l.find? (fun u => u.slot == (slot + 1 + i) % 8))

/-- The team that the arbiter chooses among the ready teams (06 R113, 21 R445). -/
def Harness.choose (h : Harness) (pol : Word) (rd : List HwUnit) : Option HwUnit :=
  match rd.find? (fun u => u.slot == 7 && !u.issued1) with
  | some u => some u
  | none =>
    if pol.getLsbD 0 then nextSlot h.curSlot rd
    else
      let others := rd.filter (fun u => some u.id != h.cur)
      let starve := if pol.extractLsb' 8 8 = 0 then 256 else (pol.extractLsb' 8 8).toNat
      match rd.find? (fun u => some u.id == h.cur) with
      | some c => if !c.yielded && !(decide (starve ≤ c.run) && !others.isEmpty) then some c else (oldest others).orElse (fun _ => some c)
      | none => oldest others

/-- Two teams whose active sets share no lane (06 R115). -/
def disjoint (t q : HwUnit) : Bool := t.active &&& q.active == 0

/-- A team that may issue a clause together with `t` (06 R115). -/
def Harness.canPair (h : Harness) (pol : Word) (t q : HwUnit) : Bool :=
  match t.clause with
  | none => false
  | some c =>
    pol.getLsbD 1 && t.id != q.id && decide (t.slot ≤ 6) && decide (q.slot ≤ 6) && t.pc == q.pc && t.widx == 1 && q.widx == 1 &&
    t.asid == q.asid && t.super == q.super && t.k == q.k && disjoint t q && c.pair &&
    (c.reconv || h.lastPair == some (t.id, q.id) || h.lastPair == some (q.id, t.id))

/-- The grant of the slot to a team, paired where possible. -/
def State.grantSlot (s : State) (h : Harness) (t : HwUnit) (rd : List HwUnit) : State :=
  let pol := (s.cluster h.cluster).issuepol
  let q := oldest (rd.filter (fun q => h.canPair pol t q))
  let cur := match q with
    | some q => if q.order < t.order then q else t
    | none => t
  let s := s.modUnit t.id (fun u => { u with run := if h.cur == some t.id then u.run else 0 })
  let s := s.modUnit cur.id (fun u => { u with yielded := false })
  s.modHarness h.cluster h.base (fun h =>
    { h with holder := some t.id, pair := q.map (·.id), cur := some cur.id, curSlot := cur.slot,
             freeAt := max h.freeAt (s.now + 1) })

/-- ISSUE_ARBITRATION: at a clause boundary, or in an idle cycle, the arbiter grants the slot (06 R113). -/
def execIssueArbitration (s : State) : Host.Outcome State Fault Refusal :=
  match s.arg with
  | some (.issueArbitration c b) =>
    match s.harness? c b with
    | none => .next s
    | some h =>
      let rd := (s.teamsOf c b).filter HwUnit.ready
      match h.choose (s.cluster c).issuepol rd with
      | some t => .next (s.grantSlot h t rd)
      | none => .next (s.modHarness c b (fun h => { h with holder := none, pair := none }))
  | _ => .next s

/-- URGENT_FIRST_CLAUSE: the team in slot 7 takes the slot at the next word boundary for its first clause; the interrupted team
keeps the words it has issued and resumes at its next word (06 R118). -/
def execUrgentFirstClause (s : State) : Host.Outcome State Fault Refusal :=
  match s.arg with
  | some (.urgentFirstClause c b) =>
    match s.harness? c b, s.at? c b 7 true with
    | some h, some u =>
      if u.ready && !u.issued1 then
        let cut := h.holder.toList ++ h.pair.toList
        let s := cut.foldl (fun s k => s.modUnit k (fun w => { w with clause := none, begun := false })) s
        .next (s.modHarness c b (fun h =>
          { h with holder := some u.id, pair := none, lastPair := none, cur := some u.id, curSlot := 7,
                   freeAt := max h.freeAt (s.now + 1) }))
      else .next s
    | _, _ => .next s
  | _ => .next s

/-! ### Completion -/

/-- The write belongs to a lane of a set; a vector register to its thread. -/
def RegWrite.within (w : RegWrite) (e : LaneSet) : Bool :=
  match w with
  | .x l _ _ | .p l _ _ => e.getLsbD l
  | .v .. | .ve .. => e != 0

/-- A word completes (02 R24): its registers are written but in the lanes in which it faults, its flags recorded, its counter
falls, its operand-log entries are freed, a bank format or a slot's release takes effect (10 R199, 12 R242); what it raised at completion halts its issuer at the next unissued word (08 R154,
18 R399), and so does what it raised with its effect kept (15 R331). -/
def State.complete (s : State) (o : OutWord) : State :=
  let s : State := { s with outw := s.outw.filter (fun x => x.id != o.id) }
  let lost := faultLanes o.faults
  let s := s.touch o.unit (fun u =>
    let u := u.landAll (o.writes.filter (fun w => !w.within lost))
    let u := if (u.wait.map (fun w => (w.kind, w.id))) == some (.other, o.id) then u.unblock else u
    { u.decSb o.slot with fpstat := u.fpstat ||| o.flags.setWidth 64, hwFlags := u.hwFlags ||| o.flags,
                          logged := u.logged.filter (fun q => q.1 != o.id) })
  let s := match o.instr with
    | .sfmtWrite _ bf _ => s.modCluster o.unit.cluster (fun c => { c with bf := c.bf.setIfInBounds bf.toNat o.val })
    | .trel .. => s.modCluster o.unit.cluster (fun c => { c with tiles := c.tiles.filter (fun (t : Tile) => !o.val.getLsbD t.slot) })
    | _ => s
  let fs := o.faults ++ o.post.filter (fun f => !lost.getLsbD f.lane)
  if fs.isEmpty then s else s.raise o.unit fs

/-- WORD_COMPLETE. (DESIGN CHOICE, log 12.) -/
def execWordComplete (s : State) : Host.Outcome State Fault Refusal :=
  match s.arg with
  | some (.wordComplete id) =>
    match s.outw.find? (fun o => o.id == id) with
    | some o => .next (s.complete o)
    | none => .next s
  | _ => .next s

/-- AUTO_SPLIT: 64 sparse passes in a splittable team split it at the end of its clause (05 R104). -/
def execAutoSplit (s : State) : Host.Outcome State Fault Refusal :=
  match s.arg with
  | some (.autoSplit k) =>
    match s.unit? k with
    | some u =>
      if u.splitpol.getLsbD 7 && decide (64 ≤ u.sparse) && s.splittable u && u.able && !u.begun && u.widx == 1 then
        .next (s.setUnit { u with split := some [] })
      else .next s
    | none => .next s
  | _ => .next s

end Sys2Proof.Machine
end

