-- ==== Sys2Proof/Machine/Float.lean ====
section
/-! DEFINITION. Float.lean: the scalar floating-point words (08). -/

namespace Sys2Proof.Machine

/-- What a floating-point word computes in one lane: the bits and the events, from the lane and a draw of the generator. -/
abbrev FpFn := HwUnit → Lane → Nat → Nat × Events

/-- The results in the executing lanes, rising; under SR each takes one draw of the generator, in that order (04 R75). (DEDUCED, log 22.) -/
def fpLanes (u : HwUnit) (f : FpFn) (sr : Bool) : List Nat → BitVec 32 → List (Nat × Nat × Events) × BitVec 32
  | [], seed => ([], seed)
  | l :: r, seed =>
    let seed' := if sr then seedStep seed else seed
    let (b, ev) := f u (u.lane l) (seedDraw seed')
    let (rest, out) := fpLanes u f sr r seed'
    ((l, b, ev) :: rest, out)

/-- The events that are enabled in sr.fpstat (08 R153). -/
def HwUnit.trapped (u : HwUnit) (ev : Events) : Bool := ev &&& u.fpstat.extractLsb' 8 5 != 0

/-- The floating-point exceptions among the results (08 R153): cause 0x30, the set of raised events, the operands. -/
def fpFaults (u : HwUnit) (i : Instr) (rs : List (Nat × Nat × Events)) : List LaneFault :=
  (rs.filter (fun r => u.trapped r.2.2)).map (fun r =>
    ⟨0x30, r.1, u.pc, u.widx, r.2.2.setWidth 64, u.srcs i r.1, 0, 0⟩)

/-- The events to record: those of the lanes in which the word takes effect (08 R151). -/
def fpEvents (u : HwUnit) (rs : List (Nat × Nat × Events)) : Events :=
  (rs.filter (fun r => !u.trapped r.2.2)).foldl (fun a r => a ||| r.2.2) 0

def HwUnit.setFlags (u : HwUnit) (ev : Events) : HwUnit :=
  { u with fpstat := u.fpstat ||| ev.setWidth 64, hwFlags := u.hwFlags ||| ev }

/-- Raises what a word raised as it issued: where it took effect nowhere, it only counts as passed (18 R400). (DEDUCED, log 22.) -/
def State.raiseSome (s : State) (u : HwUnit) (i : Instr) (e : LaneSet) (u' : HwUnit) (fs : List LaneFault) : State :=
  let e' := e &&& ~~~ (faultLanes fs)
  if fs.isEmpty then s.issueFixed u u' i e
  else if e' = 0 then (s.passWord u.id).raise u.id fs
  else (s.issueFixed u u' i e').raise u.id fs

/-- A fixed-latency floating-point word (08 R151, R153 to R157). (DEDUCED, log 22.) -/
def fpWord (i : Instr) (s : State) (d : Xr) (sr : HwUnit → Bool) (ext : Nat → Word) (f : FpFn) :
    Host.Outcome State Fault Refusal :=
  word i s (fun u e s =>
    let (rs, seed) := fpLanes u f (sr u) (lanesOf e u.n) u.seed
    let ok := rs.filter (fun r => !u.trapped r.2.2)
    let u' := ok.foldl (fun u r => u.mapLanes (lane1 r.1) (fun _ l => l.setX d (ext r.2.1))) u
    s.raiseSome u i e ({ u'.setFlags (fpEvents u rs) with seed := seed, taint := u.taint || (u.team && sr u) }) (fpFaults u i rs))

/-- A word of kind S*: its result, its flags and its exceptions come about at completion (08 R151, R154, R164). -/
def fpLater (i : Instr) (s : State) (d : Xr) (t : Ty) (lat32 lat16 : Nat) (f : FpFn) : Host.Outcome State Fault Refusal :=
  word i s (fun u e s =>
    let (rs, _) := fpLanes u f false (lanesOf e u.n) u.seed
    let ok := rs.filter (fun r => !u.trapped r.2.2)
    s.issueLater u i e (fun o => { o with writes := ok.map (fun r => .x r.1 d (zext r.2.1 64)), flags := fpEvents u rs,
                                          faults := fpFaults u i rs })
      (if t == .f32 then lat32 else lat16))

/-- An operand of type t (08 R156). -/
def opF (t : Ty) (ftz : Bool) (l : Lane) (r : Xr) : FVal := t.fmt.widenZ ftz ((l.X r).toNat % 2 ^ t.bits)

/-- Rounds a computed value once, keeping the events of the computation (08 R157). -/
def fpRound (t : Ty) (u : HwUnit) (rm : Rm) (sat ftz : Bool) (v : FVal × Events) : Nat × Events :=
  let (b, ev) := t.fmt.round (effMode u.fpstat false rm) sat ftz 0 v.1
  (b, ev ||| v.2)

def isRdn (u : HwUnit) (rm : Rm) : Bool := effMode u.fpstat false rm == .rdn

/-- FADD (08 R157). -/
def execFadd (h : Hdr) (t : Ty) (rm : Rm) (sat ftz : Bool) (d a b : Xr) (s : State) : Host.Outcome State Fault Refusal :=
  fpWord (.fadd h t rm sat ftz d a b) s d (fun _ => false) (zext · t.bits) (fun u l _ => fpRound t u rm sat ftz (fAdd (isRdn u rm) (opF t ftz l a) (opF t ftz l b)))
/-- FSUB (08 R157). -/
def execFsub (h : Hdr) (t : Ty) (rm : Rm) (sat ftz : Bool) (d a b : Xr) (s : State) : Host.Outcome State Fault Refusal :=
  fpWord (.fsub h t rm sat ftz d a b) s d (fun _ => false) (zext · t.bits) (fun u l _ => fpRound t u rm sat ftz (fAdd (isRdn u rm) (opF t ftz l a) (opF t ftz l b).neg))
/-- FMUL (08 R157). -/
def execFmul (h : Hdr) (t : Ty) (rm : Rm) (sat ftz : Bool) (d a b : Xr) (s : State) : Host.Outcome State Fault Refusal :=
  fpWord (.fmul h t rm sat ftz d a b) s d (fun _ => false) (zext · t.bits) (fun u l _ => fpRound t u rm sat ftz (fMul (opF t ftz l a) (opF t ftz l b)))
/-- FMA: the product is left unrounded (08 R157). -/
def execFma (h : Hdr) (t : Ty) (rm : Rm) (sat ftz : Bool) (d a b c : Xr) (s : State) : Host.Outcome State Fault Refusal :=
  fpWord (.fma h t rm sat ftz d a b c) s d (fun _ => false) (zext · t.bits) (fun u l _ =>
    fpRound t u rm sat ftz (fMulAdd (isRdn u rm) (opF t ftz l a) (opF t ftz l b) (opF t ftz l c)))
/-- FDIV (08 R157). -/
def execFdiv (h : Hdr) (t : Ty) (rm : Rm) (ftz : Bool) (d a b : Xr) (s : State) : Host.Outcome State Fault Refusal :=
  fpLater (.fdiv h t rm ftz d a b) s d t 16 10 (fun u l _ => fpRound t u rm false ftz (fDiv (opF t ftz l a) (opF t ftz l b)))
/-- FSQRT (08 R157). -/
def execFsqrt (h : Hdr) (t : Ty) (rm : Rm) (ftz : Bool) (d a : Xr) (s : State) : Host.Outcome State Fault Refusal :=
  fpLater (.fsqrt h t rm ftz d a) s d t 16 10 (fun u l _ => fpRound t u rm false ftz (fSqrt (opF t ftz l a)))
/-- FRCP (08 R158). -/
def execFrcp (h : Hdr) (t : Ty) (rm : Rm) (ftz : Bool) (d a : Xr) (s : State) : Host.Outcome State Fault Refusal :=
  fpLater (.frcp h t rm ftz d a) s d t 12 8 (fun u l _ => fpRound t u rm false ftz (fRcp (opF t ftz l a)))
/-- FRSQ (08 R158). -/
def execFrsq (h : Hdr) (t : Ty) (rm : Rm) (ftz : Bool) (d a : Xr) (s : State) : Host.Outcome State Fault Refusal :=
  fpLater (.frsq h t rm ftz d a) s d t 12 8 (fun u l _ => fpRound t u rm false ftz (fRsq (opF t ftz l a)))
/-- FEXP2 (08 R158). -/
def execFexp2 (h : Hdr) (t : Ty) (rm : Rm) (ftz : Bool) (d a : Xr) (s : State) : Host.Outcome State Fault Refusal :=
  fpLater (.fexp2 h t rm ftz d a) s d t 14 10 (fun u l _ => fpRound t u rm false ftz (fExp2 (opF t ftz l a)))
/-- FLOG2 (08 R158). -/
def execFlog2 (h : Hdr) (t : Ty) (rm : Rm) (ftz : Bool) (d a : Xr) (s : State) : Host.Outcome State Fault Refusal :=
  fpLater (.flog2 h t rm ftz d a) s d t 14 10 (fun u l _ => fpRound t u rm false ftz (fLog2 (opF t ftz l a)))
/-- FSINP (08 R158). -/
def execFsinp (h : Hdr) (t : Ty) (rm : Rm) (ftz : Bool) (d a : Xr) (s : State) : Host.Outcome State Fault Refusal :=
  fpLater (.fsinp h t rm ftz d a) s d t 14 10 (fun u l _ => fpRound t u rm false ftz (fSinp (opF t ftz l a)))
/-- FSCALE: A × 2^signed(X(b)); a NaN, an infinity or a zero is returned as it is, with no event (08 R159). -/
def execFscale (h : Hdr) (t : Ty) (rm : Rm) (ftz : Bool) (d a b : Xr) (s : State) : Host.Outcome State Fault Refusal :=
  fpWord (.fscale h t rm ftz d a b) s d (fun _ => false) (zext · t.bits) (fun u l _ =>
    fpRound t u rm false ftz (fScale (l.X b).toInt (opF t ftz l a), 0))
/-- FMIN (08 R160). -/
def execFmin (h : Hdr) (t : Ty) (ftz : Bool) (d a b : Xr) (s : State) : Host.Outcome State Fault Refusal :=
  laneWord (.fmin h t ftz d a b) s (fun l => l.setX d (zext (t.fmt.minMax false ftz (opX l a t.bits) (opX l b t.bits)) t.bits))
/-- FMAX (08 R160). -/
def execFmax (h : Hdr) (t : Ty) (ftz : Bool) (d a b : Xr) (s : State) : Host.Outcome State Fault Refusal :=
  laneWord (.fmax h t ftz d a b) s (fun l => l.setX d (zext (t.fmt.minMax true ftz (opX l a t.bits) (opX l b t.bits)) t.bits))
/-- FCMP (08 R161). -/
def execFcmp (h : Hdr) (c : Cond) (t : Ty) (ftz : Bool) (pd : Pr) (a b : Xr) (pc : Pr) (s : State) : Host.Outcome State Fault Refusal :=
  laneWord (.fcmp h c t ftz pd a b pc) s (fun l => l.setP pd (fCond c (opF t ftz l a) (opF t ftz l b) && l.P pc))
/-- FCLASS (08 R163). -/
def execFclass (h : Hdr) (t : Ty) (d a : Xr) (s : State) : Host.Outcome State Fault Refusal :=
  laneWord (.fclass h t d a) s (fun l => l.setX d (zext (t.fmt.classify (opX l a t.bits)) 10))
/-- FCVT (08 R162). -/
def execFcvt (h : Hdr) (t ts : Ty) (rm : Rm) (sat ftz : Bool) (d a : Xr) (s : State) : Host.Outcome State Fault Refusal :=
  fpWord (.fcvt h t ts rm sat ftz d a) s d (fun u => effMode u.fpstat (srTarget t) rm == .sr)
    (fun b => if t.isInt then sext b t.bits else zext b t.bits)
    (fun u l draw => t.write false (effMode u.fpstat (srTarget t) rm) sat ftz draw (ts.read false ftz (l.X a).toNat))
/-- FCVTU: integers are read and written as unsigned (08 R162). -/
def execFcvtu (h : Hdr) (t ts : Ty) (rm : Rm) (ftz : Bool) (d a : Xr) (s : State) : Host.Outcome State Fault Refusal :=
  fpWord (.fcvtu h t ts rm ftz d a) s d (fun u => effMode u.fpstat (srTarget t) rm == .sr) (zext · t.bits)
    (fun u l draw => t.write true (effMode u.fpstat (srTarget t) rm) false ftz draw (ts.read true ftz (l.X a).toNat))

end Sys2Proof.Machine
end

