-- ==== Sys2Proof/Machine/Control.lean ====
section
/-! DEFINITION. Control.lean: transfers, divergence, HALT, YIELD, NOP, SPLIT and the special-register moves (05 R98, R99, R103;
06 R122 to R129). -/

namespace Sys2Proof.Machine

/-! ### Transfers -/

/-- The address of the word at which a unit stands. -/
def HwUnit.wordAddr (u : HwUnit) : Word := u.pc + BitVec.ofNat 64 (8 * u.widx)

/-- The team splits with every active lane at the word it stands at, and its supervisor is sent an event (05 R98, 06 R125). -/
def State.splitStand (s : State) (u : HwUnit) (cause : Nat) : State :=
  (s.setUnit { u with split := some [] }).notify u cause u.wordAddr 0

/-- A transfer that is not uniform (06 R125). -/
def State.nonUniform (s : State) (u : HwUnit) (i : Instr) (taken : LaneSet) : State :=
  if s.splittable u then s.splitStand u 0x28 else s.raiseOp u i 0x28 taken

/-- Whether a taken set is uniform (06 R122); a thread's always is. -/
def HwUnit.uniform (u : HwUnit) (t : LaneSet) : Bool := !u.team || t == 0 || t == u.active

/-- A format B transfer (06 R123): `taken` of the executing lanes, an extra effect in each of them. -/
def transferB (i : Instr) (s : State) (off : BitVec 30) (taken : Lane → Bool) (extra : HwUnit → Lane → Lane) :
    Host.Outcome State Fault Refusal :=
  word i s (fun u e s =>
    let t := lanesWhere u.n (fun l => e.getLsbD l && taken (u.lane l))
    if !u.uniform t then s.nonUniform u i t
    else if t != 0 && !canonical (offTarget u off) then s.raiseAddr u i 0x70 t (offTarget u off)
    else s.issueFixed u (u.mapLanes e (fun _ l => extra u l)) i e (if t = 0 then .seq else .to (offTarget u off)))

/-- A format A transfer (06 R124): uniformity first, then the alignment of the target. -/
def transferA (i : Instr) (s : State) (a : Xr) (link : Option Xr) : Host.Outcome State Fault Refusal :=
  word i s (fun u e s =>
    let t := (u.lane (topLane e u.n)).X a
    if !u.uniform e || (lanesOf e u.n).any (fun l => (u.lane l).X a != t) then s.nonUniform u i e
    else if t &&& 7 != 0 then s.raiseOp u i 0x14 e
    else if !canonical t then s.raiseAddr u i 0x70 e t
    else
      let u' := match link with
        | some d => u.mapLanes e (fun _ l => l.setX d (followPc u))
        | none => u
      s.issueFixed u u' i e (.to t))

/-- BR (06 Table 6-3). -/
def execBr (h : Hdr) (off : BitVec 30) (s : State) : Host.Outcome State Fault Refusal :=
  transferB (.br h off) s off (fun _ => true) (fun _ l => l)

/-- JMP (06 Table 6-3). -/
def execJmp (h : Hdr) (off : BitVec 30) (s : State) : Host.Outcome State Fault Refusal :=
  transferB (.jmp h off) s off (fun _ => true) (fun _ l => l)

/-- CALL: the link register takes the address of the clause that follows (06 Table 6-3). -/
def execCall (h : Hdr) (d : Xr) (off : BitVec 30) (s : State) : Host.Outcome State Fault Refusal :=
  transferB (.call h d off) s off (fun _ => true) (fun u l => l.setX d (followPc u))

/-- LOOP: taken where X(a) − 1 ≠ 0; a uniform LOOP decrements wherever its guard passes (06 R123). -/
def execLoop (h : Hdr) (a : Xr) (off : BitVec 30) (s : State) : Host.Outcome State Fault Refusal :=
  transferB (.loop h a off) s off (fun l => l.X a - 1 != 0) (fun _ l => l.setX a (l.X a - 1))

/-- JMPX (06 Table 6-4). -/
def execJmpx (h : Hdr) (a : Xr) (s : State) : Host.Outcome State Fault Refusal := transferA (.jmpx h a) s a none

/-- CALLX (06 Table 6-4). -/
def execCallx (h : Hdr) (d a : Xr) (s : State) : Host.Outcome State Fault Refusal := transferA (.callx h d a) s a (some d)

/-- RET acts as JMPX (06 R124). -/
def execRet (h : Hdr) (a : Xr) (s : State) : Host.Outcome State Fault Refusal := transferA (.ret h a) s a none

/-- BR.div (05 R98); in a thread it acts as BR. -/
def execBrDiv (h : Hdr) (off : BitVec 30) (s : State) : Host.Outcome State Fault Refusal :=
  frame true (.brDiv h off) s (fun u t s =>
    let i := Instr.brDiv h off
    let target := offTarget u off
    if u.team && decide (32 ≤ u.stack.length) then
      (if s.splittable u then s.splitStand u 0x24 else s.raiseOp u i 0x24 u.active)
    else if t != 0 && !canonical target then s.raiseAddr u i 0x70 t target
    else if !u.team then s.issueFixed u u i t (if t = 0 then .seq else .to target)
    else
      let f := u.active &&& ~~~ t
      if t = 0 then s.issueFixed u { u with stack := ⟨u.active, 0, target, false, 0⟩ :: u.stack } i t
      else if f = 0 then s.issueFixed u { u with stack := ⟨u.active, 0, 0, true, 0⟩ :: u.stack } i t (.to target)
      else s.issueFixed u { u with stack := ⟨u.active, t, target, false, 0⟩ :: u.stack, active := f } i t)

/-- JOIN (05 R99). -/
def execJoin (h : Hdr) (s : State) : Host.Outcome State Fault Refusal :=
  frame true (.join h) s (fun u e s =>
    let i := Instr.join h
    match u.stack with
    | [] => s.issueFixed u u i e
    | x :: r =>
      if !x.two && x.m != 0 then
        s.issueFixed u { u with stack := ⟨x.s, u.active, u.wordAddr, true, u.pc⟩ :: r, active := x.m } i e (.to x.pc)
      else s.issueFixed u { u with stack := r, active := x.s } i e)

/-- SPLIT (05 R103). -/
def execSplit (h : Hdr) (s : State) : Host.Outcome State Fault Refusal :=
  word (.split h) s (fun u e s =>
    let i := Instr.split h
    if !u.team then s.issueFixed u u i e
    else if s.splittable u then s.issueFixed u { u with split := some [] } i e
    else s.raiseOp u i 0x25 u.active)

/-! ### HALT, NOP, YIELD -/

/-- The unwinding of the divergence stack by HALT (06 R126): the active set, the stack, and where execution continues. -/
def unwind : LaneSet → List DivEntry → LaneSet × List DivEntry × Next
  | act, [] => (act, [], .seq)
  | act, x :: r =>
    if act != 0 then (act, x :: r, .seq)
    else if !x.two && x.m != 0 then (x.m, ⟨x.s, 0, 0, true, 0⟩ :: r, .to x.pc)
    else if x.s != 0 then (x.s, r, .to (x.pc + 8))
    else unwind 0 r

/-- HALT (06 R126): a thread waits for its counters and exits; in a team the executing lanes exit. -/
def execHalt (h : Hdr) (s : State) : Host.Outcome State Fault Refusal :=
  word (.halt h) s (fun u e s =>
    let i := Instr.halt h
    if !u.team then
      (if u.sbZero then s.issueFixed u { u with exiting := true } i e else s.block u .counters)
    else
      let act := u.active &&& ~~~ e
      let stk := u.stack.map (fun x => { x with s := x.s &&& ~~~ e, m := x.m &&& ~~~ e })
      let (act', stk', nx) := if act = 0 then unwind 0 stk else (act, stk, .seq)
      s.issueFixed u { u with exited := u.exited ||| e, active := act', stack := stk', exiting := act' == 0 } i e nx)

/-- NOP (06 R127). -/
def execNop (h : Hdr) (s : State) : Host.Outcome State Fault Refusal :=
  word (.nop h) s (fun u e s => s.issueFixed u u (.nop h) e)

/-- YIELD (06 R127): a team yields at its clause's end; a thread is not ready for the next 7 core cycles. -/
def execYield (h : Hdr) (s : State) : Host.Outcome State Fault Refusal :=
  word (.yield h) s (fun u e s =>
    s.issueFixed u (if u.team then { u with yieldDue := true } else { u with awake := s.now + 8 }) (.yield h) e)

/-! ### Special registers -/

/-- sr.placeid of a lane (00 Table 0-5). -/
def State.placeid (s : State) (u : HwUnit) (lane : Nat) : Word :=
  BitVec.ofNat 64 (s.devnum % 2 ^ 18 * 2 ^ 46 + u.cluster * 2 ^ 38 + (if u.team then u.pipe + lane % u.w else u.pipe) * 2 ^ 33 +
    u.slot * 2 ^ 30 + (if u.team then 2 ^ 29 + lane * 2 ^ 19 else 0))

/-- SR(sri) as a lane of a unit reads it (07 Table 7-2). -/
def State.sr (s : State) (u : HwUnit) (lane : Nat) (sri : BitVec 12) : Word :=
  let c := s.cluster u.cluster
  let die := u.cluster / Config.clustersPerDie
  match sri.toNat with
  | 0x000 => Config.archid
  | 0x001 => Config.partid
  | 0x002 => s.placeid u lane
  | 0x003 => BitVec.ofNat 64 (s.now - s.epoch)
  | 0x004 => u.retired
  | 0x005 => u.shape
  | 0x006 => BitVec.ofNat 64 (u.kclass.toNat * 4 + if u.super then 1 else 0)
  | 0x010 => u.fpstat
  | 0x011 => u.seed.setWidth 64
  | 0x012 => if u.team then u.splitpol else 0
  | 0x013 => u.gang
  | 0x014 => BitVec.ofNat 64 u.asid
  | 0x020 => c.issuepol
  | 0x021 => c.cinchlim
  | 0x022 => c.waitlim
  | 0x023 => c.mbudget
  | 0x024 => c.mstall
  | 0x025 => c.ganglim
  | 0x026 => c.drainlim
  | 0x027 => c.faultdst
  | 0x030 => s.fadeint.toList.getD die 0
  | 0x031 => s.pagerdst.toList.getD die 0
  | 0x040 => s.staledrop
  | 0x050 => s.errbudget u.ctx
  | _ => 0

/-- A written zero stores 1 (sr.cinchlim, sr.ganglim, sr.seed). -/
def low32Nz (v : Word) : Word := if v.extractLsb' 0 32 = 0 then 1 else v &&& 0xFFFFFFFF

/-- sr.fpstat as a write leaves it (08 Table 8-1). -/
def fpstatWrite (v : Word) : Word :=
  let rm := (v.extractLsb' 16 3).toNat
  (v &&& 0x1F1F) ||| BitVec.ofNat 64 ((if rm = 0 ∨ 5 < rm then 1 else rm) * 2 ^ 16)

/-- sr.waitlim as a write leaves it (10 Table 10-4). -/
def waitlimWrite (v : Word) : Word :=
  (if v.extractLsb' 32 12 = 0 then BitVec.ofNat 64 (2 ^ 32) else v &&& 0x00000FFF00000000) ||| low32Nz v

/-- The fields of sr.faultdst and sr.pagerdst (16 Table 16-5). -/
def dstWrite (v : Word) : Word := v &&& 0x80000003FFFFFFFF

/-- sr.errbudget as a write leaves it: exh is W1C (15 Table 15-5). -/
def errbudgetWrite (old v : Word) : Word :=
  (v &&& 0x0000FFFFFFFFFFFF) ||| (old &&& ~~~ v &&& BitVec.ofNat 64 (2 ^ 63))

/-- Writes a special register field by field (00 R4, R5; 06 R129, 07 R134), and replaces its parity (07 R132). A register that has no
writable field keeps its value. (DESIGN CHOICE, log 35.) -/
def State.setSr (s : State) (u : HwUnit) (sri : BitVec 12) (v : Word) : State :=
  let die := u.cluster / Config.clustersPerDie
  let s : State := { s with badSr := s.badSr.filter (fun q => readOnlySr sri || !(q.1 == sri.toNat && u.srCopy q.1 == some q.2)) }
  let cl := s.modCluster u.cluster
  let un := fun (f : HwUnit → HwUnit) => s.modUnit u.id f
  match sri.toNat with
  | 0x010 => un (fun u => { u with fpstat := fpstatWrite v ||| u.hwFlags.setWidth 64 })
  | 0x011 => un (fun u => { u with seed := (low32Nz v).setWidth 32 })
  | 0x012 => if u.team then un (fun u => { u with splitpol := v &&& 0xFF }) else s
  | 0x014 => un (fun u => { u with asid := v.toNat % 2 ^ 16 })
  | 0x020 => cl (fun c => { c with issuepol := v &&& 0xFF03 })
  | 0x021 => cl (fun c => { c with cinchlim := low32Nz v })
  | 0x022 => cl (fun c => { c with waitlim := waitlimWrite v })
  | 0x023 => cl (fun c => { c with mbudget := (c.mbudget &&& 0x0000FFFF00000000) ||| (v &&& 0xFFFF) })
  | 0x024 => cl (fun c => { c with mstall := v })
  | 0x025 => cl (fun c => { c with ganglim := low32Nz v })
  | 0x026 => cl (fun c => { c with drainlim := v &&& 0xFFFFFFFF })
  | 0x027 => cl (fun c => { c with faultdst := dstWrite v })
  | 0x030 => { s with fadeint := s.fadeint.setIfInBounds die (v &&& 0xFFFFFFFF) }
  | 0x031 => { s with pagerdst := s.pagerdst.setIfInBounds die (dstWrite v) }
  | 0x040 => { s with staledrop := v &&& 0xFFFFFFFF }
  | 0x050 => s.setErrbudget u.ctx (errbudgetWrite (s.errbudget u.ctx) v)
  | _ => s

/-- MOVSR (06 R128). One of sr.retired reads the count before itself, which the spec leaves open. (DESIGN CHOICE, log 46.) -/
def execMovsr (h : Hdr) (d : Xr) (sri : BitVec 12) (s : State) : Host.Outcome State Fault Refusal :=
  word (.movsr h d sri) s (fun u e s => s.issueFixed u (u.mapLanes e (fun n l => l.setX d (s.sr u n sri))) (.movsr h d sri) e)

/-- The three forms of MOVRS (06 R128): the value comes from the highest executing lane. -/
def moveToSr (i : Instr) (sri : BitVec 12) (a : Xr) (s : State) (f : Word → Word → Word) : Host.Outcome State Fault Refusal :=
  word i s (fun u e s =>
    let v := (u.lane (topLane e u.n)).X a
    (s.issueFixed u u i e).setSr u sri (f (s.sr u 0 sri) v))

/-- MOVRS, which writes. (DESIGN CHOICE, log 35.) -/
def execMovrs (h : Hdr) (sri : BitVec 12) (a : Xr) (s : State) : Host.Outcome State Fault Refusal :=
  moveToSr (.movrs h sri a) sri a s (fun _ v => v)

/-- MOVRS.set. -/
def execMovrsSet (h : Hdr) (sri : BitVec 12) (a : Xr) (s : State) : Host.Outcome State Fault Refusal :=
  moveToSr (.movrsSet h sri a) sri a s (fun o v => o ||| v)

/-- MOVRS.clr. -/
def execMovrsClr (h : Hdr) (sri : BitVec 12) (a : Xr) (s : State) : Host.Outcome State Fault Refusal :=
  moveToSr (.movrsClr h sri a) sri a s (fun o v => o &&& ~~~ v)

end Sys2Proof.Machine
end

