-- ==== Sys2Proof/Machine/Integer.lean ====
section
/-! DEFINITION. Integer.lean: the integer, address and predicate words (07 R139 to R149). -/

namespace Sys2Proof.Machine

/-- clampS and clampU of 07 R141. -/
def clampS (n : Nat) (v : Int) : Int := min (max v (-(2 ^ (n - 1) : Nat))) ((2 ^ (n - 1) : Nat) - 1)
def clampU (n : Nat) (v : Int) : Int := min (max v 0) ((2 ^ n : Nat) - 1)

/-- Leading zero bits of a number of n bits. -/
def clz (n v : Nat) : Nat := if v = 0 then n else n - 1 - Nat.log2 v

/-- Trailing zero bits of a number of n bits. -/
def ctz (n v : Nat) : Nat := ((List.range n).find? (fun i => Nat.testBit v i)).getD n

def popc (n v : Nat) : Nat := ((List.range n).filter (fun i => Nat.testBit v i)).length

/-- The exact results of 07 Table 7-7 of operands A and B below 2^n. -/
def rDiv (n a b : Nat) : Int :=
  if b = 0 then -1 else if sgn a n = -(2 ^ (n - 1) : Nat) ∧ sgn b n = -1 then -(2 ^ (n - 1) : Nat) else Int.tdiv (sgn a n) (sgn b n)
def rRem (n a b : Nat) : Int :=
  if b = 0 then sgn a n else if sgn a n = -(2 ^ (n - 1) : Nat) ∧ sgn b n = -1 then 0 else Int.tmod (sgn a n) (sgn b n)
def rDivu (n a b : Nat) : Int := if b = 0 then (2 ^ n : Nat) - 1 else (a / b : Nat)
def rRemu (_n a b : Nat) : Int := if b = 0 then (a : Int) else (a % b : Nat)
def rMulh (n a b : Nat) : Int := sgn a n * sgn b n / (2 ^ n : Nat)
def rMulhu (n a b : Nat) : Int := (a * b / 2 ^ n : Nat)
def rShl (n a b : Nat) : Int := (a * 2 ^ (b % n) : Nat)
def rShr (n a b : Nat) : Int := (a / 2 ^ (b % n) : Nat)
def rSra (n a b : Nat) : Int := sgn a n / (2 ^ (b % n) : Nat)
def rRol (n a b : Nat) : Int := ((a * 2 ^ (b % n)) ||| (if b % n = 0 then 0 else a / 2 ^ (n - b % n)) : Nat)

/-- A two-operand word whose result is sign-extended, or zero-extended (07 R140). -/
def binS (i : Instr) (t : Wd) (d a b : Xr) (s : State) (r : Nat → Nat → Nat → Int) : Host.Outcome State Fault Refusal :=
  laneWord i s (fun l => l.setX d (sext (slice (r t.bits (opX l a t.bits) (opX l b t.bits)) t.bits) t.bits))
def binU (i : Instr) (t : Wd) (d a b : Xr) (s : State) (r : Nat → Nat → Nat → Int) : Host.Outcome State Fault Refusal :=
  laneWord i s (fun l => l.setX d (zext (slice (r t.bits (opX l a t.bits) (opX l b t.bits)) t.bits) t.bits))

/-- An immediate word (07 R142). -/
def immS (i : Instr) (t : Wd) (d a : Xr) (imm : BitVec 24) (s : State) (r : Nat → Nat → Nat → Int) :
    Host.Outcome State Fault Refusal :=
  laneWord i s (fun l => l.setX d (sext (slice (r t.bits (opX l a t.bits) (opImm imm t.bits)) t.bits) t.bits))
def immU (i : Instr) (t : Wd) (d a : Xr) (imm : BitVec 24) (s : State) (r : Nat → Nat → Nat → Int) :
    Host.Outcome State Fault Refusal :=
  laneWord i s (fun l => l.setX d (zext (slice (r t.bits (opX l a t.bits) (opImm imm t.bits)) t.bits) t.bits))

/-- The condition of a comparison (07 R143). -/
def cond (c : Cond) (n a b : Nat) : Bool :=
  match c with
  | .eq => a == b
  | .ne => a != b
  | .lt => decide (sgn a n < sgn b n)
  | .le => decide (sgn a n ≤ sgn b n)
  | .ltu => decide (a < b)
  | .leu => decide (a ≤ b)

/-- ADD (07 Table 7-7). -/
def execAdd (h : Hdr) (t : Wd) (d a b : Xr) (s : State) : Host.Outcome State Fault Refusal :=
  binS (.add h t d a b) t d a b s (fun _ a b => (a + b : Nat))
/-- SUB (07 Table 7-7). -/
def execSub (h : Hdr) (t : Wd) (d a b : Xr) (s : State) : Host.Outcome State Fault Refusal :=
  binS (.sub h t d a b) t d a b s (fun _ a b => (a : Int) - b)
/-- ADDS (07 Table 7-7). -/
def execAdds (h : Hdr) (t : Wd) (d a b : Xr) (s : State) : Host.Outcome State Fault Refusal :=
  binS (.adds h t d a b) t d a b s (fun n a b => clampS n (sgn a n + sgn b n))
/-- ADDSU (07 Table 7-7). -/
def execAddsu (h : Hdr) (t : Wd) (d a b : Xr) (s : State) : Host.Outcome State Fault Refusal :=
  binU (.addsu h t d a b) t d a b s (fun n a b => clampU n (a + b : Nat))
/-- SUBS (07 Table 7-7). -/
def execSubs (h : Hdr) (t : Wd) (d a b : Xr) (s : State) : Host.Outcome State Fault Refusal :=
  binS (.subs h t d a b) t d a b s (fun n a b => clampS n (sgn a n - sgn b n))
/-- SUBSU (07 Table 7-7). -/
def execSubsu (h : Hdr) (t : Wd) (d a b : Xr) (s : State) : Host.Outcome State Fault Refusal :=
  binU (.subsu h t d a b) t d a b s (fun n a b => clampU n ((a : Int) - b))
/-- MUL (07 Table 7-7). -/
def execMul (h : Hdr) (t : Wd) (d a b : Xr) (s : State) : Host.Outcome State Fault Refusal :=
  binS (.mul h t d a b) t d a b s (fun n a b => sgn a n * sgn b n)
/-- MULH (07 Table 7-7). -/
def execMulh (h : Hdr) (t : Wd) (d a b : Xr) (s : State) : Host.Outcome State Fault Refusal :=
  binS (.mulh h t d a b) t d a b s (rMulh)
/-- MULHU (07 Table 7-7). -/
def execMulhu (h : Hdr) (t : Wd) (d a b : Xr) (s : State) : Host.Outcome State Fault Refusal :=
  binU (.mulhu h t d a b) t d a b s (rMulhu)
/-- DIV (07 Table 7-7). -/
def execDiv (h : Hdr) (t : Wd) (d a b : Xr) (s : State) : Host.Outcome State Fault Refusal :=
  binS (.div h t d a b) t d a b s (rDiv)
/-- DIVU (07 Table 7-7). -/
def execDivu (h : Hdr) (t : Wd) (d a b : Xr) (s : State) : Host.Outcome State Fault Refusal :=
  binU (.divu h t d a b) t d a b s (rDivu)
/-- REM (07 Table 7-7). -/
def execRem (h : Hdr) (t : Wd) (d a b : Xr) (s : State) : Host.Outcome State Fault Refusal :=
  binS (.rem h t d a b) t d a b s (rRem)
/-- REMU (07 Table 7-7). -/
def execRemu (h : Hdr) (t : Wd) (d a b : Xr) (s : State) : Host.Outcome State Fault Refusal :=
  binU (.remu h t d a b) t d a b s (rRemu)
/-- AND (07 Table 7-7). -/
def execAnd (h : Hdr) (t : Wd) (d a b : Xr) (s : State) : Host.Outcome State Fault Refusal :=
  binS (.and h t d a b) t d a b s (fun _ a b => (a &&& b : Nat))
/-- OR (07 Table 7-7). -/
def execOr (h : Hdr) (t : Wd) (d a b : Xr) (s : State) : Host.Outcome State Fault Refusal :=
  binS (.or h t d a b) t d a b s (fun _ a b => (a ||| b : Nat))
/-- XOR (07 Table 7-7). -/
def execXor (h : Hdr) (t : Wd) (d a b : Xr) (s : State) : Host.Outcome State Fault Refusal :=
  binS (.xor h t d a b) t d a b s (fun _ a b => (a ^^^ b : Nat))
/-- ANDN (07 Table 7-7). -/
def execAndn (h : Hdr) (t : Wd) (d a b : Xr) (s : State) : Host.Outcome State Fault Refusal :=
  binS (.andn h t d a b) t d a b s (fun n a b => (a &&& (2 ^ n - 1 - b) : Nat))
/-- ORN (07 Table 7-7). -/
def execOrn (h : Hdr) (t : Wd) (d a b : Xr) (s : State) : Host.Outcome State Fault Refusal :=
  binS (.orn h t d a b) t d a b s (fun n a b => (a ||| (2 ^ n - 1 - b) : Nat))
/-- SHL (07 Table 7-7). -/
def execShl (h : Hdr) (t : Wd) (d a b : Xr) (s : State) : Host.Outcome State Fault Refusal :=
  binS (.shl h t d a b) t d a b s (rShl)
/-- SHR (07 Table 7-7). -/
def execShr (h : Hdr) (t : Wd) (d a b : Xr) (s : State) : Host.Outcome State Fault Refusal :=
  binU (.shr h t d a b) t d a b s (rShr)
/-- SRA (07 Table 7-7). -/
def execSra (h : Hdr) (t : Wd) (d a b : Xr) (s : State) : Host.Outcome State Fault Refusal :=
  binS (.sra h t d a b) t d a b s (rSra)
/-- ROL (07 Table 7-7). -/
def execRol (h : Hdr) (t : Wd) (d a b : Xr) (s : State) : Host.Outcome State Fault Refusal :=
  binS (.rol h t d a b) t d a b s (rRol)
/-- MIN (07 Table 7-7). -/
def execMin (h : Hdr) (t : Wd) (d a b : Xr) (s : State) : Host.Outcome State Fault Refusal :=
  binS (.min h t d a b) t d a b s (fun n a b => Min.min (sgn a n) (sgn b n))
/-- MAX (07 Table 7-7). -/
def execMax (h : Hdr) (t : Wd) (d a b : Xr) (s : State) : Host.Outcome State Fault Refusal :=
  binS (.max h t d a b) t d a b s (fun n a b => Max.max (sgn a n) (sgn b n))
/-- MINU (07 Table 7-7). -/
def execMinu (h : Hdr) (t : Wd) (d a b : Xr) (s : State) : Host.Outcome State Fault Refusal :=
  binU (.minu h t d a b) t d a b s (fun _ a b => (Min.min a b : Nat))
/-- MAXU (07 Table 7-7). -/
def execMaxu (h : Hdr) (t : Wd) (d a b : Xr) (s : State) : Host.Outcome State Fault Refusal :=
  binU (.maxu h t d a b) t d a b s (fun _ a b => (Max.max a b : Nat))
/-- CLZ (07 Table 7-7). -/
def execClz (h : Hdr) (t : Wd) (d a : Xr) (s : State) : Host.Outcome State Fault Refusal :=
  laneWord (.clz h t d a) s (fun l => l.setX d (zext (clz t.bits (opX l a t.bits)) t.bits))
/-- CTZ (07 Table 7-7). -/
def execCtz (h : Hdr) (t : Wd) (d a : Xr) (s : State) : Host.Outcome State Fault Refusal :=
  laneWord (.ctz h t d a) s (fun l => l.setX d (zext (ctz t.bits (opX l a t.bits)) t.bits))
/-- POPC (07 Table 7-7). -/
def execPopc (h : Hdr) (t : Wd) (d a : Xr) (s : State) : Host.Outcome State Fault Refusal :=
  laneWord (.popc h t d a) s (fun l => l.setX d (zext (popc t.bits (opX l a t.bits)) t.bits))
/-- ABS (07 Table 7-7). -/
def execAbs (h : Hdr) (t : Wd) (sat : Bool) (d a : Xr) (s : State) : Host.Outcome State Fault Refusal :=
  laneWord (.abs h t sat d a) s (fun l =>
    let v : Int := (sgn (opX l a t.bits) t.bits).natAbs
    l.setX d (sext (slice (if sat then clampS t.bits v else v) t.bits) t.bits))
/-- SEL (07 R144). -/
def execSel (h : Hdr) (d : Xr) (pc : Pr) (a b : Xr) (s : State) : Host.Outcome State Fault Refusal :=
  laneWord (.sel h d pc a b) s (fun l => l.setX d (if l.P pc then l.X a else l.X b))
/-- LEA (07 R145). -/
def execLea (h : Hdr) (d a b : Xr) (sh : BitVec 3) (s : State) : Host.Outcome State Fault Refusal :=
  laneWord (.lea h d a b sh) s (fun l => l.setX d (l.X a + l.X b * BitVec.ofNat 64 (2 ^ sh.toNat)))
/-- EXT (07 R146). -/
def execExt (h : Hdr) (t : Wd) (d a : Xr) (s : State) : Host.Outcome State Fault Refusal :=
  laneWord (.ext h t d a) s (fun l => l.setX d (sext (l.X a).toNat t.bits))
/-- EXTU (07 R146). -/
def execExtu (h : Hdr) (t : Wd) (d a : Xr) (s : State) : Host.Outcome State Fault Refusal :=
  laneWord (.extu h t d a) s (fun l => l.setX d (zext (l.X a).toNat t.bits))
/-- BFX (07 R147). -/
def execBfx (h : Hdr) (d a : Xr) (pos len1 : BitVec 6) (s : State) : Host.Outcome State Fault Refusal :=
  laneWord (.bfx h d a pos len1) s (fun l => l.setX d (sext ((l.X a).toNat / 2 ^ pos.toNat) (len1.toNat + 1)))
/-- BFXU (07 R147). -/
def execBfxu (h : Hdr) (d a : Xr) (pos len1 : BitVec 6) (s : State) : Host.Outcome State Fault Refusal :=
  laneWord (.bfxu h d a pos len1) s (fun l => l.setX d (zext ((l.X a).toNat / 2 ^ pos.toNat) (len1.toNat + 1)))
/-- BFI (07 R147): the field of X(d) takes the low bits of X(a), its other bits stay. -/
def execBfi (h : Hdr) (d a : Xr) (pos len1 : BitVec 6) (s : State) : Host.Outcome State Fault Refusal :=
  laneWord (.bfi h d a pos len1) s (fun l =>
    let m := BitVec.ofNat 64 ((2 ^ (len1.toNat + 1) - 1) * 2 ^ pos.toNat)
    l.setX d ((l.X d &&& ~~~ m) ||| ((l.X a <<< pos.toNat) &&& m)))
/-- CMP (07 R143). -/
def execCmp (h : Hdr) (c : Cond) (t : Wd) (pd : Pr) (a b : Xr) (pc : Pr) (s : State) : Host.Outcome State Fault Refusal :=
  laneWord (.cmp h c t pd a b pc) s (fun l => l.setP pd (cond c t.bits (opX l a t.bits) (opX l b t.bits) && l.P pc))
/-- CMPI (07 R143). -/
def execCmpi (h : Hdr) (c : Cond) (t : Wd) (pd : Pr) (a : Xr) (imm : BitVec 24) (s : State) : Host.Outcome State Fault Refusal :=
  laneWord (.cmpi h c t pd a imm) s (fun l => l.setP pd (cond c t.bits (opX l a t.bits) (opImm imm t.bits)))
/-- PAND (07 R149). -/
def execPand (h : Hdr) (pd pa pb : Pr) (s : State) : Host.Outcome State Fault Refusal :=
  laneWord (.pand h pd pa pb) s (fun l => l.setP pd (l.P pa && l.P pb))
/-- POR (07 R149). -/
def execPor (h : Hdr) (pd pa pb : Pr) (s : State) : Host.Outcome State Fault Refusal :=
  laneWord (.por h pd pa pb) s (fun l => l.setP pd (l.P pa || l.P pb))
/-- PXOR (07 R149). -/
def execPxor (h : Hdr) (pd pa pb : Pr) (s : State) : Host.Outcome State Fault Refusal :=
  laneWord (.pxor h pd pa pb) s (fun l => l.setP pd (l.P pa != l.P pb))
/-- PNOT (07 R149). -/
def execPnot (h : Hdr) (pd pa : Pr) (s : State) : Host.Outcome State Fault Refusal :=
  laneWord (.pnot h pd pa) s (fun l => l.setP pd (!l.P pa))
/-- ADDI (07 Table 7-9): acts as ADD. -/
def execAddi (h : Hdr) (t : Wd) (d a : Xr) (imm : BitVec 24) (s : State) : Host.Outcome State Fault Refusal :=
  immS (.addi h t d a imm) t d a imm s (fun _ a b => (a + b : Nat))
/-- MULI (07 Table 7-9): acts as MUL. -/
def execMuli (h : Hdr) (t : Wd) (d a : Xr) (imm : BitVec 24) (s : State) : Host.Outcome State Fault Refusal :=
  immS (.muli h t d a imm) t d a imm s (fun n a b => sgn a n * sgn b n)
/-- ANDI (07 Table 7-9): acts as AND. -/
def execAndi (h : Hdr) (t : Wd) (d a : Xr) (imm : BitVec 24) (s : State) : Host.Outcome State Fault Refusal :=
  immS (.andi h t d a imm) t d a imm s (fun _ a b => (a &&& b : Nat))
/-- ORI (07 Table 7-9): acts as OR. -/
def execOri (h : Hdr) (t : Wd) (d a : Xr) (imm : BitVec 24) (s : State) : Host.Outcome State Fault Refusal :=
  immS (.ori h t d a imm) t d a imm s (fun _ a b => (a ||| b : Nat))
/-- XORI (07 Table 7-9): acts as XOR. -/
def execXori (h : Hdr) (t : Wd) (d a : Xr) (imm : BitVec 24) (s : State) : Host.Outcome State Fault Refusal :=
  immS (.xori h t d a imm) t d a imm s (fun _ a b => (a ^^^ b : Nat))
/-- SHLI (07 Table 7-9): acts as SHL. -/
def execShli (h : Hdr) (t : Wd) (d a : Xr) (imm : BitVec 24) (s : State) : Host.Outcome State Fault Refusal :=
  immS (.shli h t d a imm) t d a imm s (rShl)
/-- SHRI (07 Table 7-9): acts as SHR. -/
def execShri (h : Hdr) (t : Wd) (d a : Xr) (imm : BitVec 24) (s : State) : Host.Outcome State Fault Refusal :=
  immU (.shri h t d a imm) t d a imm s (rShr)
/-- SRAI (07 Table 7-9): acts as SRA. -/
def execSrai (h : Hdr) (t : Wd) (d a : Xr) (imm : BitVec 24) (s : State) : Host.Outcome State Fault Refusal :=
  immS (.srai h t d a imm) t d a imm s (rSra)
/-- ROLI (07 Table 7-9): acts as ROL. -/
def execRoli (h : Hdr) (t : Wd) (d a : Xr) (imm : BitVec 24) (s : State) : Host.Outcome State Fault Refusal :=
  immS (.roli h t d a imm) t d a imm s (rRol)
/-- LI (07 R148). -/
def execLi (h : Hdr) (d : Xr) (imm : BitVec 24) (s : State) : Host.Outcome State Fault Refusal :=
  laneWord (.li h d imm) s (fun l => l.setX d (sext imm.toNat 24))
/-- LIH with k = 1: bits [47:24], sign-extended from bit 47 (07 R148). -/
def execLihMid (h : Hdr) (d : Xr) (imm : BitVec 24) (s : State) : Host.Outcome State Fault Refusal :=
  laneWord (.lihMid h d imm) s (fun l => l.setX d (sext (imm.toNat * 2 ^ 24 + (l.X d).toNat % 2 ^ 24) 48))
/-- LIH with k = 2: bits [63:48] (07 R148). -/
def execLihHigh (h : Hdr) (d : Xr) (imm : BitVec 16) (s : State) : Host.Outcome State Fault Refusal :=
  laneWord (.lihHigh h d imm) s (fun l => l.setX d (zext (imm.toNat * 2 ^ 48 + (l.X d).toNat % 2 ^ 48) 64))

end Sys2Proof.Machine
end

