-- ==== Sys2Proof/Machine/Vector.lean ====
section
/-! DEFINITION. Vector.lean: the vector words that touch no memory (09 R165 to R183, R188, R189). -/

namespace Sys2Proof.Machine

/-! ### Elements -/

/-- Element i of a vector register at width w (09 R166). -/
def vEl (v : VReg) (w i : Nat) : Nat := v.toNat / 2 ^ (w * i) % 2 ^ w

/-- A register of elements of width w. -/
def vBuild (w : Nat) (l : List Nat) : VReg := BitVec.ofNat 512 (l.foldr (fun x acc => x % 2 ^ w + 2 ^ w * acc) 0)

/-- Whether element i is active (09 R167). -/
def vAct (u : HwUnit) (gv : Bool) (pg : Vr) (w i : Nat) : Bool := !gv || vEl (u.V pg) w i % 2 == 1

end Sys2Proof.Machine

namespace Sys2Proof

open Machine

/-- Element i of the second source (09 R170). -/
def VSrc.el (u : HwUnit) (shift : Bool) (w i : Nat) : VSrc → Nat
  | .reg b => vEl (u.V b) w i
  | .scalar x => opX (u.lane 0) x w
  | .imm c => if shift then c.toNat else slice (sgn c.toNat 6) w

end Sys2Proof

namespace Sys2Proof.Machine

/-- The results of the active elements, each with its events; under SR each takes a draw, in ascending order (04 R75). -/
def vRun (sr : Bool) (act : Nat → Bool) (f : Nat → Nat → Nat × Events) : List Nat → BitVec 32 →
    List (Option (Nat × Events)) × BitVec 32
  | [], seed => ([], seed)
  | i :: r, seed =>
    if act i then
      let seed' := if sr then seedStep seed else seed
      let (rest, out) := vRun sr act f r seed'
      (some (f i (seedDraw seed')) :: rest, out)
    else
      let (rest, out) := vRun sr act f r seed
      (none :: rest, out)

/-- The destination of 09 R169: inactive elements are zeroed or kept. -/
def vDest (w : Nat) (z : Bool) (old : VReg) (rs : List (Option (Nat × Events))) : VReg :=
  vBuild w (rs.mapIdx (fun i r => match r with
    | some (b, _) => b
    | none => if z then 0 else vEl old w i))

def vEvents (rs : List (Option (Nat × Events))) : Events :=
  rs.foldl (fun a r => match r with | some (_, ev) => a ||| ev | none => a) 0

/-- The elements that raised an enabled event (09 R174). -/
def vTrapMask (u : HwUnit) (rs : List (Option (Nat × Events))) : Nat :=
  (rs.mapIdx (fun i r => match r with | some (_, ev) => if u.trapped ev then 2 ^ i else 0 | none => 0)).sum

/-- The exception of a vector word: the union of events, and the element mask (09 R174). -/
def vFault (u : HwUnit) (i : Instr) (ev : Events) (mask : Nat) : LaneFault :=
  ⟨0x30, 0, u.pc, u.widx, ev.setWidth 64, u.srcs i 0, BitVec.ofNat 64 mask, 0⟩

/-- A word of kind V: takes effect whole, or, where an enabled event is raised, not at all (09 R173, R174). -/
def State.vIssue (s : State) (u : HwUnit) (i : Instr) (e : LaneSet) (u' : HwUnit) (ev : Events) (mask : Nat) : State :=
  if mask != 0 then (s.passWord u.id).raise u.id [vFault u i ev mask]
  else s.issueFixed u (u'.setFlags ev) i e

/-- An element-wise word (09 R169). -/
def vWord (i : Instr) (s : State) (gv : Bool) (pg : Vr) (z : Bool) (d : Vr) (w : Nat) (sr : HwUnit → Bool)
    (f : HwUnit → Nat → Nat → Nat × Events) : Host.Outcome State Fault Refusal :=
  word i s (fun u e s =>
    let (rs, seed) := vRun (sr u) (vAct u gv pg w) (f u) (List.range (512 / w)) u.seed
    s.vIssue u i e { u.setVr d (vDest w z (u.V d) rs) with seed := seed } (vEvents rs) (vTrapMask u rs))

/-- An integer element word (09 R171). -/
def vInt (i : Instr) (s : State) (t : Wd) (g : Gov) (shift : Bool) (d a : Vr) (b : VSrc) (r : Nat → Nat → Nat → Int) :
    Host.Outcome State Fault Refusal :=
  vWord i s g.gv g.pg g.z d t.bits (fun _ => false) (fun u k _ =>
    (slice (r t.bits (vEl (u.V a) t.bits k) (b.el u shift t.bits k)) t.bits, 0))

/-- A floating-point element word (09 R172). -/
def vFlt (i : Instr) (s : State) (t : Ty) (g : Gov) (d a : Vr) (b : VSrc) (f : HwUnit → Nat → Nat → Nat → Nat × Events) :
    Host.Outcome State Fault Refusal :=
  vWord i s g.gv g.pg g.z d t.bits (fun _ => false) (fun u k _ =>
    f u (vEl (u.V a) t.bits k) (b.el u false t.bits k) (vEl (u.V d) t.bits k))

/-- VADD (09 Table 9-2). -/
def execVadd (h : Hdr) (t : Wd) (gov : Gov) (sat : Bool) (d a : Vr) (b : VSrc) (s : State) : Host.Outcome State Fault Refusal :=
  vInt (.vadd h t gov sat d a b) s t gov false d a b (fun n a b => if sat then clampS n (sgn a n + sgn b n) else (a + b : Nat))
/-- VADDU (09 Table 9-2). -/
def execVaddu (h : Hdr) (t : Wd) (gov : Gov) (d a : Vr) (b : VSrc) (s : State) : Host.Outcome State Fault Refusal :=
  vInt (.vaddu h t gov d a b) s t gov false d a b (fun n a b => clampU n (a + b : Nat))
/-- VSUB (09 Table 9-2). -/
def execVsub (h : Hdr) (t : Wd) (gov : Gov) (sat : Bool) (d a : Vr) (b : VSrc) (s : State) : Host.Outcome State Fault Refusal :=
  vInt (.vsub h t gov sat d a b) s t gov false d a b (fun n a b => if sat then clampS n (sgn a n - sgn b n) else (a : Int) - b)
/-- VSUBU (09 Table 9-2). -/
def execVsubu (h : Hdr) (t : Wd) (gov : Gov) (d a : Vr) (b : VSrc) (s : State) : Host.Outcome State Fault Refusal :=
  vInt (.vsubu h t gov d a b) s t gov false d a b (fun n a b => clampU n ((a : Int) - b))
/-- VMUL (09 Table 9-2). -/
def execVmul (h : Hdr) (t : Wd) (gov : Gov) (d a : Vr) (b : VSrc) (s : State) : Host.Outcome State Fault Refusal :=
  vInt (.vmul h t gov d a b) s t gov false d a b (fun n a b => sgn a n * sgn b n)
/-- VMULH (09 Table 9-2). -/
def execVmulh (h : Hdr) (t : Wd) (gov : Gov) (d a : Vr) (b : VSrc) (s : State) : Host.Outcome State Fault Refusal :=
  vInt (.vmulh h t gov d a b) s t gov false d a b (rMulh)
/-- VMULHU (09 Table 9-2). -/
def execVmulhu (h : Hdr) (t : Wd) (gov : Gov) (d a : Vr) (b : VSrc) (s : State) : Host.Outcome State Fault Refusal :=
  vInt (.vmulhu h t gov d a b) s t gov false d a b (rMulhu)
/-- VMIN (09 Table 9-2). -/
def execVmin (h : Hdr) (t : Wd) (gov : Gov) (d a : Vr) (b : VSrc) (s : State) : Host.Outcome State Fault Refusal :=
  vInt (.vmin h t gov d a b) s t gov false d a b (fun n a b => Min.min (sgn a n) (sgn b n))
/-- VMAX (09 Table 9-2). -/
def execVmax (h : Hdr) (t : Wd) (gov : Gov) (d a : Vr) (b : VSrc) (s : State) : Host.Outcome State Fault Refusal :=
  vInt (.vmax h t gov d a b) s t gov false d a b (fun n a b => Max.max (sgn a n) (sgn b n))
/-- VMINU (09 Table 9-2). -/
def execVminu (h : Hdr) (t : Wd) (gov : Gov) (d a : Vr) (b : VSrc) (s : State) : Host.Outcome State Fault Refusal :=
  vInt (.vminu h t gov d a b) s t gov false d a b (fun _ a b => (Min.min a b : Nat))
/-- VMAXU (09 Table 9-2). -/
def execVmaxu (h : Hdr) (t : Wd) (gov : Gov) (d a : Vr) (b : VSrc) (s : State) : Host.Outcome State Fault Refusal :=
  vInt (.vmaxu h t gov d a b) s t gov false d a b (fun _ a b => (Max.max a b : Nat))
/-- VAND (09 Table 9-2). -/
def execVand (h : Hdr) (t : Wd) (gov : Gov) (d a : Vr) (b : VSrc) (s : State) : Host.Outcome State Fault Refusal :=
  vInt (.vand h t gov d a b) s t gov false d a b (fun _ a b => (a &&& b : Nat))
/-- VOR (09 Table 9-2). -/
def execVor (h : Hdr) (t : Wd) (gov : Gov) (d a : Vr) (b : VSrc) (s : State) : Host.Outcome State Fault Refusal :=
  vInt (.vor h t gov d a b) s t gov false d a b (fun _ a b => (a ||| b : Nat))
/-- VXOR (09 Table 9-2). -/
def execVxor (h : Hdr) (t : Wd) (gov : Gov) (d a : Vr) (b : VSrc) (s : State) : Host.Outcome State Fault Refusal :=
  vInt (.vxor h t gov d a b) s t gov false d a b (fun _ a b => (a ^^^ b : Nat))
/-- VSHL (09 Table 9-2). -/
def execVshl (h : Hdr) (t : Wd) (gov : Gov) (d a : Vr) (b : VSrc) (s : State) : Host.Outcome State Fault Refusal :=
  vInt (.vshl h t gov d a b) s t gov true d a b (rShl)
/-- VSHR (09 Table 9-2). -/
def execVshr (h : Hdr) (t : Wd) (gov : Gov) (d a : Vr) (b : VSrc) (s : State) : Host.Outcome State Fault Refusal :=
  vInt (.vshr h t gov d a b) s t gov true d a b (rShr)
/-- VSRA (09 Table 9-2). -/
def execVsra (h : Hdr) (t : Wd) (gov : Gov) (d a : Vr) (b : VSrc) (s : State) : Host.Outcome State Fault Refusal :=
  vInt (.vsra h t gov d a b) s t gov true d a b (rSra)

/-- An element as an exact value. -/
def elF (t : Ty) (b : Nat) : FVal := t.fmt.widen (b % 2 ^ t.bits)

/-- VFADD (09 Table 9-3). -/
def execVfadd (h : Hdr) (t : Ty) (gov : Gov) (rm : Rm) (d a : Vr) (b : VSrc) (s : State) : Host.Outcome State Fault Refusal :=
  vFlt (.vfadd h t gov rm d a b) s t gov d a b (fun u x y _ => fpRound t u rm false false (fAdd (isRdn u rm) (elF t x) (elF t y)))
/-- VFMUL (09 Table 9-3). -/
def execVfmul (h : Hdr) (t : Ty) (gov : Gov) (rm : Rm) (d a : Vr) (b : VSrc) (s : State) : Host.Outcome State Fault Refusal :=
  vFlt (.vfmul h t gov rm d a b) s t gov d a b (fun u x y _ => fpRound t u rm false false (fMul (elF t x) (elF t y)))
/-- VFMA (09 Table 9-3). -/
def execVfma (h : Hdr) (t : Ty) (gov : Gov) (rm : Rm) (d a : Vr) (b : VSrc) (s : State) : Host.Outcome State Fault Refusal :=
  vFlt (.vfma h t gov rm d a b) s t gov d a b (fun u x y c => fpRound t u rm false false (fMulAdd (isRdn u rm) (elF t x) (elF t y) (elF t c)))
/-- VFMIN (09 Table 9-3). -/
def execVfmin (h : Hdr) (t : Ty) (gov : Gov) (d a : Vr) (b : VSrc) (s : State) : Host.Outcome State Fault Refusal :=
  vFlt (.vfmin h t gov d a b) s t gov d a b (fun _ x y _ => (t.fmt.minMax false false x y, 0))
/-- VFMAX (09 Table 9-3). -/
def execVfmax (h : Hdr) (t : Ty) (gov : Gov) (d a : Vr) (b : VSrc) (s : State) : Host.Outcome State Fault Refusal :=
  vFlt (.vfmax h t gov d a b) s t gov d a b (fun _ x y _ => (t.fmt.minMax true false x y, 0))

/-- Which source element a target element of a conversion comes from (09 R180); none: the element is outside the part. -/
def cvtFrom (t ts : Ty) (part k : Nat) : Option Nat :=
  if t.elems ≤ ts.elems then some (part * t.elems + k)
  else if part * ts.elems ≤ k ∧ k < part * ts.elems + ts.elems then some (k - part * ts.elems) else none

/-- VFCVT and VFCVTU (09 R180): target elements outside the part are kept whatever z holds. -/
def vCvt (i : Instr) (s : State) (uns : Bool) (t ts : Ty) (g : Gov) (rm : Rm) (sat : Bool) (part : Nat) (d a : Vr) : Host.Outcome State Fault Refusal :=
  word i s (fun u e s =>
    let w := t.bits
    let mode := effMode u.fpstat (srTarget t) rm
    let (rs, seed) := vRun (mode == .sr) (fun k => vAct u g.gv g.pg w k && (cvtFrom t ts part k).isSome)
      (fun k draw => t.write uns mode sat false draw (ts.read uns false (vEl (u.V a) ts.bits ((cvtFrom t ts part k).getD 0))))
      (List.range t.elems) u.seed
    let dst := vBuild w (rs.mapIdx (fun k r => match r with
      | some (b, _) => b
      | none => if g.z && (cvtFrom t ts part k).isSome then 0 else vEl (u.V d) w k))
    s.vIssue u i e { u.setVr d dst with seed := seed } (vEvents rs) (vTrapMask u rs))

/-- VFCVT (09 R180). -/
def execVfcvt (h : Hdr) (t ts : Ty) (gov : Gov) (rm : Rm) (sat : Bool) (part : BitVec 3) (d a : Vr) (s : State) : Host.Outcome State Fault Refusal :=
  vCvt (.vfcvt h t ts gov rm sat part d a) s false t ts gov rm sat part.toNat d a
/-- VFCVTU (09 R180). -/
def execVfcvtu (h : Hdr) (t ts : Ty) (gov : Gov) (rm : Rm) (sat : Bool) (part : BitVec 3) (d a : Vr) (s : State) : Host.Outcome State Fault Refusal :=
  vCvt (.vfcvtu h t ts gov rm sat part d a) s true t ts gov rm sat part.toNat d a

/-- VCMP: all ones where the condition holds (09 R175). -/
def execVcmp (h : Hdr) (c : Cond) (t : Ty) (gov : Gov) (d a : Vr) (b : VSrc) (s : State) : Host.Outcome State Fault Refusal :=
  vWord (.vcmp h c t gov d a b) s gov.gv gov.pg gov.z d t.bits (fun _ => false) (fun u k _ =>
    let x := vEl (u.V a) t.bits k
    let y := b.el u false t.bits k
    (if (if t.isInt then cond c t.bits x y else fCond c (elF t x) (elF t y)) then 2 ^ t.bits - 1 else 0, 0))

/-- VWHILE (09 R176). -/
def execVwhile (h : Hdr) (t : Ty) (d : Vr) (a b : Xr) (s : State) : Host.Outcome State Fault Refusal :=
  vWord (.vwhile h t d a b) s false 0 false d t.bits (fun _ => false) (fun u k _ =>
    (if ((u.lane 0).X a).toInt + k < ((u.lane 0).X b).toInt then 2 ^ t.bits - 1 else 0, 0))

/-- VLEN (09 R177). -/
def execVlen (h : Hdr) (d : Xr) (s : State) : Host.Outcome State Fault Refusal := laneWord (.vlen h d) s (fun l => l.setX d 512)

/-- VSEL: every element is written (09 R178). -/
def execVsel (h : Hdr) (t : Ty) (pg : Vr) (d a b : Vr) (s : State) : Host.Outcome State Fault Refusal :=
  vWord (.vsel h t pg d a b) s false 0 false d t.bits (fun _ => false) (fun u k _ =>
    (if vAct u true pg t.bits k then vEl (u.V a) t.bits k else vEl (u.V b) t.bits k, 0))

/-- VBCAST of an x register (09 R178). -/
def execVbcast (h : Hdr) (t : Ty) (gov : Gov) (d : Vr) (a : Xr) (s : State) : Host.Outcome State Fault Refusal :=
  vWord (.vbcast h t gov d a) s gov.gv gov.pg gov.z d t.bits (fun _ => false) (fun u _ _ => (opX (u.lane 0) a t.bits, 0))

/-- VBCAST of an element (09 R178). -/
def execVbcastElement (h : Hdr) (t : Ty) (gov : Gov) (d a : Vr) (el : BitVec 6) (s : State) : Host.Outcome State Fault Refusal :=
  vWord (.vbcastElement h t gov d a el) s gov.gv gov.pg gov.z d t.bits (fun _ => false) (fun u _ _ =>
    (vEl (u.V a) t.bits (el.toNat % t.elems), 0))

/-- VPERM (09 R178). -/
def execVperm (h : Hdr) (t : Ty) (gov : Gov) (d a b : Vr) (s : State) : Host.Outcome State Fault Refusal :=
  vWord (.vperm h t gov d a b) s gov.gv gov.pg gov.z d t.bits (fun _ => false) (fun u k _ =>
    (vEl (u.V a) t.bits (vEl (u.V b) t.bits k % t.elems), 0))

/-- VCOMPRESS (09 R179). -/
def execVcompress (h : Hdr) (t : Ty) (gv : Bool) (pg : Vr) (d a : Vr) (c : Xr) (s : State) : Host.Outcome State Fault Refusal :=
  let i := Instr.vcompress h t gv pg d a c
  word i s (fun u e s =>
    let l := ((List.range t.elems).filter (vAct u gv pg t.bits)).map (vEl (u.V a) t.bits)
    s.issueFixed u ((u.setVr d (vBuild t.bits l)).mapLanes e (fun _ x => x.setX c (BitVec.ofNat 64 l.length))) i e)

/-! ### Reductions and scans -/

/-- One combination of 09 R181: the value and the events. -/
abbrev Comb := Nat → Nat → Nat × Events

def addComb (u : HwUnit) (t : Ty) (rm : Rm) (sat : Bool) : Comb := fun x y =>
  if t.isInt then (slice (if sat then clampS t.bits (sgn x t.bits + sgn y t.bits) else (x + y : Nat)) t.bits, 0)
  else fpRound t u rm false false (fAdd (isRdn u rm) (elF t x) (elF t y))

def mmComb (t : Ty) (mx uns : Bool) : Comb := fun x y =>
  if t.isInt then
    let lt := if uns then decide (x ≤ y) else decide (sgn x t.bits ≤ sgn y t.bits)
    (if lt != mx then x else y, 0)
  else (t.fmt.minMax mx false x y, 0)

/-- A partial result: its value and the lowest active element that has entered it. -/
abbrev Part := Option (Nat × Nat)

/-- One level of the pairwise tree, with the element to which each combination's events are assigned (09 R174, R181). -/
def redLevel (c : Comb) : List Part → List Part × List (Nat × Events)
  | x :: y :: r =>
    let (rest, evs) := redLevel c r
    match x, y with
    | none, y => (y :: rest, evs)
    | some p, none => (some p :: rest, evs)
    | some (a, i), some (b, j) => (some ((c a b).1, min i j) :: rest, (min i j, (c a b).2) :: evs)
  | l => (l, [])

def redTree (c : Comb) : Nat → List Part → List Part × List (Nat × Events)
  | 0, l => (l, [])
  | fuel + 1, l =>
    let (l', e1) := redLevel c l
    let (l'', e2) := redTree c fuel l'
    (l'', e1 ++ e2)

/-- The reduction of 09 R181. -/
def reduce (c : Comb) (parts : List Part) (first : Nat) : Nat × List (Nat × Events) :=
  let (l, evs) := redTree c 6 parts
  match l.headD none with
  | none => (first, evs)
  | some (v, i) => ((c first v).1, (i, (c first v).2) :: evs)

def evUnion (l : List (Nat × Events)) : Events := l.foldl (fun a x => a ||| x.2) 0
def evMask (u : HwUnit) (l : List (Nat × Events)) : Nat :=
  (l.filter (fun x => u.trapped x.2)).foldl (fun a x => a ||| 2 ^ x.1) 0

/-- Issues a word of kind V* that is no memory word: its results land `lat` cycles later; while an enable is set, a word that can
raise an event lets no later word issue before it completes (09 R174, R189). -/
def State.vLater (s : State) (u : HwUnit) (i : Instr) (e : LaneSet) (ws : List RegWrite) (evs : List (Nat × Events)) (flt : Bool)
    (lat : Nat) : State :=
  let mask := evMask u evs
  let s' := s.issueLater u i e (fun o =>
    if mask = 0 then { o with writes := ws, flags := evUnion evs }
    else { o with faults := [vFault u i (evUnion evs) mask] }) lat
  if flt && u.fpstat.extractLsb' 8 5 != 0 then
    s'.modUnit u.id (fun w => { w with wait := some ⟨.other, s.ids, 0, s.now, s.now, [], false⟩ })
  else s'

def vReduce (i : Instr) (s : State) (t : Ty) (gv : Bool) (pg : Vr) (d a b : Vr) (adds : Bool) (c : HwUnit → Comb) : Host.Outcome State Fault Refusal :=
  word i s (fun u e s =>
    let parts := (List.range t.elems).map (fun k => if vAct u gv pg t.bits k then some (vEl (u.V a) t.bits k, k) else none)
    let (v, evs) := reduce (c u) parts (vEl (u.V b) t.bits 0)
    s.vLater u i e [.v d (vBuild t.bits [v])] evs (adds && !t.isInt) (if t.isInt then 6 else 10))

/-- VREDADD (09 R181). -/
def execVredadd (h : Hdr) (t : Ty) (gv : Bool) (pg : Vr) (rm : Rm) (sat : Bool) (d a b : Vr) (s : State) : Host.Outcome State Fault Refusal :=
  vReduce (.vredadd h t gv pg rm sat d a b) s t gv pg d a b true (fun u => addComb u t rm sat)
/-- VREDMIN (09 R181). -/
def execVredmin (h : Hdr) (t : Ty) (gv : Bool) (pg : Vr) (d a b : Vr) (s : State) : Host.Outcome State Fault Refusal :=
  vReduce (.vredmin h t gv pg d a b) s t gv pg d a b false (fun _ => mmComb t false false)
/-- VREDMINU (09 R181). -/
def execVredminu (h : Hdr) (t : Ty) (gv : Bool) (pg : Vr) (d a b : Vr) (s : State) : Host.Outcome State Fault Refusal :=
  vReduce (.vredminu h t gv pg d a b) s t gv pg d a b false (fun _ => mmComb t false true)
/-- VREDMAX (09 R181). -/
def execVredmax (h : Hdr) (t : Ty) (gv : Bool) (pg : Vr) (d a b : Vr) (s : State) : Host.Outcome State Fault Refusal :=
  vReduce (.vredmax h t gv pg d a b) s t gv pg d a b false (fun _ => mmComb t true false)
/-- VREDMAXU (09 R181). -/
def execVredmaxu (h : Hdr) (t : Ty) (gv : Bool) (pg : Vr) (d a b : Vr) (s : State) : Host.Outcome State Fault Refusal :=
  vReduce (.vredmaxu h t gv pg d a b) s t gv pg d a b false (fun _ => mmComb t true true)

/-- The prefix sums of 09 R182: for each element, the result of an active one, and the events. -/
def scan (c : Comb) (act : Nat → Bool) (el : Nat → Nat) : List Nat → Nat → List (Option (Nat × Events))
  | [], _ => []
  | k :: r, acc =>
    if act k then some (c acc (el k)) :: scan c act el r (c acc (el k)).1 else none :: scan c act el r acc

/-- VSCAN (09 R182). -/
def execVscan (h : Hdr) (t : Ty) (gov : Gov) (rm : Rm) (d a b : Vr) (s : State) : Host.Outcome State Fault Refusal :=
  let i := Instr.vscan h t gov rm d a b
  word i s (fun u e s =>
    let w := t.bits
    let rs := scan (addComb u t rm false) (vAct u gov.gv gov.pg w) (vEl (u.V a) w) (List.range t.elems) (vEl (u.V b) w (t.elems - 1))
    let evs := (rs.mapIdx (fun k r => (k, (r.map (·.2)).getD 0)))
    s.vLater u i e [.v d (vDest w gov.z (u.V d) rs)] evs (!t.isInt) (if t.isInt then 8 else 14))

/-! ### Ordered merges -/

/-- The merge of 09 R183 over items (key, words): the items out, and how many came from each source. -/
def mergeItems (uns : Bool) (w : Nat) : Nat → List (List Nat) → List (List Nat) → Nat → Nat → List (List Nat) × Nat × Nat
  | 0, _, _, i, j => ([], i, j)
  | fuel + 1, as, bs, i, j =>
    let le (x y : List Nat) : Bool :=
      if uns then decide (x.headD 0 ≤ y.headD 0) else decide (sgn (x.headD 0) w ≤ sgn (y.headD 0) w)
    match as, bs with
    | [], [] => ([], i, j)
    | x :: as', [] => let (o, i', j') := mergeItems uns w fuel as' [] (i + 1) j; (x :: o, i', j')
    | [], y :: bs' => let (o, i', j') := mergeItems uns w fuel [] bs' i (j + 1); (y :: o, i', j')
    | x :: as', y :: bs' =>
      if le x y then let (o, i', j') := mergeItems uns w fuel as' (y :: bs') (i + 1) j; (x :: o, i', j')
      else let (o, i', j') := mergeItems uns w fuel (x :: as') bs' i (j + 1); (y :: o, i', j')

/-- Items of a register: elements, or key and value pairs. -/
def itemsOf (v : VReg) (w : Nat) (kv : Bool) (n : Nat) : List (List Nat) :=
  (List.range n).map (fun m => if kv then [vEl v w (2 * m), vEl v w (2 * m + 1)] else [vEl v w m])

def vMerge (i : Instr) (s : State) (t : Wd) (kv uns : Bool) (d a b : Vr) (c : Xr) : Host.Outcome State Fault Refusal :=
  word i s (fun u e s =>
    let w := t.bits
    let cap := 512 / w / (if kv then 2 else 1)
    let x := ((u.lane 0).X c).toNat
    let (out, ni, nj) := mergeItems uns w cap (itemsOf (u.V a) w kv (min (x % 256) cap)) (itemsOf (u.V b) w kv (min (x / 256 % 256) cap)) 0 0
    s.vLater u i e [.v d (vBuild w out.flatten), .x 0 c (zext (out.length * 2 ^ 16 + nj * 2 ^ 8 + ni) 24)] [] false 4)

/-- VMERGE (09 R183). -/
def execVmerge (h : Hdr) (t : Wd) (d a b : Vr) (c : Xr) (s : State) : Host.Outcome State Fault Refusal := vMerge (.vmerge h t d a b c) s t false false d a b c
/-- VMERGEU (09 R183). -/
def execVmergeu (h : Hdr) (t : Wd) (d a b : Vr) (c : Xr) (s : State) : Host.Outcome State Fault Refusal := vMerge (.vmergeu h t d a b c) s t false true d a b c
/-- VMERGEKV (09 R183). -/
def execVmergekv (h : Hdr) (t : Wd) (d a b : Vr) (c : Xr) (s : State) : Host.Outcome State Fault Refusal := vMerge (.vmergekv h t d a b c) s t true false d a b c
/-- VMERGEKVU (09 R183). -/
def execVmergekvu (h : Hdr) (t : Wd) (d a b : Vr) (c : Xr) (s : State) : Host.Outcome State Fault Refusal := vMerge (.vmergekvu h t d a b c) s t true true d a b c

/-! ### Paired words -/

end Sys2Proof.Machine

namespace Sys2Proof

open Machine

/-- The type of a VP half. -/
def VHalf.type (x : VHalf) : Ty := (Ty.of (x.ty.setWidth 4)).getD .i8

/-- What one half of a VPAIR word computes in element k (02 Table 2-9); `dst`: its destination register. -/
def VHalf.op (x : VHalf) (u : HwUnit) (dst : Vr) (k draw : Nat) : Nat × Events :=
  let t := x.type
  let w := t.bits
  let a := vEl (u.V x.va) w k
  let b := vEl (u.V x.vb) w k
  let im := slice (sgn x.vb.toNat 5) w
  let int (r : Nat → Nat → Nat → Int) (b : Nat) : Nat × Events := (slice (r w a b) w, 0)
  match x.cop.toNat with
  | 0 => int (fun _ a b => (a + b : Nat)) b
  | 1 => int (fun _ a b => (a : Int) - b) b
  | 2 => int (fun n a b => sgn a n * sgn b n) b
  | 3 => int rMulh b
  | 4 => int (fun n a b => Min.min (sgn a n) (sgn b n)) b
  | 5 => int (fun n a b => Max.max (sgn a n) (sgn b n)) b
  | 6 => int (fun _ a b => (Min.min a b : Nat)) b
  | 7 => int (fun _ a b => (Max.max a b : Nat)) b
  | 8 => int (fun _ a b => (a &&& b : Nat)) b
  | 9 => int (fun _ a b => (a ||| b : Nat)) b
  | 10 => int (fun _ a b => (a ^^^ b : Nat)) b
  | 11 => int rShl b
  | 12 => int rShr b
  | 13 => int rSra b
  | 14 => int rShl x.vb.toNat
  | 15 => int rShr x.vb.toNat
  | 16 => int rSra x.vb.toNat
  | 17 => int (fun _ a b => (a + b : Nat)) im
  | 18 => fpRound t u .dyn false false (fAdd (isRdn u .dyn) (elF t a) (elF t b))
  | 19 => fpRound t u .dyn false false (fMul (elF t a) (elF t b))
  | 20 => fpRound t u .dyn false false (fMulAdd (isRdn u .dyn) (elF t a) (elF t b) (elF t (vEl (u.V dst) w k)))
  | 21 => (t.fmt.minMax false false a b, 0)
  | 22 => (t.fmt.minMax true false a b, 0)
  | 23 => (if vAct u true x.pg w k then a else b, 0)
  | 24 => (vEl (u.V x.va) w (b % t.elems), 0)
  | 25 =>
    let ts := (Ty.of (BitVec.ofNat 4 (x.vb.toNat % 8))).getD .f32
    match cvtFrom t ts 0 k with
    | some j => t.write false (effMode u.fpstat (srTarget t) .dyn) false false draw (ts.read false false (vEl (u.V x.va) ts.bits j))
    | none => (vEl (u.V dst) w k, 0)
  | 26 => (vEl (u.V x.va) w (x.vb.toNat % t.elems), 0)
  | 27 => int (fun _ a b => (a &&& b : Nat)) im
  | 28 => int (fun _ a b => (a ||| b : Nat)) im
  | 29 => int (fun _ a b => (a ^^^ b : Nat)) im
  | 30 => int (fun n a b => Min.min (sgn a n) (sgn b n)) im
  | _ => int (fun n a b => Max.max (sgn a n) (sgn b n)) im

/-- The elements in which a half acts: the governed ones, and in a narrowing conversion those of part 0; all in VSEL. -/
def VHalf.acts (x : VHalf) (u : HwUnit) (k : Nat) : Bool :=
  if x.cop.toNat = 23 then true
  else vAct u x.gv x.pg x.type.bits k &&
    (x.cop.toNat != 25 || (cvtFrom x.type ((Ty.of (BitVec.ofNat 4 (x.vb.toNat % 8))).getD .f32) 0 k).isSome)

/-- A half draws where it converts under SR (04 R75). -/
def VHalf.draws (x : VHalf) (u : HwUnit) : Bool := x.cop.toNat == 25 && effMode u.fpstat (srTarget x.type) .dyn == .sr

end Sys2Proof

namespace Sys2Proof.Machine

/-- VPAIR (02 R33 to R35, 09 R188): both halves read before either writes; one enabled event in either stops both. (DEDUCED, log 22.) -/
def execVpair (ha hb : VHalf) (s : State) : Host.Outcome State Fault Refusal :=
  let i := Instr.vpair ha hb
  word i s (fun u e s =>
    let da : Vr := BitVec.ofNat 5 ha.vd.toNat
    let db : Vr := BitVec.ofNat 5 (16 + hb.vd.toNat)
    let (ra, s1) := vRun (ha.draws u) (ha.acts u) (ha.op u da) (List.range ha.type.elems) u.seed
    let (rb, s2) := vRun (hb.draws u) (hb.acts u) (hb.op u db) (List.range hb.type.elems) s1
    let u' := (u.setVr da (vDest ha.type.bits false (u.V da) ra)).setVr db (vDest hb.type.bits false (u.V db) rb)
    s.vIssue u i e { u' with seed := s2 } (vEvents ra ||| vEvents rb) (vTrapMask u ra ||| vTrapMask u rb))

end Sys2Proof.Machine
end

