-- ==== Sys2Proof/Machine/Cache.lean ====
section
/-! DEFINITION. Cache.lean: accesses and their order, the L1s and L2 slices (13 R264 to R271, R288 to R296; 14 R302, R303). An
access is attempted as its word issues, and again when what it waited for may hold. -/

namespace Sys2Proof.Machine

/-! ### Accesses -/

/-- Rank of a scope, narrowest 0. -/
def rank : Scope → Nat
  | .ln => 0 | .tm => 1 | .cl => 2 | .di => 3 | .dv => 4 | .sy => 5

def State.acc? (s : State) (id : Nat) : Option Acc := s.accs.find? (·.id == id)
def State.modAcc (s : State) (id : Nat) (f : Acc → Acc) : State :=
  { s with accs := s.accs.map (fun a => if a.id == id then f a else a) }
def State.dropAcc (s : State) (id : Nat) : State := { s with accs := s.accs.filter (·.id != id) }

def Acc.v57 (a : Acc) : Nat := a.va % 2 ^ 57
def Acc.vf (a : Acc) : Nat := a.v57 / 128
def Acc.off (a : Acc) : Nat := a.va % 128
def Acc.die (a : Acc) : Nat := a.p / 32 / Config.clustersPerDie
/-- The L1 that holds the frame (05 R95). -/
def Acc.l1p (a : Acc) : Nat := if a.w ≤ 1 then a.p else a.p + a.vf % a.w
def Acc.l1s (a : Acc) : List Nat := if a.w ≤ 1 then [a.p] else (List.range a.w).map (a.p + ·)
/-- The words of the datum. -/
def Acc.dm (a : Acc) : Mask := datumMask a.off a.n

/-- What the access needs of a leaf (16 R348). -/
def AccKind.need : AccKind → Need
  | .fetch => .exec
  | .store | .amo _ | .lock | .cond | .bar _ => .write
  | _ => .read

/-- Indivisible steps, which port-B memory has no place for (13 R291). -/
def AccKind.atomic : AccKind → Bool
  | .amo _ | .lock | .cond | .bar _ => true
  | _ => false

def Acc.isCmd (a : Acc) : Bool := match a.owner with | .cmd .. => true | _ => false

def Acc.complete (a : Acc) : Bool := a.stage == .bound && decide (a.need ≤ a.perf)

/-- An access of an issuer, before its fields are filled in. -/
def HwUnit.access (u : HwUnit) (lane : Nat) (kind : AccKind) (rt : ReqType) (sc : Scope) (owner : Owner) (va n : Nat)
    (mask : Mask) : Acc where
  id := 0
  kind := kind
  rt := rt
  sc := sc
  owner := owner
  unit := some u.id
  lane := lane
  p := 32 * u.cluster + u.pipe
  w := u.w
  asid := u.asid
  super := u.super
  kclass := u.kclass
  ctx := u.ctx
  va := va
  n := n
  mask := mask
  puts := []
  arg := 0
  cmp := 0
  dst := none
  sx := true
  rel := none
  acq := none
  waits := none
  stage := .held
  xl := none
  got := none
  perf := 0
  need := 0
  told := false
  naks := 0
  fault := 0
  shot := false
  ord := 0
  seq := 0
  missed := false
  heirs := []

/-- An access of a word that faulted and issues again: the one that stands for it (14 R317). (DEDUCED, log 24.) -/
def State.refused? (s : State) (a : Acc) : Option Acc :=
  s.accs.find? (fun b => b.fault != 0 && b.unit == a.unit && b.lane == a.lane && b.va == a.va && b.n == a.n)

/-- Adds an access; it takes the number of one that it stands for again (14 R317). (DEDUCED, log 24.) -/
def State.addAcc (s : State) (a : Acc) : Nat × State :=
  match s.refused? a with
  | some b => (b.id, { s with accs := s.accs.map (fun c => if c.id == b.id then { a with id := b.id } else c) })
  | none => (s.ids, { s with ids := s.ids + 1, accs := s.accs ++ [{ a with id := s.ids }] })

/-- Adds the accesses of one word. They share its place in program order, which a word that issues again keeps (14 R301, R317). -/
def State.addBatch (s : State) (l : List Acc) : List Nat × State :=
  let o := (l.filterMap (fun a => (s.refused? a).map (·.ord))).foldl min s.ids
  l.zipIdx.foldl (fun (r : List Nat × State) q =>
    let (id, s) := r.2.addAcc { q.1 with ord := o, seq := q.2 }
    (r.1 ++ [id], s)) ([], s)

/-! ### Program order (14 R301, R302) -/

/-- `b` stands before `a`. -/
def Acc.precedes (b a : Acc) : Bool := decide (b.ord < a.ord) || (b.ord == a.ord && decide (b.seq < a.seq))

/-- `b` is an access of the agent of `a`, or of all lanes where `a` fetches for the team. -/
def Acc.ofAgent (b a : Acc) : Bool :=
  a.unit.isSome && b.unit == a.unit && (b.lane == a.lane || a.kind == .fetch)

def Acc.names (a : Acc) : Mask := a.dm ||| putMask a.puts

/-- Two accesses name a word in common. -/
def Acc.meets (a b : Acc) : Bool := a.vf == b.vf && a.asid == b.asid && a.names &&& b.names != 0

/-- Accesses to a datum in memory. -/
def AccKind.datum : AccKind → Bool
  | .load | .store | .amo _ | .lock | .cond | .bar _ => true
  | _ => false

/-- An access that others may be mutually scoped with: it reaches beyond its agent (14 R299, R304). -/
def Acc.reaches (a : Acc) : Bool :=
  a.kind.datum && (decide (2 ≤ rank a.sc) || (rank a.sc == 1 && (match a.unit with | some k => k.team | none => false)))

/-! ### How an access ends -/

/-- A fault of one lane's access, as its word reports it (18 R393). -/
def OutWord.laneFault (o : OutWord) (a : Acc) : LaneFault :=
  ⟨a.fault, a.lane, o.pc, o.widx, 0, ((o.srcs.find? (·.1 == a.lane)).map (·.2)).getD [], BitVec.ofNat 64 a.va, 0⟩

/-- The faults of a word's accesses: for each lane, that of its first access that faulted. -/
def faultsOf (o : OutWord) (bad : List Acc) : List LaneFault :=
  (bad.foldl (fun (r : List Acc) a => if r.any (fun b => b.lane == a.lane) then r else r ++ [a]) []).map o.laneFault

/-- Schedules the completion of a word whose accesses have all done their part. A store that was refused stays, never performed,
so that no later release of its agent is performed (10 R203, 14 R317). (DEDUCED, log 24.) -/
def State.outCheck (s : State) (oid : Nat) : State :=
  if s.accs.any (fun a => a.owner == .out oid && !a.complete && a.fault == 0) then s
  else
    match s.outw.find? (·.id == oid) with
    | none => s
    | some o =>
      if o.due then s
      else
        let bad := s.accs.filter (fun a => a.owner == .out oid && a.fault != 0)
        let o' := { o with due := true, slow := o.slow || !bad.isEmpty, faults := o.faults ++ faultsOf o bad }
        let s : State := { s with outw := s.outw.map (fun x => if x.id == oid then o' else x),
                                  accs := s.accs.filter (fun a => !(a.owner == .out oid && a.fault != 0 && a.kind != .store)) }
        if s.now ≤ o.born then
          (if o'.slow then s.post (.wordComplete oid) else s.at_ (o.born + 8) (.wordComplete oid))
        else s.soon (.wordComplete oid)

/-- A round of tests of a BARWAIT has ended (17 R367): the unit goes on where every lane is done or has faulted, and its lanes' faults are
raised; else it waits for the next completion, or for the interval to pass, and traps at its limit. -/
def State.barrierRound (s : State) (u : HwUnit) (w : Wait) : State :=
  let regs := s.barWaits.filter (fun b => b.unit == u.id && b.id == w.id)
  let stop := fun (s : State) (fs : List LaneFault) => ((s.setUnit { u with wait := none, done := 0 }).passWord u.id).raise u.id fs
  if regs.isEmpty then (if w.faults.isEmpty then s.setUnit u.unblock else stop s w.faults)
  else if ((s.cluster u.cluster).waitlim.extractLsb' 0 32).toNat ≤ w.fails then
    stop { s with barWaits := s.barWaits.filter (fun b => b.unit != u.id) }
      (w.faults ++ regs.map (fun b => (⟨0x83, b.lane, u.pc, u.widx, 0, [], 0, 0⟩ : LaneFault)))
  else s.setUnit { u with wait := some { w with fails := w.fails + 1, last := s.now } }

/-- The status with which a command ends for a cause (11 Table 11-8). -/
def cmdStatus (cause : Nat) : Nat := if cause = 0x66 then 9 else if cause = 0x60 then 6 else if cause = 0x61 then 4 else 2

def Cluster.modCmd (c : Cluster) (id : Nat) (f : Cmd → Cmd) : Cluster :=
  { c with chans := c.chans.map (fun ch => { ch with cmds := ch.cmds.map (fun x => if x.id == id then f x else x) }) }

/-- The row of the opcode table to which a command belongs, by its code (11 Table 11-6). -/
def cmdEv (code c id : Nat) : Ev :=
  match code with
  | 0 => .copy c id
  | 1 => .copy2d c id
  | 2 => .gather c id
  | 3 => .scatter c id
  | 4 => .fill c id
  | 5 => .convert c id
  | 6 => .tileld c id
  | 7 => .tilest c id
  | 8 => .flagset c id
  | _ => .bardec c id

def Cluster.cmd? (c : Cluster) (id : Nat) : Option Cmd := (c.chans.flatMap (·.cmds)).find? (·.id == id)

def Cmd.code (k : Cmd) : Nat := ((k.words.headD 0).extractLsb' 60 4).toNat

/-- A command goes on once none of its accesses is under way, in its channel's turn of this cycle (10 R202). -/
def State.cmdNudge (s : State) (c id : Nat) : State :=
  let mine := fun (a : Acc) => match a.owner with | .cmd c' id' _ => c' == c && id' == id && !a.complete | _ => false
  if s.accs.any mine then s
  else match (s.cluster c).cmd? id with
    | some k => s.at_ s.now (cmdEv k.code c id)
    | none => s

/-- What a blocked unit waits for has ended, and it goes on with its word. -/
def State.waitDone (s : State) (k : UKey) : State :=
  if s.accs.any (fun b => b.owner == .unit k && !b.complete && b.fault == 0) then s
  else
    match s.unit? k with
    | none => s
    | some u =>
      match u.wait with
      | some w => if w.kind == .barrier then s.barrierRound u w else s.setUnit { u.unblock with released := true }
      | none => s

/-- The access has done what its owner waits for. -/
def State.tellOwner (s : State) (a : Acc) : State :=
  match a.owner with
  | .out oid => s.outCheck oid
  | .late oid =>
    if s.accs.any (fun b => b.owner == .late oid && !b.complete && b.fault == 0) then s
    else { s with lates := s.lates ++ [oid] }
  | .unit k =>
    s.waitDone k
  | .fetch k =>
    if s.accs.any (fun b => b.owner == .fetch k && !b.complete && b.fault == 0) then s
    else s.modUnit k (fun u => { u with fetching := false })
  | .cmd c cid _ =>
    let n := if a.kind == .store then a.cmp else 0
    (s.modCluster c (fun cl => cl.modCmd cid (fun x => { x with landed := x.landed + n }))).cmdNudge c cid
  | .none => s

/-- Takes note of what an access has reached: its owner hears of it once, and an access performed everywhere is dropped. -/
def State.settle (s : State) (id : Nat) : State :=
  match s.acc? id with
  | none => s
  | some a =>
    if !a.complete then s
    else
      let s : State := s.modAcc id (fun a => { a with told := true })
      let s : State := if 6 ≤ a.perf then s.dropAcc id else s
      if a.told then s else s.tellOwner a

/-- A store, atomic or STCK that is performed at .cl or wider taints the idempotent region of its team (18 R401). -/
def State.taintBy (s : State) (id perf : Nat) : State :=
  match s.acc? id with
  | none => s
  | some a =>
    let stores := match a.kind with | .store | .amo _ | .cond | .through => true | _ => false
    match a.unit with
    | some k => if stores && decide (3 ≤ perf) then s.modUnit k (fun (u : HwUnit) => { u with taint := u.taint || u.idem.isSome }) else s
    | none => s

/-- The access has taken effect; it is performed at every scope of a rank below `perf`. -/
def State.effect (s : State) (id perf : Nat) : State :=
  ((s.taintBy id perf).modAcc id (fun a => { a with stage := .bound, perf := max a.perf perf })).settle id

/-- The register write that brings a value to the destination of an access. -/
def fillWrite (w : RegWrite) (v : Nat) : RegWrite :=
  match w with
  | .x l r _ => .x l r (BitVec.ofNat 64 v)
  | .p l r _ => .p l r (v % 2 == 1)
  | .ve r o n _ => .ve r o n v
  | .v r x => .v r x

/-- The accesses of an owner that no longer waits for them: those under way end without effect on it, the others go. -/
def State.abandon (s : State) (o : Owner) : State :=
  { s with accs := (s.accs.filter (fun (b : Acc) => b.owner != o || b.stage == .sent)).map (fun (b : Acc) =>
      if b.owner == o then { b with owner := .none, unit := none, acq := none } else b) }

/-- The access ends with a fault: it has no effect. Of a vector store, no later element is performed either (09 R187). A lane of a BARWAIT that faults
waits for the others (17 R366). (DEDUCED, log 19.) -/
def State.accFault (s : State) (id cause : Nat) : State :=
  match s.acc? id with
  | none => s
  | some a =>
    let keep := match a.owner with | .out _ => true | _ => false
    let s : State := if keep then s.modAcc id (fun a => { a with stage := .bound, fault := cause, perf := 0 }) else s.dropAcc id
    match a.owner with
    | .out oid =>
      let team := match a.unit with | some k => k.team | none => false
      let s : State := if a.kind == .store && !team then
          { s with accs := s.accs.map (fun b => if b.owner == a.owner && a.precedes b && b.stage != .bound then
              { b with stage := .bound, fault := cause, perf := 0 } else b) } else s
      s.outCheck oid
    | .unit k =>
      match s.unit? k with
      | none => s
      | some u =>
        let f : LaneFault := ⟨cause, a.lane, u.pc, u.widx, 0, [], BitVec.ofNat 64 a.va, 0⟩
        (s.setUnit { u with wait := u.wait.map (fun w => { w with faults := w.faults ++ [f] }), done := u.done ||| lane1 a.lane }).waitDone k
    | .fetch k =>
      match s.unit? k with
      | none => s
      | some u =>
        let s : State := s.abandon (.fetch k)
        (s.setUnit { u with fetching := false, fbuf := [] }).raise k
          ((mkFaults u.active u.n cause u.pc 0).map (fun f => { f with dw24 := BitVec.ofNat 64 a.va }))
    | .cmd c cid _ => (s.modCluster c (fun cl => cl.modCmd cid (fun x => if x.status = 0 then { x with status := cmdStatus cause } else x))).cmdNudge c cid
    | .late _ | .none => s

/-! ### Allocation and eviction -/

def L2Line.new (die asid vf : Nat) (pf : PAddr) (perm : BitVec 8) (cls : Option RClass) : L2Line :=
  ⟨die, asid, vf, pf, Vector.replicate 32 .i, zeroWords, 0, perm, cls, 0⟩

def L1Line.new (p asid vf : Nat) (pf : PAddr) (perm : BitVec 8) (cls : Option RClass) : L1Line :=
  ⟨p, asid, vf, pf, 0, 0, 0, 0, zeroWords, perm, cls, 0⟩

/-- A stope pins the line: of its die, and of its ASID or global (13 R267, R272). -/
def Stope.covers (t : Stope) (l : L2Line) : Bool :=
  t.die == l.die && (t.asid == l.asid || l.asid == 0) && decide (t.base / 128 ≤ l.vf) && decide (l.vf < t.base / 128 + t.frames)

/-- A line covered by a stope of its die (13 R272). -/
def State.pinned (s : State) (l : L2Line) : Bool := s.stopes.any (fun t => t.covers l)

/-- Marks the stope of a line that an access hits (13 R273). -/
def State.touchStope (s : State) (l : L2Line) : State :=
  { s with stopes := s.stopes.map (fun t => if t.covers l then { t with hit := true } else t) }

/-- The slice of a frame, one of its die's 80 (13 R269, 01 Table 1-1). -/
def sliceOf (vf : Nat) : Nat := Config.l2Slice vf % 80

/-- The lines that 4.8 MiB hold (13 Table 13-1). -/
def sliceLines : Nat := 39321

/-- The home die's words go to its memory directly, where it is not recorded as their owner (13 R270). -/
def State.writesHome (s : State) (die : Nat) (pf : PAddr) : Bool :=
  pf.space == .dev && s.home pf == die && (match s.entry? pf with | some e => !(e.st != .s && e.owner == die) | none => true)

/-- Writes words of a die's line home: directly, or by WBK from the write-back buffer (13 R280). -/
def State.sendHome (s : State) (l : L2Line) (ps : List Put) : State :=
  if ps.isEmpty then s
  else if s.writesHome l.die l.pf then s.memBack l.pf ps
  else
    let m := putMask ps
    let s : State := { s with wbufs := s.wbufs ++ [⟨l.die, sliceOf l.vf, l.pf, m, applyPuts zeroWords ps,
                                            maskWhere (fun i => ps.any (fun p => p.w == i && p.bad))⟩] }
    s.wire (toHub l.die) (.wbk l.die l.pf m (applyPuts zeroWords ps).toList)

/-- A die gives up words of a line: dirty ones are written home, and clean ones of a frame that has an entry are told by EVC (13 Table 13-3). -/
def State.dropWords (s : State) (l : L2Line) (m : Mask) : State :=
  let s : State := s.recallLine l m none
  match s.l2.find? (fun x => x.same l) with
  | none => s
  | some l =>
    let s : State := s.sendHome l (l.dirtyPuts m)
    let clean := m &&& l.where_ (· == .c)
    let s : State := if clean != 0 && (s.entry? l.pf).isSome then s.wire (toHub l.die) (.evc l.die l.pf clean) else s
    (s.setL2 (l.mark m (fun _ => .i))).clearResv l.pf m (fun _ _ p => p == .l2 l.die)

/-- Dirty words of a line, in the slice or owned by an L1. -/
def State.dirtyLine (s : State) (l : L2Line) : Bool :=
  l.where_ (· == .d) != 0 ||
  s.l1.any (fun k => k.vf == l.vf && k.asid == l.asid && k.p / 32 / Config.clustersPerDie == l.die && k.owned &&& k.dirty != 0)

/-- A line's dirty words can go home now: its granule is not in re-classing (15 R334), and a buffer of 32 frames has room (13 R280). (DEDUCED, log
16.) -/
def State.canDrop (s : State) (l : L2Line) : Bool :=
  !s.dirtyLine l ||
  (if s.writesHome l.die l.pf then !s.reclassing l.pf
   else decide ((s.wbufs.filter (fun b => b.die == l.die && b.slice == sliceOf l.vf)).length < 32))

/-- Eviction of an L2 line. -/
def State.evictL2 (s : State) (l : L2Line) : State :=
  let s : State := s.dropWords l 0xFFFFFFFF
  { s with l2 := s.l2.filter (fun x => !x.same l) }

/-- The least recently used of a list of lines. -/
def oldestLine : List L2Line → Option L2Line
  | [] => none
  | l :: r => match oldestLine r with
    | none => some l
    | some k => if l.used ≤ k.used then some l else some k

/-- The home copy of a frame that is held by subscription (13 R276). -/
def State.heldCopy (s : State) (l : L2Line) : Bool := match s.entry? l.pf with | some e => e.held && e.home == l.die | none => false

/-- The line that goes to make room for a frame: of its set the least recently used that may go, where the set is full (log 8), and of its slice
where that holds all that it can. A line of the same tag, kept by a stope over another frame (R272), goes first. (DESIGN CHOICE, log 8.) -/
def State.l2Victim (s : State) (die asid vf : Nat) (pf : PAddr) : Option L2Line :=
  match s.l2At die asid vf with
  | some l => if l.pf == pf then none else some l
  | none =>
    let mine := s.l2.filter (fun l => l.die == die && sliceOf l.vf == sliceOf vf)
    let may := mine.filter (fun l => !s.pinned l && !s.heldCopy l)
    let set := may.filter (fun l => Config.l2Set l.vf == Config.l2Set vf)
    if Config.l2Full s.fresh || decide (sliceLines ≤ mine.length) then
      (oldestLine set).orElse (fun _ => if sliceLines ≤ mine.length then oldestLine may else none)
    else none

/-- A frame has a line in the slice, or one can be made: a full write-back buffer holds back the eviction that this takes (13 R280). -/
def State.l2Room (s : State) (die asid vf : Nat) (pf : PAddr) : Bool :=
  match s.l2Victim die asid vf pf with
  | some l => s.canDrop l
  | none => true

/-- A line in the slice, allocated if absent and if there is room. -/
def State.l2Alloc (s : State) (die asid vf : Nat) (pf : PAddr) (perm : BitVec 8) (cls : Option RClass) : State :=
  if ((s.l2At die asid vf).filter (fun l => l.pf == pf)).isSome || !s.l2Room die asid vf pf then s
  else
    let s : State := match s.l2Victim die asid vf pf with | some l => s.evictL2 l | none => s
    { s with fresh := s.fresh + 1, ids := s.ids + 1, l2 := s.l2 ++ [{ L2Line.new die asid vf pf perm cls with used := s.ids }] }

/-- The line of a frame in the slice. -/
def State.lineOf (s : State) (die asid vf : Nat) (pf : PAddr) : Option L2Line := (s.l2At die asid vf).filter (fun l => l.pf == pf)

/-- The line is used; `hit`: by an access that hits it (13 R273). -/
def State.use2 (s : State) (l : L2Line) (hit : Bool) : State :=
  let s : State := { s with ids := s.ids + 1, l2 := s.l2.map (fun x => if x.same l then { x with used := s.ids } else x) }
  if hit then s.touchStope l else s

/-- Clean words arrive in a line of the slice. -/
def L2Line.fill (l : L2Line) (m : Mask) (ws : Vector W32 32) (bad : Mask) : L2Line :=
  let m := m &&& l.where_ (· == .i)
  { l.mark m (fun _ => .c) with words := pickWords m ws l.words, poison := (l.poison &&& ~~~m) ||| (bad &&& m) }

/-- Words of a line written by a store: dirty. -/
def L2Line.write (l : L2Line) (ps : List Put) : L2Line :=
  { l.mark (putMask ps) (fun _ => .d) with words := applyPuts l.words ps, poison := poisonAfter l.poison ps }

/-! ### Writing to the slice and on -/

/-- Words of a frame for which stores of a die are pending at the home (13 R270). -/
def State.pendingWords (s : State) (die : Nat) (pf : PAddr) : Mask :=
  s.accs.foldl (fun m a => if a.stage == .sent && (a.kind == .through || a.kind == .store) && a.die == die &&
    (a.xl.map (·.pf)) == some pf then m ||| putMask a.puts else m) 0

/-- The owner's entry goes from E to M (13 R278). -/
def State.dirtied (s : State) (die : Nat) (pf : PAddr) : State :=
  match s.entry? pf with
  | some e => if e.st == .e && e.owner == die then s.setEntry { e with st := .m } else s
  | none => s

/-- The request of an access reaches a memory controller at a FULL hole, which refuses it (15 R322). -/
def State.inHole (s : State) (pf : PAddr) : Bool := pf.space == .dev && s.hole (pf.addr * 128)

/-- Stores of the die to these words are taken by its own slice (13 R270). -/
def State.ownSlice (s : State) (die : Nat) (pf : PAddr) (m : Mask) : Bool := s.homeLocal die pf || s.owns die pf m

/-- Whole words of an access go to the slice: into it where the die owns them or the frame is home-local, else through the hub
to the home (13 Table 13-3, R270). They wait for a line of it (R280). -/
def State.throughGo (s : State) (id : Nat) : State :=
  match s.acc? id with
  | none => s
  | some a =>
    match a.xl with
    | none => s
    | some x =>
      let m := putMask a.puts
      let asid := if x.glob then 0 else a.asid
      if a.rt == .uc && s.homeLocal a.die x.pf then
        if s.reclassing x.pf then s
        else if s.inHole x.pf then (s.memBack x.pf a.puts).effect id 6
        else (((s.pull x.pf m).homePuts x.pf a.puts).storeClears x.pf m a.unit a.lane).effect id 6
      else if a.rt != .uc && s.ownSlice a.die x.pf m then
        let s : State := s.l2Alloc a.die asid a.vf x.pf x.perm x.cls
        match s.lineOf a.die asid a.vf x.pf with
        | none => s
        | some l =>
          let s : State := s.recallLine l m none
          let s : State := match s.lineOf a.die asid a.vf x.pf with
            | some l => (s.setL2 (l.write a.puts)).use2 l (m &&& ~~~(l.where_ (· != .i)) == 0)
            | none => s
          let s : State := ((s.storeClears x.pf m a.unit a.lane).dirtied a.die x.pf)
          s.effect id 6
      else
        (s.modAcc id (fun a => { a with stage := .sent })).wire (toHub a.die)
          (.stw a.die x.pf m (applyPuts zeroWords a.puts).toList id)

/-- The words of an L1 line as writes. -/
def L1Line.putsOfMask (l : L1Line) (m : Mask) : List Put := (wordsOfMask m).map (fun i => ⟨i, l.word i, 15, l.poison.getLsbD i⟩)

/-- Dirty words of an L1 line are written through; the accesses that carry them (13 Table 13-2). -/
def State.flushLine (s : State) (by_ : Option UKey) (lane : Nat) (super : Bool) (l : L1Line) (m : Mask) (rt : ReqType := .wt) :
    List Nat × State :=
  let d := l.dirty &&& ~~~l.owned &&& m
  if d = 0 then ([], s)
  else
    let a : Acc := { id := 0, kind := .through, rt := rt, sc := .cl, owner := .none, unit := by_, lane := lane, p := l.p, w := 1,
                     asid := l.asid, super := super, kclass := 0, ctx := 0, va := l.vf * 128, n := 4, mask := d,
                     puts := l.putsOfMask d, arg := 0, cmp := 0, dst := none, sx := false, rel := none, acq := none,
                     waits := some [], stage := .held, xl := some ⟨l.pf, l.perm, false, l.cls, l.asid == 0⟩, got := none,
                     perf := 2, need := 0, told := true, naks := 0, fault := 0, shot := false, ord := s.ids, seq := 0,
                     missed := false, heirs := [] }
    let (id, s) := (s.ids, { s with ids := s.ids + 1, accs := s.accs ++ [{ a with id := s.ids }] })
    ([id], (s.setL1 { l with dirty := l.dirty &&& ~~~d }).throughGo id)

/-- The dirty words of several L1s are written through. -/
def State.flushL1s (s : State) (by_ : Option UKey) (lane : Nat) (super : Bool) (ps : List Nat) : List Nat × State :=
  (s.l1.filter (fun l => ps.contains l.p && l.dirty &&& ~~~l.owned != 0)).foldl (fun (r : List Nat × State) l =>
    let (ids, s) := r.2.flushLine by_ lane super l 0xFFFFFFFF
    (r.1 ++ ids, s)) ([], s)

/-- Owned words of an L1 line go back to its slice, which keeps them dirty where they were written. -/
def State.surrender (s : State) (l : L1Line) (m : Mask) : State :=
  match s.l2At (l.p / 32 / Config.clustersPerDie) l.asid l.vf with
  | some k => s.recallL1 k l.p m
  | none => s

/-- Eviction of an L1 line. -/
def State.evictL1 (s : State) (l : L1Line) : State :=
  let s : State := (s.flushLine none 0 true l 0xFFFFFFFF).2
  let s : State := s.surrender l 0xFFFFFFFF
  ({ s with l1 := s.l1.filter (fun x => !x.same l) } : State).clearResv l.pf 0xFFFFFFFF (fun _ _ p => p == .l1 l.p)

/-- The way that a full set of four gives up (log 8). (DESIGN CHOICE, log 8, 12.) -/
def State.l1Victim (s : State) (p asid vf : Nat) : Option L1Line :=
  match s.l1At p asid vf with
  | some _ => none
  | none =>
    let set := s.l1.filter (fun l => l.p == p && Config.l1Set l.vf % 128 == Config.l1Set vf % 128)
    if set.length < 4 then none else set[Config.victim s.fresh % set.length]?

/-- Frames evicted from an L1 whose dirty words are on their way to the slice: what its write-back buffer holds (13 R280). -/
def State.evicting (s : State) (p : Nat) : Nat :=
  ((s.accs.filter (fun b => b.kind == .through && b.unit.isNone && b.p == p && b.stage != .bound)).map (·.vf)).eraseDups.length

/-- A frame has a line in an L1, or one can be made: its write-back buffer of 8 frames holds back an eviction of dirty words. -/
def State.l1Room (s : State) (p asid vf : Nat) : Bool :=
  match s.l1Victim p asid vf with
  | some l => l.dirty == 0 || decide (s.evicting p < 8)
  | none => true

/-- A line in an L1, allocated if absent and if there is room. (DESIGN CHOICE, log 12.) -/
def State.l1Alloc (s : State) (p asid vf : Nat) (pf : PAddr) (perm : BitVec 8) (cls : Option RClass) : State :=
  if (s.l1At p asid vf).isSome || !s.l1Room p asid vf then s
  else
    let s : State := match s.l1Victim p asid vf with | some l => s.evictL1 l | none => s
    { s with fresh := s.fresh + 1, l1 := s.l1 ++ [L1Line.new p asid vf pf perm cls] }

/-- Words arrive in an L1 line: clean, and none that is dirty or owned there is touched (13 R265). -/
def L1Line.fill (l : L1Line) (m : Mask) (ws : Vector W32 32) (bad : Mask) : L1Line :=
  let m := m &&& ~~~l.dirty &&& ~~~l.owned
  { l with valid := l.valid ||| m, words := pickWords m ws l.words, poison := (l.poison &&& ~~~m) ||| (bad &&& m) }

/-- Words of an L1 line written by a store. -/
def L1Line.write (l : L1Line) (ps : List Put) (dirty : Bool) : L1Line :=
  let m := putMask ps
  { l with valid := l.valid ||| m, dirty := if dirty then l.dirty ||| m else l.dirty &&& ~~~m, words := applyPuts l.words ps,
           poison := poisonAfter l.poison ps }

/-! ### Acquire and release (14 R303) -/

/-- The cache actions of an acquire, none at .ln and .tm (13 R268, Table 13-2), and the fetches that follow it (02 R16). -/
def State.acquire (s : State) (by_ : Option UKey) (lane : Nat) (super : Bool) (ps : List Nat) (sc : Scope) : State :=
  let s : State := match by_ with | some k => s.modUnit k (fun (u : HwUnit) => { u with fbuf := [] }) | none => s
  if rank sc < 2 then s
  else
    let s : State := (s.flushL1s by_ lane super ps).2
    { s with l1 := s.l1.map (fun l => if ps.contains l.p && l.perm.getLsbD 2 then { l with valid := l.valid &&& l.owned } else l) }

def State.acquireOf (s : State) (a : Acc) (sc : Scope) : State := s.acquire a.unit a.lane a.super a.l1s sc

/-- Accesses of one agent that precede another and are not performed at a scope, write-throughs of its L1 among them. -/
def State.before (s : State) (a : Acc) (sc : Scope) : List Nat :=
  (s.accs.filter (fun b => b.precedes a && decide (b.perf ≤ rank sc) &&
    ((b.ofAgent a && b.kind != .pref) ||
     (b.kind == .through && (a.l1s.contains b.p || b.heirs.any (fun k => some k == a.unit)))))).map (·.id)

/-- A release begins: dirty words are written through, and it waits for those writes and for what precedes it. -/
def State.beginRelease (s : State) (a : Acc) (sc : Scope) : State :=
  let w := s.before a sc
  if rank sc < 2 then s.modAcc a.id (fun a => { a with waits := some w })
  else
    let (ids, s) := s.flushL1s a.unit a.lane a.super a.l1s
    s.modAcc a.id (fun a => { a with waits := some (w ++ ids) })

/-- Whether every access that a release waits for is performed at its scope. -/
def State.waitOver (s : State) (w : List Nat) (sc : Scope) : Bool :=
  w.all (fun i => match s.acc? i with | some b => decide (rank sc < b.perf) | none => true)

/-- Two steps at a bank that touch a scratchpad word in common. -/
def Acc.shares (a b : Acc) : Bool :=
  a.kind == .spad && b.kind == .spad && decide (a.va / 4 ≤ (b.va + b.n - 1) / 4) && decide (b.va / 4 ≤ (a.va + a.n - 1) / 4)

/-- Program order holds an access back (14 R302): an acquire before it that has not bound its value, an earlier access to the
same word that has not taken its place, or an earlier element of its vector store (09 R187). -/
def State.laneHolds (s : State) (a : Acc) : Bool :=
  s.accs.any (fun b => b.precedes a && b.fault == 0 && b.stage != .bound && b.ofAgent a &&
    (b.acq.isSome || (b.kind == .store && a.kind == .store && b.owner == a.owner && b.stage != .sent) ||
      b.shares a ||
      (b.kind != .fence && b.kind != .spad && b.kind != .pref && a.kind != .fence && a.kind != .spad && b.meets a)))

/-- The lanes of one word that name a word in common take their places in ascending lane order (10 R202; 13 R288, R289, R293; 17 R365). -/
def State.lanesHold (s : State) (a : Acc) : Bool :=
  s.accs.any (fun b => b.precedes a && b.ord == a.ord && b.unit == a.unit && b.fault == 0 && b.stage != .bound &&
    (b.shares a || (a.kind.datum && a.kind != .load && b.meets a)))

/-- Accesses of one agent that others may be mutually scoped with are performed one after the other, each at its own scope, so that no program
without a data race sees them out of order (14 R309). (DEDUCED, log 47.) -/
def State.reachHolds (s : State) (a : Acc) : Bool :=
  a.reaches && s.accs.any (fun b => b.reaches && b.precedes a && b.ord != a.ord && b.ofAgent a && b.fault == 0 && decide (b.perf ≤ rank b.sc))

def State.heldBack (s : State) (a : Acc) : Bool := s.laneHolds a || s.lanesHold a || s.reachHolds a

/-! ### Binding a value -/

/-- The word for which an access is made: its clause and index (15 R331). -/
def State.wordOf (s : State) (a : Acc) : Word × Nat :=
  let held := fun (id : Nat) => (s.outw.find? (fun (o : OutWord) => o.id == id)).map (fun (o : OutWord) => (o.pc, o.widx))
  let found := match a.owner with
    | .out id => held id
    | .late id => held id
    | _ => (a.unit.bind s.unit?).map (fun (u : HwUnit) => (u.pc, u.widx))
  found.getD (0, 0)

/-- The charge of an error that an access has seen; `ends`: it ends the access with 0x60, or with 0x62 (15 R326, R331). It reaches the hub in this
cycle, in its turn. (DEDUCED, log 29.) -/
def State.chargeOf (s : State) (a : Acc) (ends : Bool) : State :=
  s.at_ s.now (.errorCharge a.ctx a.unit a.lane (s.wordOf a).1 (s.wordOf a).2 false (if ends then a.id else 0))

/-- A FULL kernel's access ends with a fault as its charge is applied; until then it is under way. -/
def State.poisoned (s : State) (a : Acc) : State := (s.modAcc a.id (fun a => { a with stage := .sent })).chargeOf a true

/-- The access binds a value: its register will take it, its acquire acts. Poison is seen by the consumer (15 R326). (DEDUCED, log 29.) -/
def State.bindVal (s : State) (id v : Nat) (bad : Bool) (perf : Nat) (hit : Bool) : State :=
  match s.acc? id with
  | none => s
  | some a =>
    let go := fun (s : State) =>
      let s : State := match a.owner with
        | .out oid => { s with outw := s.outw.map (fun o => if o.id == oid then
            { o with writes := o.writes ++ (a.dst.map (fun w => fillWrite w v)).toList, slow := o.slow || !hit } else o) }
        | .fetch k =>
          let got := (List.range (a.n / 4)).map (fun i => (a.v57 / 4 + i, BitVec.ofNat 32 (v / 2 ^ (32 * i))))
          s.modUnit k (fun u => { u with fbuf := u.fbuf ++ got })
        | .cmd c cid piece =>
          let got := (List.range a.n).map (fun i => (piece + i, BitVec.ofNat 8 (v / 2 ^ (8 * i)), bad))
          s.modCluster c (fun cl => cl.modCmd cid (fun x =>
            { x with src := x.src ++ got, pois := if bad then x.pois ++ [piece] else x.pois,
                     scls := x.scls ++ (a.xl.bind (·.cls)).toList }))
        | _ => s
      let s : State := match a.acq with | some sc => s.acquireOf a sc | none => s
      s.effect id perf
    let cmd := match a.owner with | .cmd .. | .fetch _ => true | _ => false
    if bad && !cmd && a.kind != .pref then
      if a.kclass == 0 then s.poisoned a
      else if a.kclass == 1 then (go s).chargeOf a false
      else go s
    else go s

/-- The value that a load of an access takes from the words of its frame. -/
def Acc.value (a : Acc) (ws : Vector W32 32) : Nat :=
  let v := datumOf ws a.off a.n
  if a.sx then (sext v (8 * a.n)).toNat else v

def State.loadDone (s : State) (a : Acc) (ws : Vector W32 32) (bad : Mask) (hit : Bool) : State :=
  s.bindVal a.id (a.value ws) (bad &&& a.dm != 0) 6 hit

/-! ### Translation of an access -/

/-- What a line says of its page. -/
def L2Line.xl (l : L2Line) : Xl := ⟨l.pf, l.perm, false, l.cls, l.asid == 0⟩
def L1Line.xl (l : L1Line) : Xl := ⟨l.pf, l.perm, false, l.cls, l.asid == 0⟩

/-- A write into a granule of a class above the kernel's (15 R328). -/
def classViolation (kclass : BitVec 2) (cls : Option RClass) : Bool :=
  match cls with | some c => decide (classCode c < kclass.toNat) | none => false

/-- The access acts as .uc: by its request type, by the page, because the memory is a port-B peer's (13 R291), or because the
frame's directory slice has failed (R282). -/
def State.actsUc (s : State) (a : Acc) (x : Xl) : Bool :=
  a.rt == .uc || x.nc || x.pf.space == .portB || (s.sliceDown x.pf && s.home x.pf != a.die)

/-- What the lines that an access hits say of its page: its L1's, else its slice's, where they hold the words of a mask (16 R343). -/
def State.lineXl (s : State) (a : Acc) (m : Mask) : Option Xl :=
  (((if a.isCmd then none else s.l1At a.l1p a.asid a.vf).filter (fun l => m &&& ~~~l.valid == 0)).map L1Line.xl).orElse (fun _ =>
    ((s.l2At a.die a.asid a.vf).filter (fun l => m &&& ~~~(l.where_ (· != .i)) == 0)).map L2Line.xl)

/-- Writes that the class check holds for (15 R328): LDLK loads. -/
def AccKind.stores : AccKind → Bool
  | .store | .amo _ | .cond | .bar _ => true
  | _ => false

/-- A translated access ends here where its memory has no place for it, no route leads there, or the kernel's class does not reach it. PREF is dropped
(13 R291, R295; 15 R328; 19 R428). -/
def State.checked (s : State) (a : Acc) (x : Xl) : Option Xl × State :=
  let cause := if a.kind.atomic && x.pf.space == .portB then 0x53
    else if s.unreachable x.pf then 0xA4
    else if a.kind.stores && classViolation a.kclass x.cls then 0x61 else 0
  if cause = 0 then (some x, s.modAcc a.id (fun a => { a with xl := some x }))
  else if a.kind == .pref then (none, s.effect a.id 6)
  else (none, s.accFault a.id cause)

/-- Where the access goes: from a line that it hits, whose record decides; else from a TLB; else its unit walks (16 R343). It may end here. -/
def State.look (s : State) (a : Acc) (hit : Option Xl) : Option Xl × State :=
  let toUnit := fun (st : AccStage) => (s.modAcc a.id (fun a => { a with stage := st })).post (.translationWalk a.id)
  match a.xl, hit with
  | some x, _ => s.checked a x
  | none, some x => if permits x.perm a.kind.need a.super then s.checked a x else (none, toUnit .denied)
  | none, none =>
    match s.tlbHit a.die a.asid a.v57 a.kind.need a.super with
    | some x => s.checked a x
    | none => (none, toUnit .walk)

/-- The request goes to the hub. -/
def State.ask (s : State) (a : Acc) (e : Ev) : State :=
  (s.modAcc a.id (fun a => { a with stage := .sent, missed := true })).wire (toHub a.die) e

/-- An access that reaches a memory controller at a hole ends with 0x66 (15 R322); PREF is dropped. -/
def State.holeFault (s : State) (a : Acc) : State := if a.kind == .pref then s.effect a.id 6 else s.accFault a.id 0x66

/-! ### The slice supplies words -/

/-- The line's words of a mask, once other L1s have given them up; none where some are missing or pending. -/
def State.supply (s : State) (die asid vf : Nat) (pf : PAddr) (m : Mask) (hit : Bool) : Option L2Line × State :=
  match s.lineOf die asid vf pf with
  | none => (none, s)
  | some l =>
    let s : State := s.recallLine l m none
    match s.lineOf die asid vf pf with
    | none => (none, s)
    | some l =>
      if m &&& ~~~(l.where_ WordState.valid) == 0 && s.pendingWords die l.pf &&& m == 0 then (some l, s.use2 l hit) else (none, s)

/-- Words of a mask that the die's slice does not hold. -/
def State.missing (s : State) (die asid vf : Nat) (pf : PAddr) (m : Mask) : Mask :=
  match s.lineOf die asid vf pf with | some l => m &&& l.where_ (· == .i) | none => m

/-- Fills the missing words of a home-local frame from memory. -/
def State.fillLocal (s : State) (die asid vf : Nat) (x : Xl) (m : Mask) : State :=
  let s : State := s.l2Alloc die asid vf x.pf x.perm x.cls
  match s.lineOf die asid vf x.pf with
  | none => s
  | some l =>
    let miss := m &&& l.where_ (· == .i)
    if miss = 0 then s
    else
      let (ws, bad, s) := s.memWords x.pf miss
      s.setL2 { l.fill miss ws bad with perm := x.perm, cls := x.cls }

/-- The access tag of its lines. -/
def Acc.tag (a : Acc) (x : Xl) : Nat := if x.glob then 0 else a.asid

/-- Makes the words of a mask clean or dirty in the die's slice, or asks for them: the line, or none while they are awaited. -/
def State.obtain (s : State) (a : Acc) (x : Xl) (m : Mask) : Option L2Line × State :=
  let lack := s.missing a.die (a.tag x) a.vf x.pf m
  if lack != 0 && s.homeLocal a.die x.pf && s.reclassing x.pf then
    (none, (s.modAcc a.id (fun a => { a with stage := .sent })).nak (.rds a.die x.pf m a.id))
  else if lack != 0 && s.homeLocal a.die x.pf && s.inHole x.pf then (none, s.holeFault a)
  else
    let s : State := if s.homeLocal a.die x.pf then s.fillLocal a.die (a.tag x) a.vf x m else s
    match s.supply a.die (a.tag x) a.vf x.pf m (!a.missed && lack == 0) with
    | (some l, s) => (some l, s)
    | (none, s) =>
      if s.homeLocal a.die x.pf || s.pendingWords a.die x.pf &&& m != 0 then (none, s)
      else (none, s.ask a (.rds a.die x.pf (s.missing a.die (a.tag x) a.vf x.pf m) a.id))

/-- Makes the die the owner of the words of a mask (13 R270, Table 13-11), or asks for them. -/
def State.obtainOwned (s : State) (a : Acc) (x : Xl) (m : Mask) : Option L2Line × State :=
  if s.homeLocal a.die x.pf then s.obtain a x m
  else if s.owns a.die x.pf m then
    match s.supply a.die (a.tag x) a.vf x.pf m (!a.missed) with
    | (some l, s) => (some l, s)
    | (none, s) => if s.pendingWords a.die x.pf &&& m != 0 then (none, s) else (none, s.ask a (.rdo a.die x.pf m a.id))
  else (none, s.ask a (.rdo a.die x.pf m a.id))

/-- The issuer's L1 owns the words of a mask, or asks for them: the L1 line (13 Table 13-2, .ow). -/
def State.ownL1 (s : State) (a : Acc) (x : Xl) (m : Mask) : Option L1Line × State :=
  match (s.l1At a.l1p (a.tag x) a.vf).filter (fun l => m &&& ~~~l.owned == 0) with
  | some l => (some l, s)
  | none =>
    if !s.l1Room a.l1p (a.tag x) a.vf then (none, s)
    else
    -- dirty words of the L1 go to the slice first
    let s : State := match s.l1At a.l1p (a.tag x) a.vf with
      | some l => (s.flushLine a.unit a.lane a.super l m).2
      | none => s
    match s.obtainOwned a x m with
    | (none, s) => (none, s)
    | (some l, s) =>
      let dirty := m &&& l.where_ (· == .d)
      let s : State := s.l1Alloc a.l1p (a.tag x) a.vf x.pf x.perm x.cls
      match s.l1At a.l1p (a.tag x) a.vf, s.lineOf a.die (a.tag x) a.vf x.pf with
      | some k, some l =>
        let s : State := s.setL2 (l.mark m (fun _ => .l a.l1p))
        let k := k.fill m l.words l.poison
        let k := { k with owned := k.owned ||| m, dirty := (k.dirty &&& ~~~m) ||| dirty }
        (some k, (s.setL1 k).dirtied a.die x.pf)
      | _, _ => (none, s)

/-! ### Loads -/

/-- A load whose words the slice supplies: they fill the L1, once it has room for them, and the datum is bound. -/
def State.fillAndBind (s : State) (a : Acc) (x : Xl) (l : L2Line) : State :=
  let s : State := s.l1Alloc a.l1p (a.tag x) a.vf x.pf x.perm x.cls
  match s.l1At a.l1p (a.tag x) a.vf with
  | none => s
  | some k =>
    let k := k.fill a.mask l.words l.poison
    if a.kind == .pref then (s.setL1 k).effect a.id 6 else (s.setL1 k).loadDone a k.words k.poison false

/-- The issuer's L1 gives up its clean copies of the words of a load that is served at the home, which may be older than what it binds (14 R306). -/
def State.forget1 (s : State) (a : Acc) : State :=
  if a.isCmd then s
  else { s with l1 := s.l1.map (fun l => if l.p == a.l1p && l.vf == a.vf && (l.asid == a.asid || l.asid == 0) then
      { l with valid := l.valid &&& (~~~a.dm ||| l.dirty ||| l.owned) } else l) }

/-- A load that is served at its home as .uc (13 Table 13-2): at once where the die is the home and alone. -/
def State.loadAtHome (s : State) (a : Acc) (x : Xl) : State :=
  if a.kind == .pref then s.effect a.id 6
  else if s.homeLocal a.die x.pf && !s.reclassing x.pf then
    (if s.inHole x.pf then s.holeFault a
     else
       let (ws, bad, s) := s.homeWords x.pf a.dm
       (s.forget1 a).loadDone a ws bad false)
  else s.ask a (.rds a.die x.pf a.dm a.id)

/-- The words that a request brought are bound without being cached. -/
def State.bindGot (s : State) (a : Acc) (ws : List W32) (bad : Mask) : State :=
  if a.kind == .pref then s.effect a.id 6
  else (s.forget1 a).loadDone a (Vector.ofFn (fun i => ws.getD i.val 0)) bad false

/-- A command's read, through the die's slices or at the home (11 R224): no L1 takes part. -/
def State.cmdLoad (s : State) (a : Acc) : State :=
  match a.got with
  | some (ws, bad) => s.bindGot a ws bad
  | none =>
    match s.look a (s.lineXl a a.dm) with
    | (none, s) => s
    | (some x, s) =>
      if s.actsUc a x then s.loadAtHome a x
      else
        match s.obtain a x a.dm with
        | (none, s) => s
        | (some l, s) => s.loadDone a l.words l.poison false

/-- LD and every other plain read (13 Table 13-2). -/
def State.goLoad (s : State) (a : Acc) : State :=
  if a.isCmd then s.cmdLoad a else
  let l1 := s.l1At a.l1p a.asid a.vf
  let narrow := decide (rank a.sc ≤ 1)
  let hit := l1.filter (fun l => a.rt != .uc && (a.xl.isSome || permits l.perm a.kind.need a.super) &&
    (if narrow then a.mask &&& ~~~l.valid == 0 && (a.rt != .ow || a.mask &&& ~~~l.owned == 0) else a.dm &&& ~~~l.owned == 0))
  match hit with
  | some l => if a.kind == .pref then s.effect a.id 6 else s.loadDone a l.words l.poison narrow
  | none =>
    let dirty := l1.filter (fun l => (!narrow || a.rt == .uc) && l.dirty &&& ~~~l.owned &&& a.dm != 0)
    match dirty with
    | some l =>
      let (ids, s) := s.flushLine a.unit a.lane a.super l a.dm
      s.modAcc a.id (fun a => { a with waits := some (a.waits.getD [] ++ ids) })
    | none =>
      match a.got with
      | some (ws, bad) => s.bindGot a ws bad
      | none =>
        match s.look a (s.lineXl a a.mask) with
        | (none, s) => s
        | (some x, s) =>
          if s.actsUc a x then s.loadAtHome a x
          else if a.rt == .ow then
            match s.ownL1 a x a.mask with
            | (none, s) => s
            | (some l, s) => if a.kind == .pref then s.effect a.id 6 else s.loadDone a l.words l.poison false
          else
            match s.obtain a x a.mask with
            | (none, s) => s
            | (some l, s) => s.fillAndBind a x l

/-! ### Stores -/

/-- The home takes a .uc store at once, where the die is the home and the frame is its own. -/
def State.homeStore (s : State) (a : Acc) (x : Xl) : State :=
  let m := putMask a.puts
  if s.inHole x.pf then s.holeFault a
  else
    let s : State := (s.pull x.pf m).homePuts x.pf a.puts
    (s.storeClears x.pf m a.unit a.lane).effect a.id 6

/-- A command ends with a status, and its access with it. -/
def State.cmdFail (s : State) (a : Acc) (status : Nat) : State :=
  match a.owner with
  | .cmd c id _ => ((s.dropAcc a.id).modCluster c (fun cl => cl.modCmd id (fun x =>
      if x.status = 0 then { x with status := status } else x))).cmdNudge c id
  | _ => s

/-- A write that crosses from one class to another, by a command other than CONVERT (11 R233). -/
def State.crosses (s : State) (a : Acc) (cls : Option RClass) : Bool :=
  match a.owner, cls with
  | .cmd c id _, some k => ((s.cluster c).cmd? id).any (fun x => x.code != 5 && x.scls.any (· != k))
  | _, _ => false

/-- A command's write of bytes of a 64-byte block (11 R224, R233); a word of which it writes a part is read first. -/
def State.cmdStore (s : State) (a : Acc) : State :=
  let m := putMask a.puts
  match s.look a (s.lineXl a m) with
  | (none, s) => s
  | (some x, s) =>
    if s.crosses a x.cls then s.cmdFail a 5
    else if !s.actsUc a x && s.ownSlice a.die x.pf m && !s.l2Room a.die (a.tag x) a.vf x.pf then s
    else if s.actsUc a x then
      (if s.homeLocal a.die x.pf && !s.reclassing x.pf then s.homeStore a x
       else s.ask a (.stw a.die x.pf m (applyPuts zeroWords a.puts).toList a.id))
    else if a.puts.all Put.full then (s.modAcc a.id (fun a => { a with perf := 2 })).throughGo a.id
    else
      let go := fun (s : State) (ws : Vector W32 32) (bad : Mask) =>
        let v := applyPuts ws a.puts
        let ps := (wordsOfMask m).map (fun i => (⟨i, v.toList.getD i 0, 15,
          a.puts.any (fun p => p.w == i && p.bad) || (bad.getLsbD i && !(a.puts.any (fun p => p.w == i && p.full)))⟩ : Put))
        (s.modAcc a.id (fun a => { a with puts := ps, perf := 2 })).throughGo a.id
      match a.got with
      | some (ws, bad) => go s (Vector.ofFn (fun i => ws.getD i.val 0)) bad
      | none =>
        match s.obtain a x m with
        | (none, s) => s
        | (some l, s) => go s l.words l.poison

/-- ST and every other plain write (13 Table 13-2). -/
def State.goStore (s : State) (a : Acc) : State :=
  if a.isCmd then s.cmdStore a else
  let l1 := s.l1At a.l1p a.asid a.vf
  let m := putMask a.puts
  match s.look a (s.lineXl a m) with
  | (none, s) => s
  | (some x, s) =>
    if s.actsUc a x then
      -- the L1's copy of the words goes: dirty words through the slice, owned words surrendered
      let (ids, s) := match l1 with
        | some l => s.flushLine a.unit a.lane a.super l m
        | none => ([], s)
      if !ids.isEmpty then s.modAcc a.id (fun a => { a with waits := some (a.waits.getD [] ++ ids) })
      else
        let s : State := match s.l1At a.l1p a.asid a.vf with | some l => s.surrender l m | none => s
        let s : State := match s.l1At a.l1p a.asid a.vf with | some l => s.setL1 { l with valid := l.valid &&& ~~~m } | none => s
        if s.homeLocal a.die x.pf && !s.reclassing x.pf then s.homeStore a x
        else s.ask a (.stw a.die x.pf m (applyPuts zeroWords a.puts).toList a.id)
    else
      match l1.filter (fun l => m &&& ~~~l.owned == 0) with
      | some l => ((s.setL1 (l.write a.puts true)).storeClears x.pf m a.unit a.lane).effect a.id 6
      | none =>
        if a.rt == .ow then
          match s.ownL1 a x (a.mask ||| m) with
          | (none, s) => s
          | (some l, s) => ((s.setL1 (l.write a.puts true)).storeClears x.pf m a.unit a.lane).effect a.id 6
        else
          let short := a.puts.any (fun p => !p.full)
          let alloc := a.rt == .si
          let stay := alloc && decide (rank a.sc ≤ 1)
          let have_ := match l1 with | some l => m &&& ~~~l.valid == 0 | none => false
          if (alloc || short) && !s.l1Room a.l1p (a.tag x) a.vf || !stay && s.ownSlice a.die x.pf m && !s.l2Room a.die (a.tag x) a.vf x.pf then s
          else if short && !have_ then
            -- the containing word is filled first (R266)
            let fill := fun (s : State) (ws : Vector W32 32) (bad : Mask) =>
              let s : State := s.l1Alloc a.l1p (a.tag x) a.vf x.pf x.perm x.cls
              match s.l1At a.l1p (a.tag x) a.vf with
              | some k => s.setL1 (k.fill m ws bad)
              | none => s
            match a.got with
            | some (ws, bad) => fill s (Vector.ofFn (fun i => ws.getD i.val 0)) bad
            | none =>
              match s.obtain a x m with
              | (none, s) => s
              | (some l, s) => fill s l.words l.poison
          else
            let s : State := if alloc then s.l1Alloc a.l1p (a.tag x) a.vf x.pf x.perm x.cls else s
            let k := s.l1At a.l1p (a.tag x) a.vf
            let merged := match k with
              | some k => (wordsOfMask m).map (fun i => (⟨i, (applyPuts k.words a.puts).toList.getD i 0, 15,
                  !(a.puts.any (fun p => p.w == i && p.full)) && k.poison.getLsbD i⟩ : Put))
              | none => a.puts
            let s : State := match k with
              | some k => if alloc || m &&& k.valid != 0 then
                  s.setL1 (k.write (merged.filter (fun p => alloc || k.valid.getLsbD p.w)) stay) else s
              | none => s
            if stay then (s.storeClears x.pf m a.unit a.lane).effect a.id 6
            else
              (s.modAcc a.id (fun a => { a with puts := merged, perf := 2 })).throughGo a.id

/-! ### Indivisible steps -/

/-- What a step on a datum comes to: the new datum, the result, a fault. -/
structure StepRes where
  new   : Option Nat
  res   : Nat
  fault : Nat
deriving DecidableEq, Repr

/-- An atomic's new value (13 R289). -/
def amoNew (op : AmoOp) (n old b cmp : Nat) : Nat :=
  match op with
  | .add => (old + b) % 2 ^ n
  | .and => old &&& b
  | .or => old ||| b
  | .xor => old ^^^ b
  | .min => if sgn old n ≤ sgn b n then old else b
  | .max => if sgn b n ≤ sgn old n then old else b
  | .minu => Nat.min old b
  | .maxu => Nat.max old b
  | .swap => b
  | .cas => if old = cmp % 2 ^ n then b else old

/-- A barrier object after an arrival or a change of its pending bytes, with the completion of R364. -/
def barStep (phase remain pending count : Nat) : Nat × Bool :=
  let done := remain = 0 ∧ pending = 0
  let ph := if done then 1 - phase else phase
  let rm := if done then count % 2 ^ 15 else remain
  (ph * 2 ^ 63 + rm * 2 ^ 48 + pending, decide done)

/-- The effect of a barrier step on the object's 128 bits (17 R366). -/
def barNew (op : BarOp) (o arg : Nat) : StepRes :=
  let dw0 := o % 2 ^ 64
  let dw1 := o / 2 ^ 64
  let phase := dw0 / 2 ^ 63
  let remain := dw0 / 2 ^ 48 % 2 ^ 15
  let pending := dw0 % 2 ^ 48
  let count := dw1 % 2 ^ 15
  match op with
  | .init => ⟨some (arg % 2 ^ 15 * 2 ^ 48 + arg % 2 ^ 15 * 2 ^ 64), 0, 0⟩
  | .arr =>
    if remain = 0 then ⟨none, 0, 0x85⟩
    else
      let (d, done) := barStep phase (remain - 1) ((pending + arg % 2 ^ 48) % 2 ^ 48) count
      ⟨some (dw1 * 2 ^ 64 + d), phase + (if done then 2 else 0), 0⟩
  | .exp =>
    let (d, done) := barStep phase remain ((pending + arg % 2 ^ 48) % 2 ^ 48) count
    ⟨some (dw1 * 2 ^ 64 + d), if done then 2 else 0, 0⟩
  | .dec =>
    let (d, done) := barStep phase remain ((pending + 2 ^ 48 - arg % 2 ^ 48) % 2 ^ 48) count
    ⟨some (dw1 * 2 ^ 64 + d), if done then 2 else 0, 0⟩
  | .wait | .test => ⟨none, if phase != arg % 2 then 1 else 0, 0⟩

/-- The step of an access on its datum. -/
def Acc.step (a : Acc) (old : Nat) : StepRes :=
  match a.kind with
  | .amo op => ⟨some (amoNew op (8 * a.n) old (a.arg % 2 ^ (8 * a.n)) a.cmp), (sext old (8 * a.n)).toNat, 0⟩
  | .bar op => barNew op old a.arg
  | .cond => ⟨some (a.arg % 2 ^ (8 * a.n)), 1, 0⟩
  | _ => ⟨none, (sext old (8 * a.n)).toNat, 0⟩

/-- The lane's reservation. -/
def State.resvOf (s : State) (a : Acc) : Option Resv := (a.unit.bind s.unit?).bind (fun u => (u.lane a.lane).resv)

def State.setResv (s : State) (a : Acc) (r : Option Resv) : State :=
  match a.unit with
  | some k => s.modUnit k (fun u => u.mapLanes (lane1 a.lane) (fun _ l => { l with resv := r }))
  | none => s

/-- LDLK sets the reservation of its lane in place of any earlier one (13 R292), or none where there is no place to hold it (R293) or the holder
has issued another word of kind M before its STCK (cmp: 1); it ends 1,024 core cycles later. -/
def State.reserve (s : State) (a : Acc) (pf : PAddr) (place : Option ResvPlace) : State :=
  match a.unit, (if a.cmp == 0 then place else none) with
  | some k, some pl => (s.setResv a (some ⟨pf, a.mask, pl, s.now, a.id⟩)).at_ (s.now + 1024) (.reservationTimeout k a.lane a.id)
  | _, _ => s.setResv a none

/-- Where LDLK holds its reservation at the home: host memory and peer memory have no place for it (13 R292, R293). -/
def homePlace (pf : PAddr) : Option ResvPlace := if pf.space == .dev then some .home else none

/-- Waiters at a barrier object test again at its completion (17 R367). -/
def State.barWake (s : State) (pf : PAddr) (off : Nat) : State :=
  { s with barWaits := s.barWaits.map (fun b => if b.pf == pf && b.off == off then { b with woken := true } else b) }

/-- A lane whose test has failed is registered at the object, in the step of the test (17 R367). -/
def State.barRegister (s : State) (a : Acc) (pf : PAddr) : State :=
  match a.unit with
  | some k =>
    { s with barWaits := s.barWaits.filter (fun b => !(b.unit == k && b.lane == a.lane)) ++
        [⟨k, ((s.unit? k).bind (·.wait)).elim 0 (·.id), a.lane, pf, a.off, false,
          { a with stage := .held, xl := none, got := none, waits := none, perf := 0, told := false, missed := false }⟩] }
  | none => s

/-- The step has been made at its place: its store clears the reservations of others, the waiters of a completed barrier are woken, a waiter whose
phase has not changed is registered (13 R293, 17 R367). -/
def State.stepMade (s : State) (a : Acc) (pf : PAddr) (r : StepRes) : State :=
  if r.fault != 0 then s
  else
    let s : State := if r.new.isSome then s.storeClears pf a.dm a.unit a.lane else s
    match a.kind with
    | .bar .wait => if r.res = 1 then s else s.barRegister a pf
    | .bar op => if 2 ≤ r.res && op != .init && op != .test then s.barWake pf a.off else s
    | _ => s

/-- The result of a step reaches its issuer: the value binds, or the lane of a BARWAIT is done. `perf`: where its store is performed. -/
def State.stepDone (s : State) (a : Acc) (r : StepRes) (bad : Bool) (perf : Nat) : State :=
  if r.fault != 0 then s.accFault a.id r.fault
  else
    match a.kind with
    | .bar .wait =>
      let s : State := match a.unit with
        | some k => if r.res = 1 then (s.modUnit k (fun u => { u with done := u.done ||| lane1 a.lane })).acquireOf a a.sc else s
        | none => s
      (if bad && a.kclass == 1 then s.chargeOf a false else s).effect a.id 6
    | .bar .test =>
      let s : State := if r.res = 1 then s else s.modAcc a.id (fun a => { a with acq := none })
      s.bindVal a.id r.res bad 6 false
    | .cond => s.bindVal a.id r.res false perf false
    | _ => s.bindVal a.id r.res bad perf false

/-- Poison that a step would consume in a FULL kernel ends it before it is made. STCK reads no datum (15 R326). -/
def State.stepBad (s : State) (a : Acc) (bad : Bool) : Option State :=
  if bad && a.kclass == 0 && a.kind != .cond && a.unit.isSome && (match a.owner with | .cmd .. => false | _ => true) then some (s.poisoned a)
  else none

/-- The words that a step writes. -/
def stepPuts (a : Acc) (v : Nat) (bad : Bool) : List Put := (putsOf a.off a.n v).map (fun p => { p with bad := bad })

/-- Atomics, LDLK, STCK and the barrier steps at their place (13 Table 13-11). -/
def State.goStep (s : State) (a : Acc) : State :=
  let l1 := if a.isCmd then none else s.l1At a.l1p a.asid a.vf
  match s.look a (s.lineXl a a.dm) with
  | (none, s) => s
  | (some x, s) =>
    let uc := s.actsUc a x
    let far := uc || (a.rt != .ow && 4 ≤ rank a.sc)
    -- STCK: only within a reservation
    let r := s.resvOf a
    let held := match r with | some r => r.pf == x.pf && a.dm &&& ~~~r.mask == 0 | none => false
    if a.kind == .cond && !held then (s.setResv a none).bindVal a.id 0 false 6 false
    else if a.rt == .ow && !uc then
      match s.ownL1 a x a.mask with
      | (none, s) => s
      | (some l, s) =>
        let bad := l.poison &&& a.dm != 0
        match s.stepBad a bad with
        | some s => s
        | none =>
          let r := a.step (datumOf l.words a.off a.n)
          let s : State := match r.new with | some v => s.setL1 (l.write (stepPuts a v bad) true) | none => s
          let s : State := if a.kind == .lock then s.reserve a x.pf (some (.l1 a.l1p)) else if a.kind == .cond then s.setResv a none else s
          (s.stepMade a x.pf r).stepDone a r bad 6
    else
      -- the issuer's L1 writes through a dirty copy and drops its copy
      let (ids, s) := match l1 with
        | some l => s.flushLine a.unit a.lane a.super l a.dm
        | none => ([], s)
      if !ids.isEmpty then s.modAcc a.id (fun a => { a with waits := some (a.waits.getD [] ++ ids) })
      else
        let s : State := if a.isCmd then s else
          match s.l1At a.l1p a.asid a.vf with | some l => s.surrender l a.dm | none => s
        let s : State := if a.isCmd then s else
          match s.l1At a.l1p a.asid a.vf with | some l => s.setL1 { l with valid := l.valid &&& ~~~a.dm } | none => s
        if far then
          if s.homeLocal a.die x.pf && !s.reclassing x.pf then
            if s.inHole x.pf then s.holeFault a
            else
              let (ws, pb, s) := s.homeWords x.pf a.dm
              let bad := pb &&& a.dm != 0
              match s.stepBad a bad with
              | some s => s
              | none =>
                let r := a.step (datumOf ws a.off a.n)
                let s : State := match r.new with | some v => s.homePuts x.pf (stepPuts a v bad) | none => s
                let s : State := if a.kind == .lock then s.reserve a x.pf (homePlace x.pf) else if a.kind == .cond then s.setResv a none else s
                (s.stepMade a x.pf r).stepDone a r bad 6
          else s.ask a (.stw a.die x.pf a.dm [] a.id)
        else
          match s.obtainOwned a x a.mask with
          | (none, s) => s
          | (some l, s) =>
            let bad := l.poison &&& a.dm != 0
            match s.stepBad a bad with
            | some s => s
            | none =>
              let r := a.step (datumOf l.words a.off a.n)
              let s : State := match r.new with | some v => (s.setL2 (l.write (stepPuts a v bad))).dirtied a.die x.pf | none => s
              let s : State := if a.kind == .lock then s.reserve a x.pf (some (.l2 a.die)) else if a.kind == .cond then s.setResv a none else s
              (s.stepMade a x.pf r).stepDone a r bad 6

/-! ### Span maintenance and subscriptions -/

/-- The owned dirty words that L1s of a die hold of a line are copied into the slice; the L1s keep them, as owned and dirty (13 Table 13-12). -/
def State.copyOwned (s : State) (l : L2Line) (m : Mask) (p : Nat → Bool) : State :=
  (s.l1.filter (fun k => p k.p && k.vf == l.vf && k.asid == l.asid && k.p / 32 / Config.clustersPerDie == l.die)).foldl (fun s k =>
    let d := m &&& k.owned &&& k.dirty
    match s.l2.find? (fun x => x.same l) with
    | some l => s.setL2 { l with words := pickWords d k.words l.words, poison := (l.poison &&& ~~~d) ||| (k.poison &&& d) }
    | none => s) s

/-- The dirty words of a mask of a die's line go to the home or to memory; the line stays valid, and owned where it is owned (13 Table 13-12,
WBSPAN at .dv and .sy). -/
def State.cleanLine (s : State) (l : L2Line) (m : Mask) : State :=
  let s : State := s.copyOwned l m (fun _ => true)
  match s.l2.find? (fun x => x.same l) with
  | none => s
  | some l =>
    let mine := fun (k : L1Line) => k.vf == l.vf && k.asid == l.asid && k.p / 32 / Config.clustersPerDie == l.die
    let inL1 := s.l1.foldl (fun (d : Mask) k => if mine k then d ||| (k.owned &&& k.dirty) else d) 0
    let d := m &&& (l.where_ (· == .d) ||| inL1)
    let s : State := s.memBack l.pf ((wordsOfMask d).map (fun i => ⟨i, l.word i, 15, l.poison.getLsbD i⟩))
    let s : State := { s with l1 := s.l1.map (fun k => if mine k then { k with dirty := k.dirty &&& ~~~(d &&& k.owned) } else k) }
    s.setL2 (l.mark (d &&& l.where_ (· == .d)) (fun _ => .c))

/-- INVSPAN and WBSPAN (13 Table 13-12). -/
def State.goMaint (s : State) (a : Acc) (inv : Bool) : State :=
  if !inv && rank a.sc < 2 then s.effect a.id 6
  else
    let (ids, s) := match s.l1At a.l1p a.asid a.vf with
      | some l => s.flushLine a.unit a.lane a.super l a.mask
      | none => ([], s)
    let s : State := match s.l1At a.l1p a.asid a.vf with
      | some l => if inv then s.surrender l a.mask else s
      | none => s
    let s : State := match s.l1At a.l1p a.asid a.vf with
      | some l => if inv then s.setL1 { l with valid := l.valid &&& ~~~a.mask } else s
      | none => s
    if !ids.isEmpty then s.modAcc a.id (fun a => { a with waits := some (a.waits.getD [] ++ ids) })
    else if rank a.sc < 2 then s.effect a.id 6
    else
      match s.l2At a.die a.asid a.vf with
      | none => s.effect a.id 6
      | some l =>
        if s.pendingWords a.die l.pf &&& a.mask != 0 then s
        else if inv then
          if 4 ≤ rank a.sc && s.wbufs.any (fun b => b.die == a.die && b.pf == l.pf) || !s.canDrop l then s
          else
            let s : State := s.dropWords l a.mask
            if 4 ≤ rank a.sc && s.wbufs.any (fun b => b.die == a.die && b.pf == l.pf) then s else s.effect a.id 6
        else if rank a.sc < 4 then (s.copyOwned l a.mask (fun p => p == a.l1p)).effect a.id 6
        else if s.reclassing l.pf then s
        else (s.cleanLine l a.mask).effect a.id 6

/-- SUBSCR, UPGR and UNSUB: the request goes to the directory (13 R294). -/
def State.goSub (s : State) (a : Acc) : State :=
  match s.look a (s.lineXl a a.mask) with
  | (none, s) => s
  | (some x, s) =>
    if s.sliceDown x.pf then s.bindVal a.id 0 false 6 false
    else match a.kind with
    | .subscr f m => s.ask a (.upg a.die x.pf a.mask f m a.id)
    | .upgr f => s.ask a (.upg a.die x.pf a.mask f false a.id)
    | _ => s.ask a (.uns a.die x.pf a.mask a.id)

/-! ### Attempting an access -/

/-- Attempts an access: nothing while program order or its release holds it back. -/
def State.tryAcc (s : State) (id : Nat) : State :=
  match s.acc? id with
  | none => s
  | some a =>
    if a.stage != .held || a.fault != 0 || s.heldBack a then s
    else
      match a.rel, a.waits with
      | some sc, none => s.beginRelease a sc
      | _, w =>
        let sc := a.rel.getD .cl
        if !s.waitOver (w.getD []) sc then s
        else
          match a.kind with
          | .load | .fetch | .pref => s.goLoad a
          | .store => s.goStore a
          | .through => s.throughGo a.id
          | .amo _ | .lock | .cond | .bar _ => s.goStep a
          | .invspan => s.goMaint a true
          | .wbspan => s.goMaint a false
          | .subscr .. | .upgr _ | .unsub => s.goSub a
          | .fence => (match a.acq with | some sc => s.acquireOf a sc | none => s).effect a.id 6
          | .spad => (s.modAcc a.id (fun a => { a with stage := .sent })).at_ s.now (.outstandingFeStep a.id)

/-- Attempts every access that is held, in order. -/
def State.retryAccs (s : State) : State :=
  (s.accs.filter (fun a => a.stage == .held && a.fault == 0)).foldl (fun s a => s.tryAcc a.id) s

/-- Adds the accesses of a word and attempts them, in order; a release begins at once. -/
def State.addAccs (s : State) (l : List Acc) : State :=
  let (ids, s) := s.addBatch l
  ids.foldl (fun s id => (s.tryAcc id).tryAcc id) s

/-! ### Issuing a word that makes accesses -/

/-- An STCK of a lane that was issued after its access `id` is still to be decided: a word that follows the STCK stands no longer between it
and its LDLK (13 R293). -/
def State.stckAfter (s : State) (k : UKey) (lane id : Nat) : Bool :=
  s.accs.any (fun c => c.kind == .cond && c.stage != .bound && c.unit == some k && c.lane == lane && decide (id < c.id))

/-- A word of kind M clears the reservations of its issuers, except where it is LDLK or STCK itself, or follows the STCK (13 R293). -/
def State.unlock (s : State) (u : HwUnit) (e : LaneSet) : HwUnit :=
  u.mapLanes e (fun n l => { l with resv := l.resv.filter (fun r => s.stckAfter u.id n r.id) })

/-- Reservations not yet made fall to the same rule. -/
def State.spoilLocks (s : State) (u : HwUnit) (e : LaneSet) : State :=
  { s with accs := s.accs.map (fun a => if a.kind == .lock && a.stage != .bound && a.unit == some u.id && e.getLsbD a.lane &&
      !s.stckAfter u.id a.lane a.id then { a with cmp := 1 } else a) }

/-- Issues a word that stays outstanding, and makes its accesses. -/
def State.issueOpen (s : State) (u u' : HwUnit) (i : Instr) (e : LaneSet) (o : OutWord → OutWord) (accs : Nat → List Acc) : State :=
  let s' := s.issueAs u u' i e
  let occ := if u.team then s.occupancy u (onceWord i) else 1
  let oid := s'.ids
  let out := { o (mkOut oid u i e) with born := s.now + occ - 1, srcs := (lanesOf e u.n).map (fun l => (l, u.srcs i l)) }
  let s' := { s' with ids := s'.ids + 1 }.addOut u.id out
  s'.addAccs (accs oid)

/-- Issues a word that completes when its accesses have done their part. -/
def State.issueAccs (s : State) (u u' : HwUnit) (i : Instr) (e : LaneSet) (o : OutWord → OutWord) (accs : Nat → List Acc) : State :=
  (s.issueOpen u u' i e o accs).outCheck (s.issueAs u u' i e).ids

/-- The word waits, blocked, until its release is performed; then it issues again with `released` set (14 R303). -/
def State.releaseFirst (s : State) (u : HwUnit) (e : LaneSet) (sc : Scope) : State :=
  let accs := (lanesOf e u.n).map (fun l => { u.access l .fence .si sc (.unit u.id) 0 4 0 with rel := some sc, need := 6 })
  (s.block u .release).addAccs accs

end Sys2Proof.Machine
end

