-- ==== Sys2Proof/Machine/Directory.lean ====
section
/-! DEFINITION. Directory.lean: the span directory, its messages and what the dies do at them (13 R275 to R286, R290; 21 R455,
R456; 14 R316). A request for a busy entry waits; an entry is busy until the last acknowledgement, or until its DAT arrives. -/

namespace Sys2Proof.Machine

/-! ### Entries -/

/-- Ages the entries of a set as one of them is used: 0 is the newest (13 Table 13-6). -/
def State.touchEntry (s : State) (pf : PAddr) : State :=
  match s.entry? pf with
  | none => s
  | some e =>
    { s with dir := s.dir.map (fun (x : DirEnt) =>
        if x.pf == pf then { x with lru := 0 }
        else if dirSliceOf x.pf == dirSliceOf pf &&
            Config.dirSet (frameCode x.pf) % 32768 == Config.dirSet (frameCode pf) % 32768 && x.lru < e.lru then
          { x with lru := min 15 (x.lru + 1) } else x) }

/-- The entry of highest age. -/
def eldest : List DirEnt → Option DirEnt
  | [] => none
  | e :: r => match eldest r with
    | none => some e
    | some f => if f.lru ≤ e.lru then some e else some f

def DirEnt.fresh (pf : PAddr) (home : Nat) : DirEnt :=
  let e : DirEnt := ⟨pf, home, .s, 0, 0, false, false, 15, Vector.replicate 6 Sharer.none⟩
  if home < 4 then e.setSharer home { Sharer.none with mask := 0xFFFFFFFF } else e

/-- Marks the entry busy or free. -/
def State.setBusy (s : State) (pf : PAddr) (b : Bool) : State :=
  match s.entry? pf with
  | some e => s.setEntry { e with busy := b }
  | none => s

/-- RCL to every sharer of a list of an entry; the transaction ends at the last acknowledgement. -/
def State.recall (s : State) (pf : PAddr) (xs : List (Nat × Mask)) (fin : TxnFin) : State :=
  let (_, s) := s.newTxn pf xs.length fin
  xs.foldl (fun s x => s.wire (toSharer x.1) (.rcl x.1 pf x.2)) (s.setBusy pf true)

/-- Sharers that hold something. -/
def DirEnt.holders (e : DirEnt) : List (Nat × Mask) :=
  ((List.range 6).map (fun x => (x, (e.sharer x).mask))).filter (fun x => x.2 != 0)

/-- How an allocation ends. -/
inductive DirAlloc where
  | got
  | full
  | waits (victim : PAddr)
deriving DecidableEq, Repr

/-- Dirty words that the slices of the home die hold of a frame go to its memory as it gets an entry: of an entry that it does not own none stays
dirty there (13 Table 13-3). (DEDUCED, log 16.) -/
def State.cleanHome (s : State) (pf : PAddr) : State :=
  (s.l2.filter (fun (l : L2Line) => l.pf == pf && l.die == s.home pf)).foldl (fun s l =>
    let ps := l.dirtyPuts 0xFFFFFFFF
    if ps.isEmpty then s else (s.memBack pf ps).setL2 (l.mark (putMask ps) (fun _ => .c))) s

/-- Allocates an entry (13 R279). A set that is full gives up a victim, for whose recall the request waits. -/
def State.dirAlloc (s : State) (pf : PAddr) : DirAlloc × State :=
  let set := s.dir.filter (fun x => dirSliceOf x.pf == dirSliceOf pf && Config.dirSet (frameCode x.pf) % 32768 == Config.dirSet (frameCode pf) % 32768)
  let new := fun (s : State) =>
    let s : State := s.cleanHome pf
    let s : State := { s with dir := s.dir ++ [DirEnt.fresh pf (s.home pf)], dirBits := s.dirBits.filter (· != pf) }
    s.touchEntry pf
  if set.length < 16 then (.got, new s)
  else
    match eldest (set.filter (fun x => !x.busy && !x.held)) with
    | none => (.full, s)
    | some v => if v.holders.isEmpty then (.got, new (s.dropEntry v.pf)) else (.waits v.pf, s.recall v.pf v.holders .victim)

/-- Frees an entry that only the home still shares (13 Table 13-8, UNS). -/
def State.tidy (s : State) (pf : PAddr) : State :=
  match s.entry? pf with
  | some e => if e.st == .s && !e.busy && e.holders.all (·.1 == e.home) then s.dropEntry pf else s
  | none => s

/-! ### Data to a die -/

/-- Words as a die of a record gets them (13 R284). -/
def Sharer.view (r : Sharer) (ws : Vector W32 32) : List W32 :=
  (List.range 32).map (fun i => let w := ws.toList.getD i 0; if r.mask.getLsbD i then heldAs r.fmt w else w)

/-- DAT from the home. -/
def State.sendDat (s : State) (die : Nat) (pf : PAddr) (m : Mask) (acc : Nat) : State :=
  let (ws, bad, s) := s.homeWords pf m
  let r := match s.entry? pf with | some e => e.sharer die | none => Sharer.none
  s.wire (toSharer die) (.dat die pf m (r.view ws) bad acc)

/-- Words for an access that acts as .uc: as they stand at the home. -/
def State.sendRaw (s : State) (die : Nat) (pf : PAddr) (m : Mask) (acc : Nat) : State :=
  let (ws, bad, s) := s.homeWords pf m
  s.wire (toSharer die) (.dat die pf m ws.toList bad acc)

/-- The words of a mask that a die's record covers grow by m; a record that is not EXACT stays as it is (13 R284). -/
def DirEnt.addShare (e : DirEnt) (die : Nat) (m : Mask) : DirEnt :=
  let r := e.sharer die
  if r.fmt == .exact then e.setSharer die { r with mask := r.mask ||| m } else e

/-! ### Far steps (13 R290) -/

/-- A read and CAS AtomicOps at the host until one succeeds, at most 64. -/
def State.hostCas (s : State) (a : Acc) (pf : PAddr) : Nat → Option Nat × State
  | 0 => (none, s)
  | n + 1 =>
    let (ws, _, s) := s.memWords pf a.dm
    let old := datumOf ws a.off a.n
    let d := s.fresh
    let s : State := { s with fresh := s.fresh + 1 }
    if !Config.hostAtomicOk d then (none, s)
    else if Config.hostCasHits d then
      (some old, match (a.step old).new with | some v => s.homePuts pf (stepPuts a v false) | none => s)
    else State.hostCas s a pf n

/-- AtomicOps that the hub performs as one (13 R290). -/
def AccKind.native : AccKind → Bool
  | .amo .add | .amo .swap | .amo .cas => true
  | _ => false

/-- The reservation under which a locked store may be made. -/
def State.within (s : State) (a : Acc) (pf : PAddr) : Bool :=
  match s.resvOf a with | some r => r.pf == pf && a.dm &&& ~~~r.mask == 0 | none => false

/-- The step of an access at its home: what it found there, whether that was poisoned, and the messages that its store owes.
None: it ends with cause 0x52. -/
def State.farStep (s : State) (a : Acc) (x : Xl) (fin : TxnFin) : Option (Nat × Vector W32 32 × Mask) × State :=
  let pf := x.pf
  if a.kind == .cond && !s.within a pf then
    (some (0, zeroWords, 0), (s.setResv a none).modAcc a.id (fun a => { a with cmp := 1 }))
  else
    let (ws, bad, s) := s.homeWords pf a.dm
    if pf.space == .host && a.kind != .lock then
      match (if a.kind.native then
               let d := s.fresh
               let s : State := { s with fresh := s.fresh + 1 }
               if Config.hostAtomicOk d then
                 (some (datumOf ws a.off a.n), match (a.step (datumOf ws a.off a.n)).new with
                   | some v => s.homePuts pf (stepPuts a v false)
                   | none => s)
               else (none, s)
             else s.hostCas a pf 64) with
      | (none, s) => (none, s)
      | (some old, s) =>
        let was := applyPuts ws (putsOf a.off a.n old)
        let now := match (a.step old).new with | some v => applyPuts was (stepPuts a v false) | none => was
        let (n, s) := s.notifyStore pf none was now 0 a.dm fin
        (some (n, was, 0), s.stepMade a pf (a.step old))
    else
      let poisoned := bad &&& a.dm != 0
      if poisoned && a.kclass == 0 && a.kind != .cond then (some (0, ws, bad), s)
      else
        let s : State := if a.kind == .lock then s.reserve a pf (homePlace pf) else if a.kind == .cond then s.setResv a none else s
        let r := a.step (datumOf ws a.off a.n)
        match r.new with
        | none => (some (0, ws, bad), s.stepMade a pf r)
        | some v =>
          if r.fault != 0 then (some (0, ws, bad), s)
          else
            let ps := stepPuts a v poisoned
            let s : State := s.homePuts pf ps
            let (n, s) := s.notifyStore pf none ws (applyPuts ws ps) (bad &&& a.dm) a.dm fin
            (some (n, ws, bad), s.stepMade a pf r)

/-! ### Requests at the directory -/

/-- The frame of a request. -/
def reqFrame : Ev → Option PAddr
  | .rds _ pf _ _ | .rdo _ pf _ _ | .stw _ pf _ _ _ | .upg _ pf _ _ _ _ | .uns _ pf _ _ | .evc _ pf _ | .wbk _ pf _ _ => some pf
  | .inboundFrame .. => none
  | _ => none

/-- Ownership of the entry ends. What the owner held it keeps as a sharer. -/
def DirEnt.disown (e : DirEnt) : DirEnt := { e with st := .s, own := 0 }

/-- The words of a mask that the owner holds are recalled, and the request is served anew when they have come (13 Table 13-8). Of a sharer that is no
die, the words that it owned come back with the recall. (DEDUCED, log 16.) -/
def State.recallOwner (s : State) (e : DirEnt) (m : Mask) (req : Ev) : State :=
  let y := e.sharer e.owner
  let e' := (e.setSharer e.owner (if y.mask &&& ~~~m = 0 then Sharer.none else { y with mask := y.mask &&& ~~~m })).disown
  (s.setEntry { e' with own := if 4 ≤ e.owner then e.own &&& m else 0 }).recall e.pf [(e.owner, y.mask &&& m)] (.again req)

def DirEnt.owned (e : DirEnt) : Bool := e.st != .s

/-- The access behind a die's request acts as .uc. -/
def State.ucReq (s : State) (die acc : Nat) : Bool :=
  match (if die < 4 then s.acc? acc else none) with
  | some a => (match a.xl with | some x => s.actsUc a x | none => false)
  | none => false

def State.park (s : State) (pf : PAddr) (e : Ev) : State := { s with dirWait := s.dirWait ++ [(pf, e)] }

/-- Allocates for a request, and goes on. -/
def State.withEntry (s : State) (pf : PAddr) (req : Ev) (go : State → DirEnt → State) : State :=
  match s.entry? pf with
  | some e => go (s.touchEntry pf) ((s.touchEntry pf).entry? pf |>.getD e)
  | none =>
    match s.dirAlloc pf with
    | (.full, s) => s.nak req
    | (.waits v, s) => s.park v req
    | (.got, s) => match s.entry? pf with | some e => go s e | none => s

/-- A home-die miss that finds the directory bit set and no entry: ACK without allocation, and the home slice fills from memory (13 R282). -/
def State.staleBit (s : State) (req : Ev) (pf : PAddr) (acc : Nat) : State :=
  ((({ s with dirBits := s.dirBits.filter (· != pf) } : State).nakDone req).modAcc acc (fun a => { a with stage := .held })).tryAcc acc

/-- RDS (13 Table 13-8). -/
def State.serveRds (s : State) (die : Nat) (pf : PAddr) (m : Mask) (acc : Nat) : State :=
  let req : Ev := .rds die pf m acc
  if s.ucReq die acc then (s.nakDone req).sendRaw die pf m acc
  else if (s.entry? pf).isNone && s.home pf == die then s.staleBit req pf acc
  else
    s.withEntry pf req (fun s e =>
      let s : State := s.nakDone req
      let y := e.sharer e.owner
      if !e.owned || e.owner == die || m &&& y.mask == 0 then ((s.setEntry { e.addShare die m with busy := true })).sendDat die pf m acc
      else
        let e := if e.st == .e then e.disown else { e with st := .o }
        (s.setEntry { e.addShare die m with busy := true }).wire (toSharer e.owner) (.fwd e.owner pf m die acc))

/-- RDO (13 Table 13-8): once every other record of the words has gone, the requester owns them. -/
def State.serveRdo (s : State) (die : Nat) (pf : PAddr) (m : Mask) (acc : Nat) : State :=
  let req : Ev := .rdo die pf m acc
  if (s.entry? pf).isNone && s.home pf == die then s.staleBit req pf acc
  else s.withEntry pf req (fun s e =>
    let s : State := s.nakDone req
    let y := (e.sharer e.owner).mask
    if e.st == .o && y != 0 then s.recallOwner e y req
    else if e.owned && e.owner != die && m &&& y != 0 then s.recallOwner e m req
    else
      let e := if e.owned && e.owner != die || e.st == .o then e.disown else e
      let subs := e.holders.filter (fun x => (e.sharer x.1).fmt != .exact)
      let invs := (e.holders.filter (fun x => (e.sharer x.1).fmt == .exact && x.1 != die && x.2 &&& m != 0)).map
        (fun x => (x.1, x.2 &&& m))
      let e' := subs.foldl (fun e x => e.setSharer x.1 Sharer.none) e
      let e' := invs.foldl (fun e x =>
        let r := e.sharer x.1
        if r.sub then e else e.setSharer x.1 { r with mask := r.mask &&& ~~~x.2 }) e'
      let r := e'.sharer die
      let e' := { (e'.setSharer die { r with mask := r.mask ||| m, fmt := .exact, mode := false }) with
        st := if e.st == .m then .m else .e, owner := die, own := e.own ||| m, busy := true }
      let s : State := s.setEntry e'
      if subs.isEmpty && invs.isEmpty then s.sendDat die pf m acc
      else
        let (t, s) := s.newTxn pf (subs.length + invs.length) (.grant req)
        let s : State := subs.foldl (fun s x => s.wire (toSharer x.1) (.rcl x.1 pf x.2)) s
        invs.foldl (fun s x => s.wire (toSharer x.1) (.inv x.1 pf x.2 t)) s)

/-- A store is serialised at the home slice (13 R283), or a far step is made there; one into a hole is refused, and what a cache writes through
there is discarded (15 R322). -/
def State.serialise (s : State) (die : Nat) (pf : PAddr) (a : Acc) (x : Xl) : State :=
  if s.inHole pf && a.kind != .through then s.accFault a.id 0x66
  else if a.kind.atomic then
    match s.farStep a x (.perform a.id) with
    | (none, s) => s.accFault a.id 0x52
    | (some (n, ws, bad), s) =>
      let s : State := if n = 0 then s else s.setBusy pf true
      let s : State := s.modAcc a.id (fun a => { a with got := if n = 0 then none else some ([], 0) })
      s.wire (toSharer die) (.dat die pf 0 ws.toList bad a.id)
  else
    let m := putMask a.puts
    let (old, _, s) := s.homeWords pf m
    let s : State := (if s.inHole pf then s.memBack pf a.puts else s.homePuts pf a.puts).storeClears pf m a.unit a.lane
    let bad := maskWhere (fun i => a.puts.any (fun p => p.w == i && p.bad))
    let (n, s) := s.notifyStore pf (some die) old (applyPuts old a.puts) bad m (.perform a.id)
    let s : State := if n = 0 then s else s.setBusy pf true
    let (t, s) := s.newTxn pf 1 (.serial a.id (n == 0))
    s.wire (toSharer die) (.ack t)

/-- A message to another device of a frame in common. -/
def State.tellFar (s : State) (dst frame : Nat) (payload : List Word) : State := s.soon (.linkMessage s.devnum dst frame payload 0)

/-- A store of the host or of a linked package that caches lines is serialised like that of a die; its completion follows the last acknowledgement
(14 R314, 19 R429, R430). -/
def State.serialiseOuter (s : State) (die : Nat) (pf : PAddr) (m : Mask) (data : List W32) (tag : Nat) : State :=
  let ps := (wordsOfMask m).map (fun i => (⟨i, data.getD i 0, 15, false⟩ : Put))
  if s.inHole pf then
    -- what is written back is discarded; a store is refused (15 R322)
    if tag = 0 then s.hubEvent (s.mcSource (pf.addr * 128)) 0x67 (BitVec.ofNat 64 (pf.addr * 128)) 0
    else if die = 4 then { s with replies := s.replies ++ [(tag, .unsupported)] }
    else s.tellFar (tag % 2 ^ 18) pf.addr [7, BitVec.ofNat 64 (tag / 2 ^ 18), 0x66]
  else
    let (old, _, s) := s.homeWords pf m
    let s : State := (s.homePuts pf ps).storeClears pf m none 0
    let done := [21, BitVec.ofNat 64 (tag / 2 ^ 18)]
    let (n, s) := s.notifyStore pf (some die) old (applyPuts old ps) 0 m (if die = 4 then .written tag else .far (tag % 2 ^ 18) pf.addr done)
    if n != 0 || tag = 0 then s
    else if die = 4 then { s with replies := s.replies ++ [(tag, .written)] } else s.tellFar (tag % 2 ^ 18) pf.addr done

/-- STW (13 Table 13-8). -/
def State.serveStw (s : State) (die : Nat) (pf : PAddr) (m : Mask) (data : List W32) (acc : Nat) : State :=
  let go := fun (s : State) =>
    if die < 4 then
      match s.acc? acc with
      | none => s
      | some a => match a.xl with | some x => s.serialise die pf a x | none => s
    else s.serialiseOuter die pf m data acc
  match s.entry? pf with
  | none => go s
  | some e =>
    if e.owned && m &&& (e.sharer e.owner).mask != 0 then s.recallOwner e m (.stw die pf m data acc)
    else go ((s.setEntry e.disown).touchEntry pf)

/-- Frames that a home slice holds by subscription (13 R286). -/
def State.heldIn (s : State) (pf : PAddr) : Nat :=
  (s.dir.filter (fun e => e.held && e.home == s.home pf && Config.homeSlice (frameCode e.pf) % 80 == Config.homeSlice (frameCode pf) % 80)).length

/-- The home slice already holds 1/8 of its 4.8 MiB by subscription (13 R286). -/
def State.heldFull (s : State) (pf : PAddr) : Bool := decide (48 * 2 ^ 20 ≤ s.heldIn pf * 128 * 8 * 10)

/-- SUBSCR and UPGR at the directory (13 R285, R286; 26 R455). The result is kept for the issuer in the access. -/
def State.serveUpg (s : State) (die : Nat) (pf : PAddr) (m : Mask) (fmt : AssayFmt) (mode : Bool) (acc : Nat) : State :=
  let req : Ev := .upg die pf m fmt mode acc
  let upgr := match (if die < 4 then s.acc? acc else none) with | some a => (match a.kind with | .upgr _ => true | _ => false) | none => false
  let covered := match s.entry? pf with
    | some e => (e.sharer die).sub && m &&& ~~~(e.sharer die).mask == 0
    | none => false
  if upgr && !covered then
    (s.modAcc acc (fun a => { a with cmp := 0 })).wire (toSharer die) (.dat die pf 0 [] 0 acc)
  else
    s.withEntry pf req (fun s e =>
      let s : State := s.nakDone req
      let y := (e.sharer e.owner).mask
      if e.owned && y != 0 then s.recallOwner e y req
      else
        let e := e.disown
        let r := e.sharer die
        let mode := if upgr then r.mode else mode
        let forced := 4 ≤ e.home || e.home == die || s.heldFull pf
        let g : AssayFmt := if forced then .exact else fmt
        let md := if forced then false else mode
        let fetch := if r.mask != 0 && silentChange r.fmt g then m &&& ~~~r.mask else m ||| r.mask
        let e' := e.setSharer die { mask := r.mask ||| m, fmt := g, mode := md, sub := true }
        -- 2: the entry is busy until the data arrive
        let v := 2 + (if g == fmt && md == mode then 1 else 0)
        let s : State := s.setEntry { e' with busy := true }
        (if die < 4 then s.modAcc acc (fun a => { a with cmp := v }) else s).sendDat die pf fetch acc)

/-- UNSUB at the directory (13 R285, R294). -/
def State.serveUns (s : State) (die : Nat) (pf : PAddr) (m : Mask) (acc : Nat) : State :=
  let s : State := s.nakDone (.uns die pf m acc)
  match s.entry? pf with
  | some e =>
    if e.owned then s.wire (toSharer die) (.dat die pf 0 [] 0 acc)
    else
      let r := e.sharer die
      let k := r.mask &&& ~~~m
      let e' := e.setSharer die (if k = 0 then Sharer.none else { r with mask := k })
      ((s.setEntry e').tidy pf).wire (toSharer die) (.dat die pf m [] 0 acc)
  | none => s.wire (toSharer die) (.dat die pf 0 [] 0 acc)

/-- A die holds dirty words of a frame: in its slices, its L1s or its write-back buffers. -/
def State.dirtyAt (s : State) (die : Nat) (pf : PAddr) : Bool :=
  s.l2.any (fun (l : L2Line) => l.die == die && l.pf == pf && s.dirtyLine l) ||
  s.wbufs.any (fun (b : WbEnt) => b.die == die && b.pf == pf && b.m != 0)

/-- Words leave a sharer's record. -/
def DirEnt.unshare (e : DirEnt) (die : Nat) (m : Mask) : DirEnt :=
  let r := e.sharer die
  e.setSharer die (if r.mask &&& ~~~m = 0 && !r.sub then Sharer.none else { r with mask := r.mask &&& ~~~m })

/-- EVC (13 Table 13-8): the owner that is clean is owner no longer. -/
def State.serveEvc (s : State) (die : Nat) (pf : PAddr) (m : Mask) : State :=
  match s.entry? pf with
  | none => s
  | some e =>
    if (e.sharer die).sub then s
    else if e.owned && e.owner == die then
      if e.st == .o then s
      else if s.dirtyAt die pf then s.setEntry { e.unshare die m with own := e.own &&& ~~~m }
      else (s.setEntry (e.unshare die m).disown).tidy pf
    else (s.setEntry (e.unshare die m)).tidy pf

/-- WBK (13 Table 13-8, R280): the home applies the words that no recall served from the buffer has brought it; the rest it discards. -/
def State.serveWbk (s : State) (die : Nat) (pf : PAddr) (m : Mask) (data : List W32) : State :=
  let s : State := s.nakDone (.wbk die pf m data)
  if 4 ≤ die then
    let s : State := match s.entry? pf with
      | some e => if e.owned && e.owner == die then (s.setEntry (e.unshare die m).disown).serialiseOuter die pf (m &&& e.own) data 0 else s
      | none => s
    s.tidy pf
  else
    let s : State := match s.wbufs.find? (fun (b : WbEnt) => b.die == die && b.pf == pf && b.m != 0) with
      | some b =>
        let ps := b.puts 0xFFFFFFFF
        let (old, _, s) := s.memWords pf b.m
        let s : State := s.memBack pf ps
        let s : State := { s with wbufs := s.wbufs.map (fun (x : WbEnt) => if x == b then { x with m := 0 } else x) }
        (s.notifyStore pf (some die) old (applyPuts old ps) b.poison b.m .nothing).2
      | none => s
    let s : State := match s.entry? pf with
      | some e => if e.owned && e.owner == die then (s.setEntry (e.unshare die m).disown).tidy pf else s
      | none => s
    let (t, s) := s.newTxn pf 1 (.freed die)
    s.wire (toSharer die) (.ack t)

/-- Whether a failed slice, or a granule in re-classing, refuses a request (13 R282, 15 R334): an EVC asks nothing of the memory. -/
def State.refuses (s : State) (req : Ev) (pf : PAddr) : Bool :=
  match req with
  | .rds d _ _ acc | .stw d _ _ _ acc => s.reclassing pf || (s.sliceDown pf && !s.ucReq d acc)
  | .rdo .. | .upg .. | .uns .. => s.reclassing pf || s.sliceDown pf
  | .wbk .. => s.reclassing pf
  | _ => false

/-- The access behind a request, if it is one of this device. -/
def reqAcc : Ev → Option Nat
  | .rds d _ _ a | .rdo d _ _ a | .stw d _ _ _ a | .upg d _ _ _ _ a | .uns d _ _ a => if d < 4 then some a else none
  | _ => none

/-- A request for words that its memory controller is to supply, at a hole (15 R322). -/
def State.holeReq (s : State) (req : Ev) (pf : PAddr) : Bool :=
  s.inHole pf && (match req with
    | .rds _ _ m _ | .rdo _ _ m _ => (match s.entry? pf with | some e => !(e.owned && m &&& (e.sharer e.owner).mask != 0) | none => true)
    | .upg .. => true
    | _ => false)

/-- It is refused. -/
def State.refuseHole (s : State) (req : Ev) (pf : PAddr) : State :=
  let s : State := s.nakDone req
  match (reqAcc req).bind s.acc?, req with
  | some a, _ => s.holeFault a
  | none, .rds d _ m a | none, .rdo d _ m a | none, .upg d _ m _ _ a => s.wire (toSharer d) (.dat d pf m [] m a)
  | _, _ => s

/-- Serves a request; one for a busy entry waits (13 R278). -/
def State.dirServe (s : State) (req : Ev) : State :=
  match reqFrame req with
  | none => s
  | some pf =>
    if s.refuses req pf then s.nak req
    else if s.holeReq req pf then s.refuseHole req pf
    else if (match s.entry? pf with | some e => e.busy | none => false) then s.park pf req
    else
      match req with
      | .rds d pf m a => s.serveRds d pf m a
      | .rdo d pf m a => s.serveRdo d pf m a
      | .stw d pf m w a => (s.nakDone req).serveStw d pf m w a
      | .upg d pf m f md a => s.serveUpg d pf m f md a
      | .uns d pf m a => s.serveUns d pf m a
      | .evc d pf m => s.serveEvc d pf m
      | .wbk d pf m w => s.serveWbk d pf m w
      | _ => s

/-- Serves the requests that wait for an entry, in order, while it is not busy. -/
def State.dirRun (s : State) (pf : PAddr) : Nat → State
  | 0 => s
  | n + 1 =>
    if (match s.entry? pf with | some e => e.busy | none => false) then s
    else
      match s.dirWait.find? (fun w => w.1 == pf) with
      | none => s
      | some w => State.dirRun (({ s with dirWait := s.dirWait.erase w } : State).dirServe w.2) pf n

def State.dirWake (s : State) (pf : PAddr) : State := s.dirRun pf s.dirWait.length

/-- A request arrives at the directory. -/
def State.dirArrive (s : State) (req : Ev) : State :=
  match reqFrame req with
  | none => s
  | some pf => if s.dirWait.any (fun w => w.1 == pf) then s.park pf req else (s.dirServe req).dirWake pf

/-! ### Messages at a die -/

/-- The lines of a die that hold a frame, one after the other. -/
def State.dieLines (s : State) (die : Nat) (pf : PAddr) (f : State → L2Line → State) : State :=
  (s.l2.filter (fun (l : L2Line) => l.die == die && l.pf == pf)).foldl (fun s l =>
    match s.l2.find? (fun x => x.same l) with
    | some l => f s l
    | none => s) s

/-- An acknowledgement goes to the hub. -/
def State.ackHub (s : State) (die t : Nat) : State := s.wire (toHub die) (.ack t)

/-- The words of a mask leave the slices of a die; dirty ones are applied at the home, from the write-back buffer too
(13 R280, Table 13-3). -/
def State.giveUp (s : State) (die : Nat) (pf : PAddr) (m : Mask) : State :=
  let s : State := s.drainWb pf m (· == die)
  let s : State := s.dieLines die pf (fun s l =>
    let s : State := s.recallLine l m none
    match s.l2.find? (fun x => x.same l) with
    | some l => (s.memBack pf (l.dirtyPuts m)).setL2 (l.mark m (fun _ => .i))
    | none => s)
  s.clearResv pf m (fun _ _ p => p == .l2 die)

/-- What the host, or a linked package, has stored to words of device memory that it owned: open (log 14). (DESIGN CHOICE, log 14.) -/
def State.outerWrote (s : State) (pf : PAddr) (m : Mask) : State :=
  if pf.space != .dev || m = 0 then s
  else
    let new := (wordsOfMask m).map (fun i => (i, refreshed s.fresh s.mem (pf.addr * 128 + 4 * i) 4))
    let ps := new.map (fun q => (⟨q.1, BitVec.ofNat 32 (memRead q.2 (pf.addr * 128 + 4 * q.1) 4), 15, false⟩ : Put))
    ({ s with fresh := s.fresh + 1 } : State).memBack pf ps

/-- The devices beyond the links that share a frame (19 R429, R430). -/
def State.outerOf (s : State) (pf : PAddr) : List Nat := (s.hub.outer.filter (fun q => q.1 == pf)).map (·.2)

/-- A message of the directory to the Bormuesk sharer goes to every device behind it, and its transaction awaits their answers. -/
def State.snoop (s : State) (pf : PAddr) (t : Nat) (payload : List Word) : State :=
  let devs := s.outerOf pf
  if devs.isEmpty then s.ackHub 5 t
  else
    let s : State := { s with hub := { s.hub with snoops := s.hub.snoops ++ devs.map (fun d => (t, pf, d)) } }
    devs.foldl (fun s d => s.tellFar d pf.addr payload) s

/-- INV at a sharer; the host answers as a sharer that holds nothing dirty (13 R277). -/
def State.takeInv (s : State) (die : Nat) (pf : PAddr) (m : Mask) (t : Nat) : State :=
  if die = 5 then s.snoop pf t [19, BitVec.ofNat 64 t, m.setWidth 64]
  else
    let s : State := if die < 4 then s.giveUp die pf m else s
    (if s.home pf == die then s.clearResv pf m (fun _ _ p => p == .home) else s).ackHub die t

/-- UPD at a sharer: a clean word takes the new pattern, with its poison (15 R324); for a word no longer subscribed it is only acknowledged (13 R285). -/
def State.takeUpd (s : State) (die : Nat) (pf : PAddr) (word : Nat) (v : W32) (bad : Bool) (t : Nat) : State :=
  if die = 5 then s.snoop pf t [20, BitVec.ofNat 64 t, BitVec.ofNat 64 word, v.setWidth 64, if bad then 1 else 0]
  else
  let on := match s.entry? pf with | some e => (e.sharer die).mask.getLsbD word | none => false
  let m : Mask := BitVec.ofNat 32 (2 ^ word)
  let s : State := if die < 4 && on then
    s.dieLines die pf (fun s l => if l.stAt word == .c then
      s.setL2 { l with words := l.words.setIfInBounds word v, poison := (l.poison &&& ~~~m) ||| (if bad then m else 0) } else s)
    else s
  (s.clearResv pf m (fun _ _ p => p == .l2 die)).ackHub die t

/-- RCL at a sharer or owner: the words are given up. Its transaction is the one in progress on the frame. -/
def State.takeRcl (s : State) (die : Nat) (pf : PAddr) (m : Mask) : State :=
  let t := (s.txns.find? (fun (t : Txn) => t.pf == pf && (match t.fin with | .freed _ | .serial .. => false | _ => true))).map (·.id)
  let s : State := if s.home pf == die then s.clearResv pf m (fun _ _ p => p == .home) else s
  if die = 5 && !(s.outerOf pf).isEmpty then s.snoop pf (t.getD 0) [18, BitVec.ofNat 64 (t.getD 0), m.setWidth 64]
  else
    let s : State := if die < 4 then s.giveUp die pf m else
      match s.entry? pf with
      | some e => (s.outerWrote pf (e.own &&& m)).setEntry { e with own := if e.st == .s then 0 else e.own }
      | none => s
    match t with
    | some t => s.ackHub die t
    | none => s

/-- FWD at the owner: it serves the named words, its dirty ones staying dirty; words that it does not hold come from the home. -/
def State.takeFwd (s : State) (owner : Nat) (pf : PAddr) (m : Mask) (die acc : Nat) : State :=
  if owner = 5 && !(s.outerOf pf).isEmpty then
    s.tellFar ((s.outerOf pf).headD 0) pf.addr [23, BitVec.ofNat 64 (8 * acc + die), m.setWidth 64]
  else
  let s : State := match s.entry? pf with | some e => if 4 ≤ owner then s.outerWrote pf (e.own &&& m) else s | none => s
  let s : State := s.pullBut pf m (some owner)
  let (ws, bad, s) := s.memWords pf m
  let (ws, bad) := (s.wbufs.filter (fun (b : WbEnt) => b.die == owner && b.pf == pf)).foldl
    (fun (r : Vector W32 32 × Mask) b => (pickWords (b.m &&& m) b.words r.1, (r.2 &&& ~~~(b.m &&& m)) ||| (b.poison &&& b.m &&& m))) (ws, bad)
  let s : State := s.dieLines owner pf (fun s l => s.recallLine l m none)
  let (ws, bad) := (s.l2.filter (fun (l : L2Line) => l.die == owner && l.pf == pf)).foldl (fun (r : Vector W32 32 × Mask) l =>
    let k := m &&& l.where_ (· == .d)
    (pickWords k l.words r.1, (r.2 &&& ~~~k) ||| (l.poison &&& k))) (ws, bad)
  let s : State := s.clearResv pf m (fun _ _ p => p == .l2 owner)
  let r := match s.entry? pf with | some e => e.sharer die | none => Sharer.none
  s.wire (toSharer die) (.dat die pf m (r.view ws) bad acc)

/-- The whole image that an uncached load sees: the words that came, and those that the die holds. -/
def State.image (s : State) (a : Acc) (x : Xl) (m : Mask) (ws : Vector W32 32) (bad : Mask) : List W32 × Mask :=
  match s.lineOf a.die (a.tag x) a.vf x.pf with
  | some l =>
    let here := l.where_ WordState.valid &&& ~~~m
    ((pickWords here l.words ws).toList, (bad &&& ~~~here) ||| (l.poison &&& here))
  | none => (ws.toList, bad)

/-- Clean words that a subscription fetches replace what the die holds. -/
def L2Line.refill (l : L2Line) (m : Mask) (ws : Vector W32 32) (bad : Mask) : L2Line :=
  { l.mark m (fun _ => .c) with words := pickWords m ws l.words, poison := (l.poison &&& ~~~m) ||| (bad &&& m) }

/-- The L1s of a die drop their clean copies of words of a frame. -/
def State.dropClean (s : State) (die : Nat) (pf : PAddr) (m : Mask) : State :=
  { s with l1 := s.l1.map (fun (l : L1Line) =>
      if l.p / 32 / Config.clustersPerDie == die && l.pf == pf then
        let k := m &&& ~~~l.dirty &&& ~~~l.owned
        { l with valid := l.valid &&& ~~~k, poison := l.poison &&& ~~~k }
      else l) }

/-- The result of a far step reaches its issuer. -/
def State.farResult (s : State) (a : Acc) (ws : Vector W32 32) (bad : Mask) : State :=
  let waits := a.got.isSome
  let perf := if waits then 4 else 6
  let old := datumOf ws a.off a.n
  if a.kind == .cond then s.bindVal a.id (1 - a.cmp) false perf false
  else
    match s.stepBad a (bad &&& a.dm != 0) with
    | some s => s
    | none => s.stepDone a (a.step old) (bad &&& a.dm != 0) perf

/-- DAT at a sharer that is no die: the host's cache takes the words, or the package beyond the link is sent them; the entry is free again
(13 R275, R277; 14 R314; 19 R430). The number with which a package asked holds its devnum in the low 18 bits. -/
def State.outerDat (s : State) (die : Nat) (pf : PAddr) (m : Mask) (data : List W32) (bad : Mask) (tag : Nat) : State :=
  let bytes := (wordsOfMask m).flatMap (fun i => toBytes 4 (data.getD i 0).toNat)
  let s : State :=
    if die == 4 then { s with replies := s.replies ++ [(tag, if bad &&& m != 0 then .poisoned else .data bytes)] }
    else s.tellFar (tag % 2 ^ 18) pf.addr
      ([14, BitVec.ofNat 64 (tag / 2 ^ 18), m.setWidth 64, bad.setWidth 64] ++ data.map (·.setWidth 64))
  (s.setBusy pf false).dirWake pf

/-- DAT at the requesting die: its words fill the line, and the access goes on. -/
def State.takeDat (s : State) (die : Nat) (pf : PAddr) (m : Mask) (data : List W32) (bad : Mask) (acc : Nat) : State :=
  let ws : Vector W32 32 := Vector.ofFn (fun i => data.getD i.val 0)
  if 4 ≤ die then s.outerDat die pf m data bad acc
  else
  match (s.acc? acc).bind (fun a => a.xl.map (fun x => (a, x))) with
  | none => if (s.entry? pf).isSome && m != 0 && acc != 0 then (s.setBusy pf false).dirWake pf else s
  | some (a, x) =>
      match a.kind with
      | .subscr .. | .upgr _ =>
        -- a subscription whose translation has been shot down ends again, and is made anew (16 R354)
        if a.shot then
          let s : State := if 2 ≤ a.cmp then (s.setBusy pf false).wire (toHub die) (.uns die pf a.mask 0) else s
          ((s.modAcc acc (fun a => { a with stage := .held, got := none, xl := none, shot := false })).tryAcc acc).dirWake pf
        else
        let s : State := if m = 0 then s else
          let s : State := s.l2Alloc die (a.tag x) a.vf pf x.perm x.cls
          match s.lineOf die (a.tag x) a.vf pf with
          | some l => (s.setL2 (l.refill m ws bad)).dropClean die pf m   -- the die's L1s then read the words fetched
          | none => s.dropClean die pf m
        let s : State := s.bindVal acc (a.cmp % 2) false 6 false
        if 2 ≤ a.cmp then (s.setBusy pf false).dirWake pf else s
      | .unsub =>
        let s : State := s.dieLines die pf (fun s l => s.setL2 (l.mark (m &&& l.where_ (· == .c)) (fun _ => .i)))
        let s : State := s.dropClean die pf m
        s.effect acc 6
      | .amo _ | .lock | .cond | .bar _ =>
        if m = 0 then s.farResult a ws bad else go s a x ws
      | _ => go s a x ws
where
  go (s : State) (a : Acc) (x : Xl) (ws : Vector W32 32) : State :=
    let e := s.entry? pf
    let r := match e with | some e => e.sharer die | none => Sharer.none
    let uc := s.actsUc a x || (e.isNone && s.home pf != die) || a.shot
    let cached := if r.fmt == .exact then m else m &&& r.mask
    -- without room for a line the words are bound uncached (13 R280)
    let s : State := if uc then s else s.l2Alloc die (a.tag x) a.vf pf x.perm x.cls
    let line := s.lineOf die (a.tag x) a.vf pf
    let s : State := match line with
      | some l => if uc then s else s.setL2 { l.fill cached ws bad with perm := x.perm, cls := x.cls }
      | none => s
    -- an access whose translation has been shot down is translated afresh
    let s : State := if a.shot then s.modAcc acc (fun a => { a with stage := .held, got := none, xl := none, shot := false })
      else s.modAcc acc (fun a => { a with
        stage := .held,
        got := if uc || cached != m || line.isNone then some (s.image a x m ws bad) else none })
    let s : State := s.tryAcc acc
    if s.actsUc a x then s else (s.setBusy pf false).dirWake pf

/-- The line of the storing die at the acknowledgement of its store (13 R270). -/
def State.storeAcked (s : State) (a : Acc) (x : Xl) : State :=
  match s.entry? x.pf with
  | none => s
  | some e =>
    let r := e.sharer a.die
    s.dieLines a.die x.pf (fun s l =>
      let in_ := a.puts.filter (fun p => r.mask.getLsbD p.w && (p.full || l.stAt p.w == .c))
      if r.fmt == .exact then
        s.setL2 (l.refill (putMask in_) (applyPuts l.words in_) (maskWhere (fun i => in_.any (fun p => p.w == i && p.bad))))
      else s.setL2 (l.mark (putMask a.puts &&& l.where_ (· == .c)) (fun _ => .i)))

/-- What follows the last acknowledgement of a transaction. -/
def State.finish (s : State) (t : Txn) : State :=
  match t.fin with
  | .again req => ((s.setBusy t.pf false).dirServe req).dirWake t.pf
  | .perform acc => (((s.modAcc acc (fun a => { a with perf := 6 })).settle acc).setBusy t.pf false).dirWake t.pf
  | .grant req =>
    match req with
    | .rdo d pf m acc => s.sendDat d pf m acc
    | _ => s
  | .victim => (s.dropEntry t.pf).dirWake t.pf
  | .frame port route n => s.soon (.frameAck port route n)
  | .far dst frame payload => s.tellFar dst frame payload
  | .written tag => if s.txns.any (fun (x : Txn) => x.fin == .written tag) then s else { s with replies := s.replies ++ [(tag, .written)] }
  | .serial acc all =>
    match s.acc? acc with
    | none => s
    | some a =>
      let s : State := match a.xl with | some x => s.storeAcked a x | none => s
      s.effect acc (if all then 6 else 4)
  | .freed die =>
    match s.wbufs.find? (fun (b : WbEnt) => b.die == die && b.pf == t.pf && b.m == 0) with
    | some b => { s with wbufs := s.wbufs.erase b }
    | none => s
  | .nothing => s

/-- An acknowledgement of a transaction. -/
def State.takeAck (s : State) (t : Nat) : State :=
  match s.txns.find? (fun (x : Txn) => x.id == t) with
  | none => s
  | some x =>
    if x.need ≤ 1 then ({ s with txns := s.txns.filter (fun (y : Txn) => y.id != t) } : State).finish x
    else { s with txns := s.txns.map (fun (y : Txn) => if y.id == t then { y with need := y.need - 1 } else y) }

/-- A device beyond a link has answered a message of a transaction, with the dirty words that it gives up (19 R430). -/
def State.snooped (s : State) (dev t : Nat) (m : Mask) (data : List W32) : State :=
  match s.hub.snoops.find? (fun q => q.1 == t && q.2.2 == dev) with
  | none => s
  | some (_, pf, _) =>
    let s : State := { s with hub := { s.hub with snoops := s.hub.snoops.erase (t, pf, dev) } }
    let s : State := match s.entry? pf with
      | some e => (s.memBack pf ((wordsOfMask (m &&& e.own)).map (fun i => (⟨i, data.getD i 0, 15, false⟩ : Put)))).setEntry
          { e with own := if e.st == .s then e.own &&& ~~~m else e.own }
      | none => s
    if s.hub.snoops.any (fun q => q.1 == t) then s else s.ackHub 5 t

/-! ### Failure of a slice (13 R282) -/

/-- A directory slice fails: its requests are refused, its frames written back and dropped, its subscriptions ended. -/
def State.failSlice (s : State) (n : Nat) : State :=
  let mine := fun (pf : PAddr) => dirSliceOf pf == n
  let s : State := { s with slicesDown := insertNat n s.slicesDown }
  let waiting := s.dirWait.filter (fun w => match reqFrame w.2 with | some pf => mine pf | none => false)
  let s : State := { s with dirWait := s.dirWait.filter (fun w => !waiting.contains w) }
  let s : State := waiting.foldl (fun s w => s.nak w.2) s
  let (_, s) := (s.l1.filter (fun (l : L1Line) => mine l.pf)).foldl (fun (r : List Nat × State) l =>
    r.2.flushLine none 0 true l 0xFFFFFFFF (if s.home l.pf == l.p / 32 / Config.clustersPerDie then .wt else .uc)) ([], s)
  let s : State := ((s.l2.filter (fun (l : L2Line) => mine l.pf)).map (fun (l : L2Line) => (l.die, l.pf))).eraseDups.foldl
    (fun s q => s.giveUp q.1 q.2 0xFFFFFFFF) s
  let s : State := { s with l1 := s.l1.filter (fun (l : L1Line) => !mine l.pf) }
  let s : State := (s.wbufs.filter (fun (b : WbEnt) => mine b.pf)).foldl (fun s b => s.memBack b.pf (b.puts 0xFFFFFFFF)) s
  let s : State := { s with wbufs := s.wbufs.filter (fun (b : WbEnt) => !mine b.pf) }
  let out := s.dir.filter (fun (e : DirEnt) => mine e.pf)
  let s : State := out.foldl (fun s e => e.holders.foldl (fun s x => if 4 ≤ x.1 then s.wire (toSharer x.1) (.rcl x.1 e.pf x.2) else s) s) s
  let s : State := { s with dirBits := s.dirBits ++ (out.filter (fun (e : DirEnt) => e.home < 4)).map (fun (e : DirEnt) => e.pf),
                            dir := s.dir.filter (fun (e : DirEnt) => !mine e.pf) }
  -- what was in progress on its frames ends: stores are serialised, and nobody is owed a message any more
  let (gone, kept) := s.txns.partition (fun (t : Txn) => mine t.pf && (match t.fin with | .serial .. | .freed _ => false | _ => true))
  let s : State := { s with txns := kept }
  let s : State := gone.foldl (fun s t => match t.fin with
    | .again req | .grant req => s.nak req
    | _ => s.finish t) s
  s.hubEvent (0x10 + n) 0x58 (BitVec.ofNat 64 n) (BitVec.ofNat 64 n)

/-! ### The rows -/

/-- RDS (13 R278). (DEDUCED, log 16.) -/
def execRds (s : State) : Host.Outcome State Fault Refusal :=
  match s.arg with
  | some (.rds d pf m a) => .next (s.dirArrive (.rds d pf m a))
  | _ => .next s

/-- RDO (13 R278). (DEDUCED, log 16.) -/
def execRdo (s : State) : Host.Outcome State Fault Refusal :=
  match s.arg with
  | some (.rdo d pf m a) => .next (s.dirArrive (.rdo d pf m a))
  | _ => .next s

/-- STW (13 R283). (DEDUCED, log 16.) -/
def execStw (s : State) : Host.Outcome State Fault Refusal :=
  match s.arg with
  | some (.stw d pf m w a) => .next (s.dirArrive (.stw d pf m w a))
  | _ => .next s

/-- UPG (13 R285). (DEDUCED, log 16.) -/
def execUpg (s : State) : Host.Outcome State Fault Refusal :=
  match s.arg with
  | some (.upg d pf m f md a) => .next (s.dirArrive (.upg d pf m f md a))
  | _ => .next s

/-- UNS (13 R278). -/
def execUns (s : State) : Host.Outcome State Fault Refusal :=
  match s.arg with
  | some (.uns d pf m a) => .next (s.dirArrive (.uns d pf m a))
  | _ => .next s

/-- EVC (13 R278). (DEDUCED, log 16.) -/
def execEvc (s : State) : Host.Outcome State Fault Refusal :=
  match s.arg with
  | some (.evc d pf m) => .next (s.dirArrive (.evc d pf m))
  | _ => .next s

/-- WBK (13 R280). (DEDUCED, log 16.) -/
def execWbk (s : State) : Host.Outcome State Fault Refusal :=
  match s.arg with
  | some (.wbk d pf m w) => .next (s.dirArrive (.wbk d pf m w))
  | _ => .next s

/-- FWD (13 R278). -/
def execFwd (s : State) : Host.Outcome State Fault Refusal :=
  match s.arg with
  | some (.fwd o pf m d a) => .next (s.takeFwd o pf m d a)
  | _ => .next s

/-- INV (13 R269, R281). -/
def execInv (s : State) : Host.Outcome State Fault Refusal :=
  match s.arg with
  | some (.inv d pf m t) => .next (s.takeInv d pf m t)
  | _ => .next s

/-- UPD (13 R269, 26 R456). -/
def execUpd (s : State) : Host.Outcome State Fault Refusal :=
  match s.arg with
  | some (.upd d pf w v bad t) => .next (s.takeUpd d pf w v bad t)
  | _ => .next s

/-- RCL (13 R280, R281). -/
def execRcl (s : State) : Host.Outcome State Fault Refusal :=
  match s.arg with
  | some (.rcl d pf m) => .next (s.takeRcl d pf m)
  | _ => .next s

/-- DAT (13 R277, R284). -/
def execDat (s : State) : Host.Outcome State Fault Refusal :=
  match s.arg with
  | some (.dat d pf m w b a) => .next (s.takeDat d pf m w b a)
  | _ => .next s

/-- ACK (13 R270, R278). -/
def execAck (s : State) : Host.Outcome State Fault Refusal :=
  match s.arg with
  | some (.ack t) => .next (s.takeAck t)
  | _ => .next s

/-- DIRECTORY_SLICE_FAILURE (13 R282). -/
def execDirectorySliceFailure (s : State) : Host.Outcome State Fault Refusal :=
  match s.arg with
  | some (.directorySliceFailure n) => if n < 16 && !s.slicesDown.contains n then .next (s.failSlice n) else .next s
  | _ => .next s

/-- NAK_RETRY (13 R279): the requester makes its request again. -/
def execNakRetry (s : State) : Host.Outcome State Fault Refusal :=
  match s.arg with
  | some (.nakRetry id) =>
    match s.naks.find? (fun q => q.1 == id) with
    | none => .next s
    | some (_, _, e) =>
      let s : State := { s with naks := s.naks.filter (fun q => q.1 != id) }
      match reqAcc e with
      | some a => .next ((s.modAcc a (fun a => if a.stage == .sent then { a with stage := .held } else a)).tryAcc a)
      | none => .next (s.soon e)
  | _ => .next s

end Sys2Proof.Machine
end

