-- ==== Sys2Proof/Machine/Walk.lean ====
section
/-! DEFINITION. Walk.lean: translation as a step of a unit, page faults, the replay queue, the operand log, shootdowns and the
words that ask for them (16 R350 to R360; 18 R397, R399, R416). -/

namespace Sys2Proof.Machine

/-! ### Page-fault messages (16 Table 16-6) -/

def AccKind.pfKind : AccKind → Nat
  | .store | .through => 1
  | .fetch => 2
  | .amo _ | .lock | .cond | .bar _ => 3
  | _ => 0

/-- The command for which an access is made. -/
def State.cmdOf (s : State) (o : Owner) : Option Cmd :=
  match o with
  | .cmd c id _ => (s.cluster c).cmd? id
  | _ => none

/-- The requester's place, as sr.placeid [63:19]: the issuing unit, or the team of a command. -/
def State.placeOf (s : State) (a : Acc) : Nat :=
  match a.unit.orElse (fun _ => (s.cmdOf a.owner).map (·.team)) with
  | none => 0
  | some k =>
    let lane := if a.isCmd then 0 else a.lane
    s.devnum % 2 ^ 18 * 2 ^ 46 + k.cluster * 2 ^ 38 + (if k.team then k.pipe + lane % max 1 a.w else k.pipe) * 2 ^ 33 +
      k.slot * 2 ^ 30 + (if k.team then 2 ^ 29 + lane * 2 ^ 19 else 0)

def State.pfDws (s : State) (a : Acc) (die unit cause level tag seq : Nat) : Word × Word × Word × Word :=
  let cmd := a.isCmd
  (BitVec.ofNat 64 (cause % 256 * 2 ^ 56 + a.asid % 2 ^ 16 * 2 ^ 40 + a.kind.pfKind * 2 ^ 38 + (if cmd then 2 ^ 37 else 0) +
     level % 16 * 2 ^ 32 + seq % 2 ^ 32),
   BitVec.ofNat 64 a.va,
   BitVec.ofNat 64 (s.placeOf a / 2 ^ 19 * 2 ^ 19 + ((s.cmdOf a.owner).map (·.ch)).getD 0 * 2 ^ 17),
   BitVec.ofNat 64 (tag % 2 ^ 32 * 2 ^ 32 + die % 16 * 2 ^ 28 + unit % 16 * 2 ^ 24))

/-- The message goes to the pager of the unit's die, or to the host event queue under fwd (16 R351, R353). -/
def State.pageFault (s : State) (a : Acc) (die unit cause level tag : Nat) (fwd : Bool) : State :=
  let src := 0x80 + 16 * die + unit
  let seq := s.srcSeq src
  let (d0, d1, d2, d3) := s.pfDws a die unit cause level tag seq
  let s := s.bumpSeq src
  if fwd then s.wire (chanOf (.num src)) (.eventRecordWrite (.num src) seq d0 d1 d2 d3 cause)
  else s.sendTo (s.pagerdst.toList.getD die 0) (.num src) none cause seq d0 d1 d2 d3

/-! ### The operand log (18 R397) -/

/-- Entries in use that count against a unit's: its own 8, or the 64 of its harness. -/
def State.logUsed (s : State) (u : HwUnit) : Nat :=
  if u.team then ((s.teamsOf u.cluster u.pipe).map (fun w => w.logged.length)).sum else u.logged.length

def State.logFree (s : State) (u : HwUnit) : Bool := decide (s.logUsed u < if u.team then 64 else 8)

/-- The entry that a faulted access needs: its word and its pass. -/
def logKey (u : HwUnit) (oid lane : Nat) : Nat × Nat := (oid, lane / max 1 u.w)

/-- Teams among which the faults of a harness await entries; a thread awaits its own. -/
def State.logPeers (s : State) (u : HwUnit) : List HwUnit := if u.team then s.teamsOf u.cluster u.pipe else [u]

/-- A faulted access of a word that has issued is logged, or awaits an entry behind the faults that its harness reported before it (18 R397). -/
def State.logAccess (s : State) (a : Acc) : State :=
  match a.owner, a.unit with
  | .out oid, some k =>
    match s.unit? k with
    | none => s
    | some u =>
      if u.logged.contains (logKey u oid a.lane) then s
      else if (s.logPeers u).all (fun w => w.awaiting.isEmpty) && s.logFree u then s.modUnit k (fun u => { u with logged := u.logged ++ [logKey u oid a.lane] })
      else s.modUnit k (fun u => { u with awaiting := u.awaiting ++ [a.id] })
  | _, _ => s

/-- The number of the fault of an access, in the order in which faults were reported (18 R397). -/
def State.reportOf (s : State) (id : Nat) : Nat := ((s.replays.find? (fun (r : Replay) => r.acc == id)).map (·.tag)).getD 0

/-- The unit's first awaiting fault is the first reported among those that await an entry with it. -/
def State.logTurn (s : State) (u : HwUnit) : Bool :=
  match u.awaiting with
  | [] => false
  | id :: _ => (s.logPeers u).all (fun w => match w.awaiting with | [] => true | j :: _ => decide (s.reportOf id ≤ s.reportOf j))

/-- The access is held no longer: its entry is freed with the last held access of its pass. -/
def State.unlog (s : State) (a : Acc) : State :=
  match a.owner, a.unit with
  | .out oid, some k =>
    match s.unit? k with
    | none => s
    | some u =>
      let others := s.accs.any (fun b => b.owner == a.owner && b.id != a.id && b.stage == .replay &&
        logKey u oid b.lane == logKey u oid a.lane)
      s.modUnit k (fun u => { u with awaiting := u.awaiting.filter (· != a.id),
                                     logged := if others then u.logged else u.logged.filter (· != logKey u oid a.lane) })
  | _, _ => s

/-- OPERAND_LOG_RECORD: the first fault that awaits an entry takes one that has become free (18 R397). -/
def execOperandLogRecord (s : State) : Host.Outcome State Fault Refusal :=
  match s.arg with
  | some (.operandLogRecord k) =>
    match s.unit? k with
    | none => .next s
    | some u =>
      match u.awaiting with
      | [] => .next s
      | id :: r =>
        match s.acc? id with
        | none => .next (s.setUnit { u with awaiting := r })
        | some a =>
          match a.owner with
          | .out oid =>
            let key := logKey u oid a.lane
            if u.logged.contains key then .next (s.setUnit { u with awaiting := r })
            else if s.logFree u && s.logTurn u then .next (s.setUnit { u with awaiting := r, logged := u.logged ++ [key] })
            else .next s
          | _ => .next (s.setUnit { u with awaiting := r })
  | _ => .next s

/-! ### Walks and the replay queue (16 R350, R352, R360) -/

/-- The physical address of the page that a leaf gives. -/
def leafBase (pte : Word) (size : Nat) : Nat := (pte.extractLsb' 10 44).toNat * 4096 / size * size

/-- What an access's translation comes to. Without an answer of its own (`fresh`) the unit uses a leaf that it holds (16 R349). A line that refused
the access is its own answer, found at no level of a walk: 0 is reported (16 Table 16-6). (DEDUCED, log 18.) -/
def State.translate (s : State) (a : Acc) (fresh : Bool) : XlRes × List (Nat × Nat × PAddr) × State :=
  if a.stage == .denied then (.fault 0x72 0, [], s)
  else
    match if fresh then none else s.cachedLeaf a.die a.asid a.v57 with
    | some t =>
      let (entry, s) := s.asidEntry a.asid
      let ad := match entry with | some (_, _, b) => b | none => false
      let (r, s) := s.useLeaf t.pte t.level t.at_ t.wins ad a.v57 a.kind.need a.super
      (r, t.wins, s)
    | none =>
      let (r, s) := s.walk a.asid a.v57 a.kind.need a.super
      (r, s.windows, s)

/-- What a translation of an access comes to: it goes on, is held, or is refused. `tag`: its replay-queue entry, if it has one. -/
def State.walkAcc (s : State) (a : Acc) (tag : Option Nat) : State :=
  let die := a.die
  let unit := unitOfVa a.v57
  let drop := fun (s : State) => match tag with
    | some t => { s with replays := s.replays.filter (fun (r : Replay) => r.tag != t) }
    | none => s
  let hold := fun (s : State) (cause : Nat) (mig : Bool) =>
    (((drop s).modAcc a.id (fun a => { a with stage := .replay, xl := none }) : State), (⟨s.ids, die, unit, a.id, cause, mig⟩ : Replay))
  let full := tag.isNone && 256 ≤ (s.replays.filter (fun (r : Replay) => r.die == die && r.unit == unit)).length
  match s.translate a tag.isSome with
  | (.ok x size pte level at_, ws, s) =>
    let s : State := s.nakDone (.translationWalk a.id)
    let s : State := s.tlbFill die a.asid a.v57 size x pte (leafBase pte size) level at_ ws
    let s : State := (drop s).modAcc a.id (fun a => { a with stage := .held, xl := some x })
    if tag.isSome then s.soon (.heldRequestComplete a.id) else s.tryAcc a.id
  | (.later, _, s) => s.post (match tag with | some t => .migrationRewalk t | none => .translationWalk a.id)
  | (.mig _, _, s) =>
    if a.kind == .pref then (drop s).effect a.id 6
    else if full then s.nak (.translationWalk a.id)
    else
      let (s', r) := hold s 0x71 true
      { s' with ids := s'.ids + 1, replays := s'.replays ++ [r] }.at_ (s.now + 4096) (.migrationRewalk r.tag)
  | (.fault cause level, _, s) =>
    if a.kind == .pref then (drop s).effect a.id 6
    else
      let (entry, s) := s.asidEntry a.asid
      let fwd := match entry with | some (_, f, _) => f | none => false
      if !fwd && !(s.pagerdst.toList.getD die 0).getLsbD 63 then ((drop s).accFault a.id cause).unlog a
      else if full then s.nak (.translationWalk a.id)
      else
        let (s', r) := hold s cause false
        let s'' : State := { s' with ids := s'.ids + 1, replays := s'.replays ++ [r] }
        (s''.pageFault a die unit cause level r.tag fwd).logAccess { a with stage := .replay }

/-- TRANSLATION_WALK (16 R343, R347, R350). -/
def execTranslationWalk (s : State) : Host.Outcome State Fault Refusal :=
  match s.arg with
  | some (.translationWalk id) =>
    match s.acc? id with
    | some a => if a.stage == .walk || a.stage == .denied then .next (s.walkAcc a none) else .next s
    | none => .next s
  | _ => .next s

/-- A held request is walked again. -/
def State.rewalk (s : State) (tag : Nat) : State :=
  match s.replays.find? (fun (r : Replay) => r.tag == tag) with
  | none => s
  | some r =>
    match s.acc? r.acc with
    | some a => s.walkAcc a (some tag)
    | none => { s with replays := s.replays.filter (fun (x : Replay) => x.tag != tag) }

/-- MIGRATION_REWALK (16 R360). -/
def execMigrationRewalk (s : State) : Host.Outcome State Fault Refusal :=
  match s.arg with
  | some (.migrationRewalk tag) => .next (s.rewalk tag)
  | _ => .next s

/-- HELD_REQUEST_COMPLETE: a retried request goes on with the values of its log entry, which is freed (18 R397). -/
def execHeldRequestComplete (s : State) : Host.Outcome State Fault Refusal :=
  match s.arg with
  | some (.heldRequestComplete id) =>
    match s.acc? id with
    | some a => .next ((s.unlog a).tryAcc id)
    | none => .next s
  | _ => .next s

/-- A pager's or the host's answer to a held request (16 R352); one for a tag that the unit does not hold is dropped. -/
def State.faultAnswer (s : State) (tag die unit : Nat) (refuse : Bool) : State :=
  match s.replays.find? (fun (r : Replay) => r.tag % 2 ^ 32 == tag && r.die == die && r.unit == unit) with
  | none => s
  | some r =>
    if refuse then
      let s : State := { s with replays := s.replays.filter (fun (x : Replay) => x.tag != r.tag) }
      match s.acc? r.acc with
      | some a => (s.accFault r.acc r.cause).unlog a
      | none => s
    else s.rewalk r.tag

/-! ### Words that take effect once a release is performed -/

/-- Issues a word of kind Y whose effect comes after a release: it completes when that effect is made. -/
def State.issueLate (s : State) (u : HwUnit) (i : Instr) (e : LaneSet) (sc : Scope) (o : OutWord → OutWord) : State :=
  s.issueOpen u u i e o (fun oid => (lanesOf e u.n).map (fun l =>
    { u.access l .fence .si sc (.late oid) 0 4 0 with rel := some sc, need := 6 }))

/-- The accesses by which a late word is kept from completing are over once it is brought to effect: it completes, with these
register writes. -/
def State.finishOut (s : State) (oid : Nat) (ws : List RegWrite) : State :=
  ({ s with outw := s.outw.map (fun (o : OutWord) => if o.id == oid then { o with due := true, writes := o.writes ++ ws } else o) }).soon
    (.wordComplete oid)

/-- The same for a word that faults in the lanes in which it executes. -/
def State.failOut (s : State) (oid cause : Nat) : State :=
  ({ s with outw := s.outw.map (fun (o : OutWord) => if o.id == oid then
      { o with due := true, faults := (lanesOf o.lanes 1024).map (fun l =>
          ⟨cause, l, o.pc, o.widx, 0, ((o.srcs.find? (fun (q : Nat × List Word) => q.1 == l)).map (fun (q : Nat × List Word) => q.2)).getD [], 0, 0⟩) } else o) }).soon (.wordComplete oid)

/-- A result in every lane in which a word executes. -/
def OutWord.xAll (o : OutWord) (d : Xr) (v : Word) : List RegWrite := (lanesOf o.lanes 1024).map (fun l => .x l d v)

/-- The L1s of a unit. -/
def HwUnit.l1s (u : HwUnit) : List Nat := (List.range (max 1 u.w)).map (32 * u.cluster + u.pipe + ·)

/-- An acquire of a unit, in the lanes of a set, made as its word issues. -/
def State.acquireUnit (s : State) (u : HwUnit) (sc : Scope) : State := s.acquire (some u.id) 0 u.super u.l1s sc

/-! ### Shootdowns (16 R354, R358) -/

def Shoot.lo (h : Shoot) : Nat := h.base % 2 ^ 57
def Shoot.hits (h : Shoot) (va size : Nat) : Bool := decide (va < h.lo + h.pages * 4096) && decide (h.lo < va + size)

/-- A cached leaf of the set (16 Table 16-9). -/
def Shoot.leaf (h : Shoot) (t : TlbEnt) : Bool :=
  match h.kind with
  | 0 => t.asid == h.asid && !t.pte.getLsbD 5 && h.hits t.base t.size
  | 1 => t.asid == h.asid && !t.pte.getLsbD 5
  | 2 => true
  | _ => h.hits t.base t.size

/-- A line of the set, by tag. -/
def Shoot.line (h : Shoot) (asid vf : Nat) : Bool :=
  match h.kind with
  | 0 => asid == h.asid && h.hits (vf * 128) 128
  | 1 => asid == h.asid
  | 2 => true
  | _ => h.hits (vf * 128) 128

/-- An access translated, or to be translated, through an entry of the set. -/
def Shoot.acc (h : Shoot) (a : Acc) : Bool :=
  let glob := match a.xl with | some x => x.glob | none => false
  match h.kind with
  | 0 => a.asid == h.asid && !glob && h.hits a.v57 1
  | 1 => a.asid == h.asid && !glob
  | 2 => true
  | _ => h.hits a.v57 1

/-- An UNS of a die, which a shootdown awaits (16 R354): its number. -/
def State.unsubFor (s : State) (l : L2Line) (m : Mask) : Nat × State :=
  let a : Acc := { id := s.ids, kind := .unsub, rt := .si, sc := .ln, owner := .none, unit := none, lane := 0,
                   p := 32 * Config.clustersPerDie * l.die, w := 1, asid := l.asid, super := true, kclass := 0, ctx := 0, va := l.vf * 128,
                   n := 4, mask := m, puts := [], arg := 0, cmp := 0, dst := none, sx := false, rel := none, acq := none,
                   waits := some [], stage := .sent, xl := some l.xl, got := none, perf := 0, need := 6, told := true, naks := 0,
                   fault := 0, shot := false, ord := s.ids, seq := 0, missed := false, heirs := [] }
  (s.ids, ({ s with ids := s.ids + 1, accs := s.accs ++ [a] } : State).wire (toHub l.die) (.uns l.die l.pf m s.ids))

/-- The die's own copies of a line go home and are dropped; a subscription of the die to the frame ends. -/
def State.shootLine (s : State) (l : L2Line) : List Nat × State :=
  let s : State := s.dropWords l 0xFFFFFFFF
  let sub := match s.entry? l.pf with | some e => if (e.sharer l.die).sub then (e.sharer l.die).mask else 0 | none => 0
  let (ids, s) := if sub != 0 then (let (i, s) := s.unsubFor l sub; ([i], s)) else ([], s)
  (ids, if s.pinned l then s else { s with l2 := s.l2.filter (fun (x : L2Line) => !x.same l) })

/-- Every unit, L1 and L2 slice acts on a shootdown; held requests of the set are walked again. (DEDUCED, log 18.) -/
def State.applyShoot (s : State) (h : Shoot) : State :=
  let s : State := { s with tlb := s.tlb.filter (fun t => !h.leaf t) }
  let (ids, s) := (s.l1.filter (fun (l : L1Line) => h.line l.asid l.vf)).foldl (fun (r : List Nat × State) l =>
    let (ids, s) := r.2.flushLine none 0 true l 0xFFFFFFFF .uc
    let s : State := match s.l1At l.p l.asid l.vf with | some l => s.surrender l 0xFFFFFFFF | none => s
    (r.1 ++ ids, { s with l1 := s.l1.filter (fun (x : L1Line) => !x.same l) })) ([], s)
  let lines := s.l2.filter (fun (l : L2Line) => h.line l.asid l.vf)
  let (subs, s) := lines.foldl (fun (r : List Nat × State) l => match r.2.l2.find? (fun (x : L2Line) => x.same l) with
    | some l => let (i, s) := r.2.shootLine l; (r.1 ++ i, s)
    | none => r) ([], s)
  let under := (s.accs.filter (fun a => h.acc a && a.xl.isSome && a.fault == 0 && (a.stage == .sent || (a.stage == .bound && decide (a.perf < 6))))).map (·.id)
  let s : State := { s with accs := s.accs.map (fun a =>
    if h.acc a && a.xl.isSome then
      (if a.stage == .held && a.kind != .through then { a with xl := none, got := none }
       else if a.stage == .sent && a.kind != .store && a.kind != .through then { a with shot := true } else a)
    else a) }
  let s : State := { s with hub := { s.hub with shoots := s.hub.shoots.map (fun (x : Shoot) => if x.ticket == h.ticket then
      { x with applied := true, waits := ids ++ subs ++ under, backs := (lines.map (fun l => (l.die, l.pf))).eraseDups } else x) } }
  (s.replays.filter (fun (r : Replay) => match s.acc? r.acc with | some a => h.acc a | none => false)).foldl (fun s r => s.rewalk r.tag) s

/-- Whether the accesses and write-backs that a shootdown waits for are over. -/
def State.shootOver (s : State) (h : Shoot) : Bool :=
  h.waits.all (fun i => match s.acc? i with
    | none => true
    | some a => decide (6 ≤ a.perf) || a.fault != 0 || (a.xl.isNone && a.stage != .sent)) &&
  h.backs.all (fun (b : Nat × PAddr) => !s.wbufs.any (fun (w : WbEnt) => w.die == b.1 && w.pf == b.2))

/-- A line of the set lies in a granule in re-classing, whose memory controllers take no write-back yet (15 R334). -/
def State.shootWaits (s : State) (h : Shoot) : Bool :=
  s.l1.any (fun (l : L1Line) => h.line l.asid l.vf && s.reclassing l.pf) || s.l2.any (fun (l : L2Line) => h.line l.asid l.vf && s.reclassing l.pf)

/-- The next ticket is taken and the shootdown broadcast. -/
def State.shoot (s : State) (kind asid base pages : Nat) (host : Option (Nat × Bool × Nat)) : Nat × State :=
  let t := s.hub.ticket
  let h : Shoot := ⟨t, kind, asid, base, pages, false, host, [], []⟩
  (t, ({ s with hub := { s.hub with ticket := (t + 1) % 2 ^ 32, shoots := s.hub.shoots ++ [h] } }).post (.shootdownComplete t))

/-- An acknowledgement of a mailbox request: the 32-bit posted write, then the vector (16 R359). -/
def State.imbAcknowledge (s : State) (seq : Nat) (bad irq : Bool) (vec : Nat) : State :=
  let s : State := s.hostWrite (s.hub.imbAck.toNat / 4 * 4) 4 (seq % 2 ^ 28 + if bad then 2 ^ 31 else 0)
  let s : State := { s with hub := { s.hub with imbBusy := s.hub.imbBusy - 1 } }
  if irq then { s with msix := vec :: s.msix } else s

/-- SHOOTDOWN_COMPLETE: the device acts on a shootdown, and later finds it complete (16 R354). (DEDUCED, log 18.) -/
def execShootdownComplete (s : State) : Host.Outcome State Fault Refusal :=
  match s.arg with
  | some (.shootdownComplete t) =>
    match s.hub.shoots.find? (fun (h : Shoot) => h.ticket == t) with
    | none => .next s
    | some h =>
      if !h.applied && s.shootWaits h then .next (s.post (.shootdownComplete t))
      else if !h.applied then .next ((s.applyShoot h).post (.shootdownComplete t))
      else if !s.shootOver h then .next (s.post (.shootdownComplete t))
      else
        let s : State := { s with hub := { s.hub with shoots := s.hub.shoots.filter (fun (x : Shoot) => x.ticket != t) } }
        let s : State := { s with units := s.units.map (fun (u : HwUnit) => if (u.wait.map (·.kind)) == some .sync then u.unblock else u) }
        match h.host with
        | some (seq, irq, vec) => .next (s.imbAcknowledge seq false irq vec)
        | none => .next s
  | _ => .next s

/-! ### TLBSHOOT and TLBSYNC (16 R355 to R357) -/

/-- The operand checks of a range (16 R356). -/
def rangeOk (a b : Word) : Bool :=
  let pages := (b.extractLsb' 16 32).toNat
  let canon := a.extractLsb' 57 7 == (if a.getLsbD 56 then 0x7F else 0)
  a.extractLsb' 0 12 == 0 && canon && pages != 0 && b.extractLsb' 48 16 == 0 &&
  (if a.getLsbD 56 then decide (a.toNat + pages * 4096 ≤ 2 ^ 64) else decide (a.toNat + pages * 4096 ≤ 2 ^ 56))

/-- TLBSHOOT: the operands are checked as it issues; the ticket is taken once its release at .sy is performed. -/
def tlbWord (i : Instr) (d : Xr) (kind : Nat) (a b : Xr) (ok : Word → Word → Bool) (s : State) : Host.Outcome State Fault Refusal :=
  match s.late.bind (fun id => s.outw.find? (fun o => o.id == id)) with
  | some o =>
    let (t, s) := s.shoot kind (if kind = 0 ∨ kind = 1 then (o.val2.extractLsb' 0 16).toNat else 0) o.val.toNat (o.val2.extractLsb' 16 32).toNat none
    .next (s.finishOut o.id (o.xAll d (BitVec.ofNat 64 t)))
  | none =>
    word i s (fun u e s =>
      let top := u.lane (topLane e u.n)
      if !ok (top.X a) (top.X b) then s.raiseOp u i 0x77 e
      else s.issueLate u i e .sy (fun o => { o with val := top.X a, val2 := top.X b }))

/-- TLBSHOOT (16 R356). -/
def execTlbshoot (h : Hdr) (d a b : Xr) (s : State) : Host.Outcome State Fault Refusal :=
  tlbWord (.tlbshoot h d a b) d 0 a b rangeOk s

/-- TLBSHOOT.asid (16 R356). -/
def execTlbshootAsid (h : Hdr) (d b : Xr) (s : State) : Host.Outcome State Fault Refusal :=
  tlbWord (.tlbshootAsid h d b) d 1 0 b (fun _ b => b.extractLsb' 16 48 == 0) s

/-- TLBSHOOT.all (16 R356). -/
def execTlbshootAll (h : Hdr) (d : Xr) (s : State) : Host.Outcome State Fault Refusal :=
  tlbWord (.tlbshootAll h d) d 2 0 0 (fun _ _ => true) s

/-- TLBSHOOT.glob (16 R356). -/
def execTlbshootGlob (h : Hdr) (d a b : Xr) (s : State) : Host.Outcome State Fault Refusal :=
  tlbWord (.tlbshootGlob h d a b) d 3 a b (fun a b => rangeOk a b && b.extractLsb' 0 16 == 0) s

/-- TLBSYNC (16 R357). -/
def execTlbsync (h : Hdr) (a : Xr) (s : State) : Host.Outcome State Fault Refusal :=
  word (.tlbsync h a) s (fun u e s =>
    let i := Instr.tlbsync h a
    let v := (u.lane (topLane e u.n)).X a
    if v.extractLsb' 32 32 != 0 then s.raiseOp u i 0x77 e
    else if decide ((s.hub.ticket + 2 ^ 32 - v.toNat) % 2 ^ 32 ≤ 2 ^ 31) &&
        s.hub.shoots.any (fun (x : Shoot) => decide ((v.toNat + 2 ^ 32 - x.ticket) % 2 ^ 32 < 2 ^ 31)) then s.block u .sync
    else (s.issueFixed u u i e).acquireUnit u .sy)

/-! ### FAULTACK (18 R416) -/

/-- The answer of a FAULTACK. (DESIGN CHOICE, log 39.) -/
def faultackWord (i : Instr) (a : Xr) (refuse : Bool) (s : State) : Host.Outcome State Fault Refusal :=
  word i s (fun u e s =>
    let v := (u.lane (topLane e u.n)).X a
    if v.extractLsb' 58 6 != 0 then s.raiseOp u i 0x94 e
    else
      let s' := s.issueFixed u u i e
      if (v.extractLsb' 40 18).toNat == s.devnum % 2 ^ 18 then
        s'.faultAnswer (v.extractLsb' 0 32).toNat (v.extractLsb' 32 4).toNat (v.extractLsb' 36 4).toNat refuse
      else if (s.route (v.extractLsb' 40 18).toNat 0).isNone then s.raiseOp u i 0xA4 e
      else s'.soon (.linkMessage s.devnum (v.extractLsb' 40 18).toNat 0 [if refuse then 1 else 0, v] 0))

/-- FAULTACK. -/
def execFaultack (h : Hdr) (a : Xr) (s : State) : Host.Outcome State Fault Refusal := faultackWord (.faultack h a) a false s

/-- FAULTACK.refuse. -/
def execFaultackRefuse (h : Hdr) (a : Xr) (s : State) : Host.Outcome State Fault Refusal := faultackWord (.faultackRefuse h a) a true s

/-! ### The invalidation mailbox (16 R359) -/

def cmdSeq (cmd : Word) : Nat := (cmd.extractLsb' 0 28).toNat
def cmdIrq (cmd : Word) : Bool := cmd.getLsbD 31
def cmdVec (cmd : Word) : Nat := (cmd.extractLsb' 32 11).toNat

/-- A mailbox request that is a shootdown. -/
def State.imbShoot (s : State) (kind : Nat) (ok : Bool) (asid base pages : Nat) (cmd : Word) : State :=
  if ok then (s.shoot kind asid base pages (some (cmdSeq cmd, cmdIrq cmd, cmdVec cmd))).2
  else s.imbAcknowledge (cmdSeq cmd) true (cmdIrq cmd) (cmdVec cmd)

/-- IMB_SHOOTDOWN_RANGE. -/
def execImbShootdownRange (s : State) : Host.Outcome State Fault Refusal :=
  match s.arg with
  | some (.imbShootdownRange addr arg cmd) =>
    .next (s.imbShoot 0 (rangeOk addr arg) (arg.extractLsb' 0 16).toNat addr.toNat (arg.extractLsb' 16 32).toNat cmd)
  | _ => .next s

/-- IMB_SHOOTDOWN_ASID. -/
def execImbShootdownAsid (s : State) : Host.Outcome State Fault Refusal :=
  match s.arg with
  | some (.imbShootdownAsid _ arg cmd) => .next (s.imbShoot 1 (arg.extractLsb' 16 48 == 0) (arg.extractLsb' 0 16).toNat 0 0 cmd)
  | _ => .next s

/-- IMB_SHOOTDOWN_ALL. -/
def execImbShootdownAll (s : State) : Host.Outcome State Fault Refusal :=
  match s.arg with
  | some (.imbShootdownAll _ _ cmd) => .next (s.imbShoot 2 true 0 0 0 cmd)
  | _ => .next s

/-- IMB_SHOOTDOWN_GLOBAL. -/
def execImbShootdownGlobal (s : State) : Host.Outcome State Fault Refusal :=
  match s.arg with
  | some (.imbShootdownGlobal addr arg cmd) =>
    .next (s.imbShoot 3 (rangeOk addr arg && arg.extractLsb' 0 16 == 0) 0 addr.toNat (arg.extractLsb' 16 32).toNat cmd)
  | _ => .next s

/-- A fault answer of the host, acknowledged as it is applied. -/
def State.imbFault (s : State) (addr cmd : Word) (refuse : Bool) : State :=
  (s.faultAnswer (addr.extractLsb' 0 32).toNat (addr.extractLsb' 32 4).toNat (addr.extractLsb' 36 4).toNat refuse).imbAcknowledge
    (cmdSeq cmd) false (cmdIrq cmd) (cmdVec cmd)

/-- IMB_FAULT_RETRY. -/
def execImbFaultRetry (s : State) : Host.Outcome State Fault Refusal :=
  match s.arg with
  | some (.imbFaultRetry addr _ cmd) => .next (s.imbFault addr cmd false)
  | _ => .next s

/-- IMB_FAULT_REFUSE. -/
def execImbFaultRefuse (s : State) : Host.Outcome State Fault Refusal :=
  match s.arg with
  | some (.imbFaultRefuse addr _ cmd) => .next (s.imbFault addr cmd true)
  | _ => .next s

/-- IMB_KIND_REJECTED: kinds 6 and 7. -/
def execImbKindRejected (s : State) : Host.Outcome State Fault Refusal :=
  match s.arg with
  | some (.imbKindRejected _ _ cmd) => .next (s.imbAcknowledge (cmdSeq cmd) true (cmdIrq cmd) (cmdVec cmd))
  | _ => .next s

end Sys2Proof.Machine
end

