-- ==== Sys2Proof/Machine/MemWords.lean ====
section
/-! DEFINITION. MemWords.lean: the memory words (13 R287 to R296), the vector memory words (09 R184 to R187) and the barrier
words (17 R365 to R368). -/

namespace Sys2Proof.Machine

/-! ### Addresses -/

/-- The first check that an address fails: alignment, the span within its frame, the canonical form (13 R264, 16 R344); 0: none. -/
def addrCause (ea : Word) (align span : Nat) : Nat :=
  if ea.toNat % align != 0 then 0x50
  else if 32 < ea.toNat % 128 / 4 + span then 0x51
  else if !canonical ea then 0x70 else 0

/-- The words of a span from an address on, clipped at the frame's end. -/
def spanMask (ea : Word) (span : Nat) : Mask :=
  maskWhere (fun i => decide (ea.toNat % 128 / 4 ≤ i) && decide (i < ea.toNat % 128 / 4 + span))

/-- Address faults of lanes. -/
def addrFaults (u : HwUnit) (i : Instr) (f : LaneSet) (ea : Lane → Word) (cause : Nat → Nat) : List LaneFault :=
  (lanesOf f u.n).map (fun l => ⟨cause l, l, u.pc, u.widx, 0, u.srcs i l, ea (u.lane l), 0⟩)

/-- A word that makes one access in each executing lane: a lane whose address fails a check has no effect and faults. (DEDUCED, log 19.) -/
def memWord (i : Instr) (s : State) (keep : Bool) (ea : Lane → Word) (check : Lane → Nat) (mk : HwUnit → Nat → Nat → Word → Acc) :
    Host.Outcome State Fault Refusal :=
  word i s (fun u e s =>
    let f := lanesWhere u.n (fun l => e.getLsbD l && check (u.lane l) != 0)
    let g := e &&& ~~~f
    let fs := addrFaults u i f ea (fun l => check (u.lane l))
    if g = 0 then (s.passWord u.id).raise u.id fs
    else
      let v := if keep then u else s.unlock u g
      let s : State := if keep then s else s.spoilLocks u g
      let s : State := s.issueAccs u v i g id (fun oid =>
        (lanesOf g u.n).map (fun l => mk u oid l (ea (u.lane l))))
      if f = 0 then s else s.raise u.id fs)

/-- The words of a request span (13 R264). -/
def spanWords (span : BitVec 5) (n : Nat) : Nat := max (span.toNat + 1) ((n + 3) / 4)

/-! ### LD, ST, LDACQ, STREL and FENCE (13 R288) -/

def loadWord (i : Instr) (s : State) (rt : ReqType) (sc : Scope) (span : BitVec 5) (wd : Wd) (d a : Xr) (off : BitVec 18)
    (kind : AccKind) (acq : Option Scope) : Host.Outcome State Fault Refusal :=
  let n := wd.bits / 8
  let k := spanWords span n
  memWord i s (kind == .lock) (fun l => eaOff l a off) (fun l => addrCause (eaOff l a off) n k) (fun u oid l ea =>
    { u.access l kind rt sc (.out oid) ea.toNat n (spanMask ea k) with dst := some (.x l d 0), acq := acq })

def storeWord (i : Instr) (s : State) (rt : ReqType) (sc : Scope) (span : BitVec 5) (wd : Wd) (b a : Xr) (off : BitVec 18)
    (rel : Option Scope) : Host.Outcome State Fault Refusal :=
  let n := wd.bits / 8
  let k := spanWords span n
  memWord i s false (fun l => eaOff l a off) (fun l => addrCause (eaOff l a off) n k) (fun u oid l ea =>
    { u.access l .store rt sc (.out oid) ea.toNat n (spanMask ea k) with
      puts := putsOf (ea.toNat % 128) n ((u.lane l).X b).toNat, rel := rel, need := rank sc + 1 })

/-- LD. -/
def execLd (h : Hdr) (rt : ReqType) (sc : Scope) (span : BitVec 5) (wd : Wd) (d a : Xr) (off : BitVec 18) (s : State) :
    Host.Outcome State Fault Refusal := loadWord (.ld h rt sc span wd d a off) s rt sc span wd d a off .load none

/-- LDACQ: the load, then an acquire. -/
def execLdacq (h : Hdr) (rt : ReqType) (sc : Scope) (span : BitVec 5) (wd : Wd) (d a : Xr) (off : BitVec 18) (s : State) :
    Host.Outcome State Fault Refusal := loadWord (.ldacq h rt sc span wd d a off) s rt sc span wd d a off .load (some sc)

/-- ST. -/
def execSt (h : Hdr) (rt : ReqType) (sc : Scope) (span : BitVec 5) (wd : Wd) (b a : Xr) (off : BitVec 18) (s : State) :
    Host.Outcome State Fault Refusal := storeWord (.st h rt sc span wd b a off) s rt sc span wd b a off none

/-- STREL: a release, then the store. -/
def execStrel (h : Hdr) (rt : ReqType) (sc : Scope) (span : BitVec 5) (wd : Wd) (b a : Xr) (off : BitVec 18) (s : State) :
    Host.Outcome State Fault Refusal := storeWord (.strel h rt sc span wd b a off) s rt sc span wd b a off (some sc)

/-- FENCE: a release and then an acquire, with no access of its own. -/
def execFence (h : Hdr) (sc : Scope) (s : State) : Host.Outcome State Fault Refusal :=
  memWord (.fence h sc) s false (fun _ => 0) (fun _ => 0) (fun u oid l _ =>
    { u.access l .fence .si sc (.out oid) 0 4 0 with rel := some sc, acq := some sc })

/-! ### Atomics (13 R289) -/

def amoWord (i : Instr) (op : AmoOp) (s : State) (rt : ReqType) (sc : Scope) (wd : Wd) (d a b : Xr) (off : BitVec 18) :
    Host.Outcome State Fault Refusal :=
  let n := wd.bits / 8
  memWord i s false (fun l => eaOff l a off) (fun l => addrCause (eaOff l a off) n (n / 4)) (fun u oid l ea =>
    { u.access l (.amo op) rt sc (.out oid) ea.toNat n (spanMask ea (n / 4)) with
      arg := ((u.lane l).X b).toNat % 2 ^ (8 * n), cmp := ((u.lane l).X d).toNat % 2 ^ (8 * n), dst := some (.x l d 0) })

/-- AMOADD. -/
def execAmoadd (h : Hdr) (rt : ReqType) (sc : Scope) (wd : Wd) (d a b : Xr) (off : BitVec 18) (s : State) :
    Host.Outcome State Fault Refusal := amoWord (.amoadd h rt sc wd d a b off) .add s rt sc wd d a b off
/-- AMOAND. -/
def execAmoand (h : Hdr) (rt : ReqType) (sc : Scope) (wd : Wd) (d a b : Xr) (off : BitVec 18) (s : State) :
    Host.Outcome State Fault Refusal := amoWord (.amoand h rt sc wd d a b off) .and s rt sc wd d a b off
/-- AMOOR. -/
def execAmoor (h : Hdr) (rt : ReqType) (sc : Scope) (wd : Wd) (d a b : Xr) (off : BitVec 18) (s : State) :
    Host.Outcome State Fault Refusal := amoWord (.amoor h rt sc wd d a b off) .or s rt sc wd d a b off
/-- AMOXOR. -/
def execAmoxor (h : Hdr) (rt : ReqType) (sc : Scope) (wd : Wd) (d a b : Xr) (off : BitVec 18) (s : State) :
    Host.Outcome State Fault Refusal := amoWord (.amoxor h rt sc wd d a b off) .xor s rt sc wd d a b off
/-- AMOMIN. -/
def execAmomin (h : Hdr) (rt : ReqType) (sc : Scope) (wd : Wd) (d a b : Xr) (off : BitVec 18) (s : State) :
    Host.Outcome State Fault Refusal := amoWord (.amomin h rt sc wd d a b off) .min s rt sc wd d a b off
/-- AMOMINU. -/
def execAmominu (h : Hdr) (rt : ReqType) (sc : Scope) (wd : Wd) (d a b : Xr) (off : BitVec 18) (s : State) :
    Host.Outcome State Fault Refusal := amoWord (.amominu h rt sc wd d a b off) .minu s rt sc wd d a b off
/-- AMOMAX. -/
def execAmomax (h : Hdr) (rt : ReqType) (sc : Scope) (wd : Wd) (d a b : Xr) (off : BitVec 18) (s : State) :
    Host.Outcome State Fault Refusal := amoWord (.amomax h rt sc wd d a b off) .max s rt sc wd d a b off
/-- AMOMAXU. -/
def execAmomaxu (h : Hdr) (rt : ReqType) (sc : Scope) (wd : Wd) (d a b : Xr) (off : BitVec 18) (s : State) :
    Host.Outcome State Fault Refusal := amoWord (.amomaxu h rt sc wd d a b off) .maxu s rt sc wd d a b off
/-- AMOSWAP. -/
def execAmoswap (h : Hdr) (rt : ReqType) (sc : Scope) (wd : Wd) (d a b : Xr) (off : BitVec 18) (s : State) :
    Host.Outcome State Fault Refusal := amoWord (.amoswap h rt sc wd d a b off) .swap s rt sc wd d a b off
/-- AMOCAS: X(d) holds the value compared with. -/
def execAmocas (h : Hdr) (rt : ReqType) (sc : Scope) (wd : Wd) (d a b : Xr) (off : BitVec 18) (s : State) :
    Host.Outcome State Fault Refusal := amoWord (.amocas h rt sc wd d a b off) .cas s rt sc wd d a b off

/-! ### LDLK and STCK (13 R292, R293) -/

/-- LDLK. -/
def execLdlk (h : Hdr) (rt : ReqType) (sc : Scope) (span : BitVec 5) (wd : Wd) (d a : Xr) (off : BitVec 18) (s : State) :
    Host.Outcome State Fault Refusal := loadWord (.ldlk h rt sc span wd d a off) s rt sc span wd d a off .lock none

/-- STCK. -/
def execStck (h : Hdr) (rt : ReqType) (sc : Scope) (wd : Wd) (pd : Pr) (b a : Xr) (off : BitVec 18) (s : State) :
    Host.Outcome State Fault Refusal :=
  let n := wd.bits / 8
  memWord (.stck h rt sc wd pd b a off) s true (fun l => eaOff l a off) (fun l => addrCause (eaOff l a off) n (n / 4)) (fun u oid l ea =>
    { u.access l .cond rt sc (.out oid) ea.toNat n (spanMask ea (n / 4)) with
      arg := ((u.lane l).X b).toNat % 2 ^ (8 * n), dst := some (.p l pd false) })

/-- RESERVATION_TIMEOUT: 1,024 core cycles after the LDLK (13 R293). -/
def execReservationTimeout (s : State) : Host.Outcome State Fault Refusal :=
  match s.arg with
  | some (.reservationTimeout k lane id) =>
    .next (s.modUnit k (fun u => u.mapLanes (lane1 lane) (fun _ l =>
      match l.resv with
      | some r => if r.id == id && decide (r.atC + 1024 ≤ s.now) then { l with resv := none } else l
      | none => l)))
  | _ => .next s

/-! ### Subscriptions and span maintenance (13 R294, R295) -/

def spanWord (i : Instr) (s : State) (kind : AccKind) (rt : ReqType) (sc : Scope) (span : BitVec 5) (a : Xr) (off : BitVec 18)
    (pd : Option Pr) : Host.Outcome State Fault Refusal :=
  let k := span.toNat + 1
  memWord i s false (fun l => eaOff l a off) (fun l => addrCause (eaOff l a off) 4 k) (fun u oid l ea =>
    { u.access l kind rt sc (.out oid) ea.toNat 4 (spanMask ea k) with dst := pd.map (fun p => .p l p false) })

/-- SUBSCR. -/
def execSubscr (h : Hdr) (fmt : AssayFmt) (mode : Bool) (span : BitVec 5) (pd : Pr) (a : Xr) (off : BitVec 18) (s : State) :
    Host.Outcome State Fault Refusal :=
  spanWord (.subscr h fmt mode span pd a off) s (.subscr fmt mode) .si .ln span a off (some pd)
/-- UNSUB. -/
def execUnsub (h : Hdr) (span : BitVec 5) (a : Xr) (off : BitVec 18) (s : State) : Host.Outcome State Fault Refusal :=
  spanWord (.unsub h span a off) s .unsub .si .ln span a off none
/-- UPGR. -/
def execUpgr (h : Hdr) (fmt : AssayFmt) (span : BitVec 5) (pd : Pr) (a : Xr) (off : BitVec 18) (s : State) :
    Host.Outcome State Fault Refusal := spanWord (.upgr h fmt span pd a off) s (.upgr fmt) .si .ln span a off (some pd)
/-- INVSPAN. -/
def execInvspan (h : Hdr) (sc : Scope) (span : BitVec 5) (a : Xr) (off : BitVec 18) (s : State) : Host.Outcome State Fault Refusal :=
  spanWord (.invspan h sc span a off) s .invspan .si sc span a off none
/-- WBSPAN. -/
def execWbspan (h : Hdr) (sc : Scope) (span : BitVec 5) (a : Xr) (off : BitVec 18) (s : State) : Host.Outcome State Fault Refusal :=
  spanWord (.wbspan h sc span a off) s .wbspan .si sc span a off none

/-- PREF: its span is clipped at the frame's end; an address that is not canonical is dropped as one that cannot be translated
(log 15). (DEDUCED, log 19.) -/
def execPref (h : Hdr) (rt : ReqType) (span : BitVec 5) (a : Xr) (off : BitVec 18) (s : State) : Host.Outcome State Fault Refusal :=
  let i := Instr.pref h rt span a off
  memWord i s false (fun l => eaOff l a off) (fun l => if (eaOff l a off).toNat % 4 != 0 then 0x50 else 0) (fun u oid l ea =>
    let m := spanMask ea (span.toNat + 1)
    if canonical ea then u.access l .pref rt .ln (.out oid) ea.toNat 4 m
    else u.access l .fence rt .ln (.out oid) 0 4 0)

/-! ### Stopes (13 R272, R296) -/

/-- The doubleword of a context descriptor at an index (18 R376). -/
def State.ctxDw (s : State) (ctx i : Nat) : Word × State :=
  let base := s.hub.ctxtab.toNat + 64 * ctx + 8 * i
  if deviceBytes ≤ base + 8 then (0, s)
  else
    let (v, s) := s.homeRead ⟨.dev, base⟩ 8
    (BitVec.ofNat 64 v, s)

/-- Frames of stopes of a die that fall into a slice. -/
def pinsIn (ts : List Stope) (die slice : Nat) : Nat :=
  ((ts.filter (fun t => t.die == die)).map (fun t =>
    ((List.range t.frames).filter (fun i => Config.l2Slice (t.base / 128 + i) % 80 == slice)).length)).sum

/-- Frames of a context's pin quota in use. -/
def State.pinned? (s : State) (ctx : Nat) : Nat := ((s.stopes.filter (fun t => t.ctx == ctx)).map (·.frames)).sum

/-- A word that executes once and whose result is known at once; when it completes is open. `kindM`: it clears the reservations of its issuers, as
every word of kind M does (13 R293). -/
def onceResult (i : Instr) (s : State) (f : HwUnit → LaneSet → State → Option Nat × List RegWrite × State) (kindM : Bool := false) :
    Host.Outcome State Fault Refusal :=
  word i s (fun u e s =>
    match f u e s with
    | (some c, _, s) => s.raiseOp u i c e
    | (none, ws, s) =>
      let u := (s.unit? u.id).getD u
      let s' := (if kindM then s.spoilLocks u e else s).issueAs u (if kindM then s.unlock u e else u) i e
      let oid := s'.ids
      (({ s' with ids := oid + 1 } : State).addOut u.id { mkOut oid u i e with due := true, writes := ws }).post (.wordComplete oid))

/-- A predicate in every executing lane. -/
def pAll (u : HwUnit) (e : LaneSet) (p : Pr) (b : Bool) : List RegWrite := (lanesOf e u.n).map (fun l => .p l p b)

/-- PINW (13 R296). -/
def execPinw (h : Hdr) (pd : Pr) (a b : Xr) (off : BitVec 18) (s : State) : Host.Outcome State Fault Refusal :=
  onceResult (.pinw h pd a b off) s (fun u e s =>
    let top := u.lane (topLane e u.n)
    let ea := eaOff top a off
    let len := (top.X b).toNat
    if ea.toNat % 128 != 0 || len % 128 != 0 || decide (2 ^ 26 < len) then (some 0x50, [], s)
    else if !canonical ea then (some 0x70, [], s)
    else
      let die := u.cluster / Config.clustersPerDie
      let (dw, s) := s.ctxDw u.ctx 1
      let quota := (dw.extractLsb' 0 32).toNat
      let new : Stope := ⟨die, u.asid, u.ctx, ea.toNat % 2 ^ 57, len / 128, 255, false⟩
      let mine := s.stopes.filter (fun t => t.die == die)
      let clash := mine.any (fun t => t.asid == u.asid && decide (t.base < new.base + len) && decide (new.base < t.base + t.frames * 128))
      let full := (List.range 80).any (fun k => decide (19660 < pinsIn (new :: s.stopes) die k))
      let ok := decide (s.pinned? u.ctx + new.frames ≤ quota) && decide (mine.length < 256) && !full && !clash
      (none, pAll u e pd ok, if ok then { s with stopes := s.stopes ++ [new] } else s)) true

/-- UNPINW (13 R296). -/
def execUnpinw (h : Hdr) (pd : Pr) (a : Xr) (off : BitVec 18) (s : State) : Host.Outcome State Fault Refusal :=
  onceResult (.unpinw h pd a off) s (fun u e s =>
    let ea := eaOff (u.lane (topLane e u.n)) a off
    let die := u.cluster / Config.clustersPerDie
    if !canonical ea then (some 0x70, [], s)
    else
      let hit := fun (t : Stope) => t.die == die && t.asid == u.asid && t.base == ea.toNat % 2 ^ 57
      (none, pAll u e pd (s.stopes.any hit), { s with stopes := s.stopes.filter (fun t => !hit t) })) true

/-- FADE_INTERVAL: an interval of a die ends (13 R273, R274). (DEDUCED, log 33.) -/
def execFadeInterval (s : State) : Host.Outcome State Fault Refusal :=
  match s.arg with
  | some (.fadeInterval die) =>
    let iv := (s.fadeint.toList.getD die 0).toNat
    let fade := fun (t : Stope) => if t.die != die || iv == 0 then t
      else if t.hit then { t with fade := 255, hit := false } else { t with fade := t.fade - 1 }
    let s' : State := { s with stopes := (s.stopes.map fade).filter (fun t => t.fade != 0) }
    .next (if iv = 0 then s' else s'.at_ (s.now + 2 * iv) (.fadeInterval die))
  | _ => .next s

/-! ### Vector memory words -/

/-- Elements of a vector at a width. -/
def elCount (wd : Wd) : Nat := 512 / wd.bits

/-- A vector memory word (09 R185 to R187): `at_` gives the address of an element. -/
def vMemWord (i : Instr) (s : State) (rt : ReqType) (sc : Scope) (wd : Wd) (store : Bool) (gv : Bool) (pg : Vr) (z : Bool) (d : Vr)
    (addr : HwUnit → Nat → Word) : Host.Outcome State Fault Refusal :=
  word i s (fun u e s =>
    let n := wd.bits / 8
    let els := List.range (elCount wd)
    let act := els.filter (fun k => vAct u gv pg wd.bits k)
    let fault := fun (cause : Nat) (a : Word) => (s.passWord u.id).raise u.id
      [⟨cause, 0, u.pc, u.widx, 0, u.srcs i 0, a, 0⟩]
    match act.find? (fun k => (addr u k).toNat % n != 0), act.find? (fun k => !canonical (addr u k)) with
    | some k, _ => fault 0x34 (addr u k)
    | none, some k => fault 0x70 (addr u k)
    | none, none =>
      let zeros : List RegWrite := if z && gv then (els.filter (fun k => !vAct u gv pg wd.bits k)).map (fun k => .ve d (k * n) n 0) else []
      (s.spoilLocks u e).issueAccs u (s.unlock u e) i e (fun o => { o with writes := if store then [] else zeros }) (fun oid =>
        act.map (fun k =>
          let ea := addr u k
          let m := datumMask (ea.toNat % 128) n
          if store then { u.access 0 .store rt sc (.out oid) ea.toNat n m with
              puts := putsOf (ea.toNat % 128) n (vEl (u.V d) wd.bits k), need := rank sc + 1 }
          else { u.access 0 .load rt sc (.out oid) ea.toNat n m with dst := some (.ve d (k * n) n 0), sx := false })))

/-- The address of element k of VLD and VST. -/
def vEaOff (wd : Wd) (a : Xr) (off : BitVec 18) (u : HwUnit) (k : Nat) : Word :=
  eaOff (u.lane 0) a off + BitVec.ofNat 64 (k * (wd.bits / 8))

/-- The address of element k of VLDX and VSTX. -/
def vEaIdx (wd : Wd) (a : Xr) (b : Vr) (u : HwUnit) (k : Nat) : Word :=
  (u.lane 0).X a + sext (vEl (u.V b) wd.bits k) wd.bits * BitVec.ofNat 64 (wd.bits / 8)

/-- VLD. -/
def execVld (h : Hdr) (gv z : Bool) (rt : ReqType) (sc : Scope) (wd : Wd) (d : Vr) (a : Xr) (pg : Vr) (off : BitVec 18) (s : State) :
    Host.Outcome State Fault Refusal :=
  vMemWord (.vld h gv z rt sc wd d a pg off) s rt sc wd false gv pg z d (vEaOff wd a off)
/-- VST. -/
def execVst (h : Hdr) (gv : Bool) (rt : ReqType) (sc : Scope) (wd : Wd) (d : Vr) (a : Xr) (pg : Vr) (off : BitVec 18) (s : State) :
    Host.Outcome State Fault Refusal :=
  vMemWord (.vst h gv rt sc wd d a pg off) s rt sc wd true gv pg false d (vEaOff wd a off)
/-- VLDX. -/
def execVldx (h : Hdr) (gov : Gov) (rt : ReqType) (sc : Scope) (wd : Wd) (d : Vr) (a : Xr) (b : Vr) (s : State) :
    Host.Outcome State Fault Refusal :=
  vMemWord (.vldx h gov rt sc wd d a b) s rt sc wd false gov.gv gov.pg gov.z d (vEaIdx wd a b)
/-- VSTX. -/
def execVstx (h : Hdr) (gv : Bool) (pg : Vr) (rt : ReqType) (sc : Scope) (wd : Wd) (d : Vr) (a : Xr) (b : Vr) (s : State) :
    Host.Outcome State Fault Refusal :=
  vMemWord (.vstx h gv pg rt sc wd d a b) s rt sc wd true gv pg false d (vEaIdx wd a b)

/-! ### Barrier words (17 R365, R366) -/

/-- The address check of a barrier word. -/
def barCheck (l : Lane) (a : Xr) (off : BitVec 18) : Nat := addrCause (eaOff l a off) 16 4

/-- The access of a barrier word in a lane. -/
def HwUnit.barAcc (u : HwUnit) (owner : Owner) (l : Nat) (op : BarOp) (rt : ReqType) (sc : Scope) (a b : Xr) (off : BitVec 18) : Acc :=
  let ea := eaOff (u.lane l) a off
  { u.access l (.bar op) rt sc owner ea.toNat 16 (spanMask ea 4) with arg := ((u.lane l).X b).toNat }

/-- BARINIT. -/
def execBarinit (h : Hdr) (rt : ReqType) (sc : Scope) (a b : Xr) (off : BitVec 18) (s : State) : Host.Outcome State Fault Refusal :=
  memWord (.barinit h rt sc a b off) s true (fun l => eaOff l a off)
    (fun l => if barCheck l a off != 0 then barCheck l a off
              else if (l.X b) == 0 || decide (32767 < (l.X b).toNat) then 0x84 else 0)
    (fun u oid l _ => { u.barAcc (.out oid) l .init rt sc a b off with need := rank sc + 1 })

/-- BARARR. -/
def execBararr (h : Hdr) (rt : ReqType) (sc : Scope) (d a b : Xr) (off : BitVec 18) (s : State) : Host.Outcome State Fault Refusal :=
  memWord (.bararr h rt sc d a b off) s true (fun l => eaOff l a off) (fun l => barCheck l a off)
    (fun u oid l _ => { u.barAcc (.out oid) l .arr rt sc a b off with rel := some sc, dst := some (.x l d 0) })

/-- BAREXP. -/
def execBarexp (h : Hdr) (rt : ReqType) (sc : Scope) (a b : Xr) (off : BitVec 18) (s : State) : Host.Outcome State Fault Refusal :=
  memWord (.barexp h rt sc a b off) s true (fun l => eaOff l a off) (fun l => barCheck l a off)
    (fun u oid l _ => { u.barAcc (.out oid) l .exp rt sc a b off with need := rank sc + 1 })

/-- BARTEST. -/
def execBartest (h : Hdr) (rt : ReqType) (sc : Scope) (pd : Pr) (a b : Xr) (off : BitVec 18) (s : State) :
    Host.Outcome State Fault Refusal :=
  memWord (.bartest h rt sc pd a b off) s true (fun l => eaOff l a off) (fun l => barCheck l a off)
    (fun u oid l _ => { u.barAcc (.out oid) l .test rt sc a b off with acq := some sc, dst := some (.p l pd false) })

/-- BARWAIT: the unit blocks while a lane's phase has not changed (17 R367). A lane whose address fails faults once the others
have taken effect. -/
def execBarwait (h : Hdr) (rt : ReqType) (sc : Scope) (a b : Xr) (off : BitVec 18) (s : State) : Host.Outcome State Fault Refusal :=
  let i := Instr.barwait h rt sc a b off
  word i s (fun u e s =>
    let bad := lanesWhere u.n (fun l => e.getLsbD l && barCheck (u.lane l) a off != 0)
    let todo := e &&& ~~~u.done &&& ~~~bad
    if todo = 0 then
      let u' := { u with done := 0 }
      if bad = 0 then s.issueFixed u u' i e
      else ((s.setUnit u').passWord u.id).raise u.id (addrFaults u i bad (fun l => eaOff l a off) (fun l => barCheck (u.lane l) a off))
    else (s.block u .barrier).addAccs ((lanesOf todo u.n).map (fun l => u.barAcc (.unit u.id) l .wait rt sc a b off)))

/-- The tests of a BARWAIT's last round have ended, and the object has completed a phase since or the interval has passed (17 R367). -/
def State.barrierRipe (s : State) (u : HwUnit) (w : Wait) : Bool :=
  let regs := s.barWaits.filter (fun b => b.unit == u.id && b.id == w.id)
  let iv := ((s.cluster u.cluster).waitlim.extractLsb' 32 12).toNat
  w.kind == .barrier && !regs.isEmpty && !s.accs.any (fun b => b.owner == .unit u.id && !b.complete && b.fault == 0) &&
    (regs.any (·.woken) || decide (w.last + 64 * iv ≤ s.now))

/-- BARRIER_WAIT_RETRY: after a completion of the object, or when the interval has passed, the lanes not yet done test again. -/
def execBarrierWaitRetry (s : State) : Host.Outcome State Fault Refusal :=
  match s.arg with
  | some (.barrierWaitRetry k id) =>
    match s.unit? k with
    | none => .next s
    | some u =>
      match u.wait with
      | none => .next s
      | some w =>
        let regs := s.barWaits.filter (fun b => b.unit == k && b.id == id)
        if w.id == id && s.barrierRipe u w then
          .next (({ s with barWaits := s.barWaits.filter (fun b => !(b.unit == k && b.id == id)) } : State).addAccs (regs.map (·.test)))
        else .next s
  | _ => .next s

end Sys2Proof.Machine
end

