-- ==== Sys2Proof/Machine/Scratchpad.lean ====
section
/-! DEFINITION. Scratchpad.lean: the scratchpad words and the steps of their waiters (10 R190 to R211; 22 R446, R447). -/

namespace Sys2Proof.Machine

/-! ### Addresses and allocations -/

/-- The words that n bytes from an address on touch. -/
def spWords (a n : Nat) : List Nat := (List.range ((a + n + 3) / 4 - a / 4)).map (a / 4 + ·)

/-- The byte belongs to a LIVE allocation that the issuer may use (10 R191). -/
def Cluster.spPermits (c : Cluster) (asid : Nat) (super : Bool) (a : Nat) : Bool :=
  c.allocs.any (fun (x : Alloc) => x.live && decide (x.base ≤ a) && decide (a < x.base + 4096 * x.units) && (super || x.asid == asid))

/-- The check that an access fails (10 R191, R192); 0: none. (DEDUCED, log 19.) -/
def Cluster.spCause (c : Cluster) (asid : Nat) (super : Bool) (ea : Word) (n : Nat) : Nat :=
  if decide (0x200000 ≤ ea.toNat) || (List.range n).any (fun i => !c.spPermits asid super (ea.toNat + i)) then 0x38
  else if ea.toNat % n != 0 then 0x39 else 0

/-! ### What a word does at its bank (10 Table 10-3) -/

inductive SpOp where
  | load (d : Xr) (sx : Bool)
  | store (b : Xr)
  | amo (op : AmoOp) (d b c : Xr)
  | bits
deriving DecidableEq, Repr

/-- `cond`: the bit that the word waits for; `bit`: what it leaves; its ordering at .cl. -/
structure SpDesc where
  op   : SpOp
  n    : Nat
  base : Xr
  off  : Word
  cond : Option Bool
  bit  : Option Bool
  rel  : Bool
  acq  : Bool
deriving DecidableEq, Repr

def spMem (op : SpOp) (wd : Wd) (a : Xr) (imm : BitVec 24) (cond bit : Option Bool) (rel acq : Bool) : SpDesc :=
  ⟨op, wd.bits / 8, a, sext imm.toNat 24, cond, bit, rel, acq⟩

def spAmo (op : AmoOp) (wd : Wd) (d a b c : Xr) : SpDesc := ⟨.amo op d b c, wd.bits / 8, a, 0, none, none, false, false⟩

/-- What each word of the chapter does at the bank. -/
def spDesc : Instr → Option SpDesc
  | .lds _ wd d a imm => some (spMem (.load d true) wd a imm none none false false)
  | .ldsu _ wd d a imm => some (spMem (.load d false) wd a imm none none false false)
  | .sts _ wd b a imm => some (spMem (.store b) wd a imm none none false false)
  | .ldsf _ wd d a imm => some (spMem (.load d true) wd a imm (some true) (some true) false true)
  | .ldse _ wd d a imm => some (spMem (.load d true) wd a imm (some true) (some false) true true)
  | .stsf _ wd b a imm => some (spMem (.store b) wd a imm (some false) (some true) true true)
  | .stsx _ wd b a imm => some (spMem (.store b) wd a imm none (some true) true false)
  | .feopf _ a _ => some ⟨.bits, 4, a, 0, none, some true, true, false⟩
  | .feope _ a _ => some ⟨.bits, 4, a, 0, none, some false, true, false⟩
  | .samoadd _ wd d a b => some (spAmo .add wd d a b 0)
  | .samoand _ wd d a b => some (spAmo .and wd d a b 0)
  | .samoor _ wd d a b => some (spAmo .or wd d a b 0)
  | .samoxor _ wd d a b => some (spAmo .xor wd d a b 0)
  | .samomin _ wd d a b => some (spAmo .min wd d a b 0)
  | .samomax _ wd d a b => some (spAmo .max wd d a b 0)
  | .samominu _ wd d a b => some (spAmo .minu wd d a b 0)
  | .samomaxu _ wd d a b => some (spAmo .maxu wd d a b 0)
  | .samoswap _ wd d a b => some (spAmo .swap wd d a b 0)
  | .samocas _ wd d a b c => some (spAmo .cas wd d a b c)
  | _ => none

/-- The operands of a lane's step: address, bytes, the datum of a store or an atomic, what CAS compares with. -/
structure SpArgs where
  ea  : Word
  n   : Nat
  b   : Nat
  c   : Nat
deriving DecidableEq, Repr

/-- The operands of a word in a lane; the run of FEOPF and FEOPE counts X(b) words. -/
def SpDesc.args (d : SpDesc) (i : Instr) (l : Lane) : SpArgs :=
  let ea := l.X d.base + d.off
  match d.op, i with
  | .store b, _ => ⟨ea, d.n, (l.X b).toNat % 2 ^ (8 * d.n), 0⟩
  | .amo _ _ b c, _ => ⟨ea, d.n, (l.X b).toNat % 2 ^ (8 * d.n), (l.X c).toNat % 2 ^ (8 * d.n)⟩
  | .bits, .feopf _ _ b => ⟨ea, 4 * (l.X b).toNat, 0, 0⟩
  | .bits, .feope _ _ b => ⟨ea, 4 * (l.X b).toNat, 0, 0⟩
  | _, _ => ⟨ea, d.n, 0, 0⟩

/-- The first check that a word fails in a lane; of a run of bits: alignment, then the count (10 R209). (DEDUCED, log 19.) -/
def SpDesc.cause (d : SpDesc) (c : Cluster) (asid : Nat) (super : Bool) (x : SpArgs) : Nat :=
  if d.op == .bits then
    (if x.ea.toNat % 4 != 0 then 0x39
     else if 4 * 32768 < x.n then 0x3B
     else if x.n = 0 then 0
     else if decide (0x200000 ≤ x.ea.toNat) || (List.range (x.n / 4)).any (fun i => !c.spPermits asid super (x.ea.toNat + 4 * i)) then 0x38 else 0)
  else c.spCause asid super x.ea x.n

def SpDesc.dest (d : SpDesc) (l : Nat) : Option RegWrite :=
  match d.op with
  | .load r _ => some (.x l r 0)
  | .amo _ r _ _ => some (.x l r 0)
  | _ => none

/-! ### The bank -/

/-- Sets or clears the bits of words; the words whose bit changes. -/
def Cluster.setBits (c : Cluster) (ws : List Nat) (b : Bool) : Cluster × List Nat :=
  let ch := ws.filter (fun w => c.full.contains w != b)
  ({ c with full := if b then ch.foldl (fun f w => insertNat w f) c.full else c.full.filter (fun w => !ch.contains w) }, ch)

/-- Waiters of words whose bit has changed take note of it (10 R204). (DEDUCED, log 26.) -/
def State.feWake (s : State) (c : Nat) (ch : List Nat) : State :=
  if ch.isEmpty then s
  else s.modCluster c (fun cl => { cl with feWaits := cl.feWaits.map (fun (f : FeWait) =>
    if (spWords f.addr f.n).any ch.contains then { f with poked := true } else f) })

/-- Data written to the scratchpad of a cluster; whole words lose an uncorrectable error, which a poisoned datum brings. -/
def Cluster.spWrite (c : Cluster) (a n v : Nat) (bad : Bool) : Cluster :=
  let ws := spWords a n
  { c with spad := memWrite c.spad a n v,
           spadBad := if bad then ws.foldl (fun b w => insertNat w b) c.spadBad
                      else if n % 4 = 0 then c.spadBad.filter (fun w => !ws.contains w) else c.spadBad }

/-- The bits of the words meet the condition of a waiting word. -/
def Cluster.feHolds (c : Cluster) (d : SpDesc) (x : SpArgs) : Bool :=
  match d.cond with
  | none => true
  | some b => (spWords x.ea.toNat x.n).all (fun w => c.full.contains w == b)

/-- The step at the bank (10 R202): the value that its register takes, or the cause with which it faults (15 Table 15-4). -/
def State.bankStep (s : State) (u : HwUnit) (l : Nat) (d : SpDesc) (x : SpArgs) : Nat × Nat × State :=
  let c := s.cluster u.cluster
  let a := x.ea.toNat
  let old := memRead c.spad a x.n
  let reads := match d.op with | .load .. | .amo .. => true | _ => false
  let bad := reads && (spWords a x.n).any c.spadBad.contains
  if bad && u.kclass == 0 then
    let (s, ex) := s.charge u.ctx
    (0, if ex then 0x62 else 0x60, s)
  else
    let c := match d.op with
      | .store _ => c.spWrite a x.n x.b false
      | .amo op _ _ _ => c.spWrite a x.n (amoNew op (8 * x.n) old x.b x.c) bad
      | _ => c
    let (c, ch) := match d.bit with | some b => c.setBits (spWords a x.n) b | none => (c, [])
    let s : State := (s.modCluster u.cluster (fun _ => c)).feWake u.cluster ch
    let s : State := if d.acq then s.acquire (some u.id) l u.super u.l1s .cl else s
    let s : State := if bad && u.kclass == 1 then s.soon (.errorCharge u.ctx (some u.id) l u.pc u.widx false 0) else s
    let v := match d.op with
      | .load _ false => zext old (8 * x.n)
      | _ => sext old (8 * x.n)
    (v.toNat, 0, s)

/-- The access of a lane's step that is made later. -/
def SpDesc.acc (d : SpDesc) (u : HwUnit) (oid l : Nat) (x : SpArgs) : Acc :=
  { u.access l .spad .si .cl (.out oid) x.ea.toNat x.n 0 with
    arg := x.b, cmp := x.c, rel := if d.rel then some .cl else none, acq := if d.acq then some .cl else none,
    dst := d.dest l, sx := false }

/-- Earlier accesses of the lane hold the step back: an acquire, or an access to the same word (10 R203). -/
def State.spHeld (s : State) (u : HwUnit) (l : Nat) (d : SpDesc) (x : SpArgs) : Bool :=
  s.heldBack { d.acc u 0 l x with id := s.ids, ord := s.ids }

/-- What precedes the release of a lane's step is performed. -/
def State.spReleased (s : State) (u : HwUnit) (l : Nat) : Bool :=
  (s.before { u.access l .spad .si .cl .none 0 4 0 with id := s.ids, ord := s.ids } .cl).isEmpty

/-- The release of a lane's step: its dirty words are written through; whether all that precedes it is performed. -/
def State.spRelease (s : State) (u : HwUnit) (l : Nat) : Bool × State :=
  let (_, s) := s.flushL1s (some u.id) l u.super u.l1s
  (s.spReleased u l, s)

/-! ### A round of steps -/

/-- What a round of a word's lanes comes to. -/
structure SpRound where
  s      : State
  did    : LaneSet
  fail   : List (Nat × SpArgs)
  defer_ : List (Nat × SpArgs)
  writes : List RegWrite
  faults : List LaneFault

/-- A lane of the word whose step is still to be made touches a word that this one touches: lanes go in ascending order (10 R202). -/
def SpRound.blocks (r : SpRound) (x : SpArgs) : Bool :=
  r.defer_.any (fun q => (spWords q.2.ea.toNat q.2.n).any (fun w => (spWords x.ea.toNat x.n).contains w))

/-- One lane of a round: it faults, makes its step, fails its condition, or is to make its step later. -/
def spLane (i : Instr) (d : SpDesc) (u : HwUnit) (r : SpRound) (l : Nat) : SpRound :=
  let x := d.args i (u.lane l)
  let c := r.s.cluster u.cluster
  let cause := d.cause c u.asid u.super x
  if cause != 0 then { r with faults := r.faults ++ [⟨cause, l, u.pc, u.widx, 0, u.srcs i l, x.ea, 0⟩], did := r.did ||| lane1 l }
  else if d.op == .bits && x.n == 0 then { r with did := r.did ||| lane1 l }
  else if r.s.spHeld u l d x || r.blocks x then { r with defer_ := r.defer_ ++ [(l, x)] }
  else if !c.feHolds d x then { r with fail := r.fail ++ [(l, x)] }
  else
    let (ok, s) := if d.rel then r.s.spRelease u l else (true, r.s)
    if !ok then { r with s := s, defer_ := r.defer_ ++ [(l, x)] }
    else
      let (v, f, s) := s.bankStep u l d x
      if f != 0 then
        { r with s := s, did := r.did ||| lane1 l, faults := r.faults ++ [⟨f, l, u.pc, u.widx, 0, u.srcs i l, x.ea, 0⟩] }
      else { r with s := s, did := r.did ||| lane1 l, writes := r.writes ++ ((d.dest l).map (fun w => fillWrite w v)).toList }

/-- A round over lanes of a word, in ascending order. -/
def State.spRound (s : State) (i : Instr) (d : SpDesc) (u : HwUnit) (todo : LaneSet) : SpRound :=
  (lanesOf todo u.n).foldl (spLane i d u) ⟨s, 0, [], [], [], []⟩

/-- The lanes of a blocked unit in which its word has not taken effect, as waiters of their words: those whose test has failed, and those whose
release alone is awaited. Others that were registered stay where `keep` says so (10 R204). -/
def State.feRegister (s : State) (u : HwUnit) (id : Nat) (fail ripe : List (Nat × SpArgs)) (keep : Nat → Bool) : State :=
  let new := fun (r : Bool) (ls : List (Nat × SpArgs)) =>
    ls.map (fun q => (⟨u.id, id, false, q.1, q.2.ea.toNat, q.2.n, 0, s.now, false, r⟩ : FeWait))
  s.modCluster u.cluster (fun c => { c with
    feWaits := c.feWaits.filter (fun (f : FeWait) => !(f.unit == u.id && f.id == id) || keep f.lane) ++ new false fail ++ new true ripe })

/-- The interval after which a waiter retries (10 Table 10-4), and the limit of its failed retries. -/
def State.waitInterval (s : State) (c : Nat) : Nat := 64 * ((s.cluster c).waitlim.extractLsb' 32 12).toNat
def State.waitLimit (s : State) (c : Nat) : Nat := ((s.cluster c).waitlim.extractLsb' 0 32).toNat

/-- A word whose condition holds in every lane has issued: it completes, or stays outstanding for the lanes whose release is not performed
(22 R447). Lanes that have faulted take their faults now (10 R192). -/
def State.spGo (s : State) (u : HwUnit) (i : Instr) (e : LaneSet) (d : SpDesc) (later : List (Nat × SpArgs)) (ws : List RegWrite)
    (fs : List LaneFault) : State :=
  let oid := s.ids
  let out := { mkOut oid u i e with writes := ws, due := later.isEmpty, slow := true, born := s.now, srcs := later.map (fun q => (q.1, u.srcs i q.1)) }
  let s : State := ({ s with ids := oid + 1 } : State).addOut u.id out
  let s : State := if later.isEmpty then s.post (.wordComplete oid) else s.addAccs (later.map (fun q => d.acc u oid q.1 q.2))
  if fs.isEmpty then s else s.raise u.id fs

/-- A scratchpad word. A waiting word that fails in a lane blocks its unit, the lanes in which it has taken effect recorded as
done; a word whose release is not performed stays outstanding (22 R447). (DEDUCED, log 26.) -/
def spadWord (i : Instr) (s : State) : Host.Outcome State Fault Refusal :=
  word i s (fun u e s =>
    match spDesc i with
    | none => s
    | some d =>
      let r := s.spRound i d u (e &&& ~~~u.done)
      if !r.fail.isEmpty then
        let s : State := r.s.block u .fe
        let s : State := s.modUnit u.id (fun (u : HwUnit) =>
          { u.landAll r.writes with done := u.done ||| r.did, wait := u.wait.map (fun w => { w with fails := 1, faults := r.faults }) })
        match (s.unit? u.id).bind (·.wait) with
        | some w => s.feRegister u w.id r.fail r.defer_ (fun _ => false)
        | none => s
      else if r.defer_.isEmpty && !r.faults.isEmpty && r.did &&& ~~~(faultLanes r.faults) == 0 && u.done == 0 then
        (r.s.passWord u.id).raise u.id r.faults
      else (r.s.issueAs u { (r.s.unit? u.id).getD u with done := 0 } i e).spGo u i e d r.defer_ r.writes r.faults)

/-! ### Retries -/

/-- The word at which a blocked unit stands. -/
def HwUnit.waitingWord (u : HwUnit) : Option Instr :=
  match u.clause.bind (fun c => c.words[u.widx - 1]?) with
  | none => none
  | some w => match decodeWord u.env w with
    | .ok i => some i
    | .error _ => none

/-- A retry round of a blocked unit: the lanes of a set test again (10 R205, R206). `counts`: a round of every lane not yet done, and not of lanes
alone whose release has been performed. Once no lane fails the word has issued, and what follows it is fetched. (DEDUCED, log 26.) -/
def State.feRound (s : State) (u : HwUnit) (w : Wait) (i : Instr) (d : SpDesc) (todo : LaneSet) (counts : Bool) : State :=
  let e := u.exec i.hdr
  let r := s.spRound i d u todo
  let faults := w.faults ++ r.faults
  let rest := e &&& ~~~u.done &&& ~~~todo
  let u' := { ((r.s.unit? u.id).getD u).landAll r.writes with done := u.done ||| r.did }
  let free := fun (s : State) => s.feRegister u w.id [] [] (fun _ => false)
  let stop := fun (fs : List LaneFault) => (free ((r.s.setUnit { u' with wait := none, done := 0 }).passWord u.id)).raise u.id fs
  if r.fail.isEmpty && rest == 0 then
    (if r.defer_.isEmpty && u'.done &&& ~~~(faultLanes faults) == 0 then stop faults
     else (free (r.s.setUnit ({ u' with wait := none, done := 0 }.issue i e .seq).refetch)).spGo u i e d r.defer_ [] faults)
  else if counts && s.waitLimit u.cluster ≤ w.fails then
    stop (faults ++ (r.fail ++ r.defer_).map (fun q => ⟨0x3A, q.1, u.pc, u.widx, 0, u.srcs i q.1, q.2.ea, 0⟩))
  else
    (r.s.setUnit { u' with wait := some { w with fails := if counts then w.fails + 1 else w.fails, last := s.now, faults := faults, poked := false } }).feRegister
      u w.id r.fail r.defer_ (fun l => rest.getLsbD l)

/-- The step of an outstanding word in a lane, at the bank (22 R447). -/
def State.feOut (s : State) (u : HwUnit) (o : OutWord) (a : Acc) : State :=
  match spDesc o.instr with
  | none => s
  | some d =>
    let x : SpArgs := ⟨BitVec.ofNat 64 a.va, a.n, a.arg, a.cmp⟩
    let c := s.cluster u.cluster
    let mine := fun (f : FeWait) => f.unit == u.id && f.id == o.id && f.lane == a.lane
    let fails := ((c.feWaits.find? mine).map (·.fails)).getD 0
    let clear := fun (s : State) => s.modCluster u.cluster (fun c => { c with feWaits := c.feWaits.filter (fun (f : FeWait) => !mine f) })
    let cause := d.cause c a.asid a.super x
    if cause != 0 then (clear s).accFault a.id cause
    else if !c.feHolds d x then
      if fails != 0 && decide (s.waitLimit u.cluster ≤ fails) then (clear s).accFault a.id 0x3A
      else
        (clear s).modCluster u.cluster (fun c => { c with
          feWaits := c.feWaits ++ [⟨u.id, o.id, true, a.lane, a.va, a.n, fails + 1, s.now, false, false⟩] })
    else
      let (v, f, s) := (clear s).bankStep u a.lane d x
      if f != 0 then s.accFault a.id f else (s.modAcc a.id (fun a => { a with acq := none })).bindVal a.id v false 6 true

/-- A waiter's next test is due: the bit of its word has changed since its latest, or the interval has passed (10 R204, R207). -/
def State.feDue (s : State) (c : Nat) (f : FeWait) : Bool := f.poked || decide (f.last + s.waitInterval c ≤ s.now)

/-- The word of a blocked unit, and what it does at the bank. -/
def HwUnit.waitingSp (u : HwUnit) : Option (Instr × SpDesc) := u.waitingWord.bind (fun i => (spDesc i).map (fun d => (i, d)))

/-- A lane whose release alone was awaited can make its step. -/
def State.feOpen (s : State) (f : FeWait) : Bool :=
  match s.unit? f.unit with
  | none => false
  | some u =>
    match u.waitingSp with
    | none => false
    | some (i, d) => f.ripe && !s.spHeld u f.lane d (d.args i (u.lane f.lane)) && (!d.rel || s.spReleased u f.lane)

/-- The retries that a cycle brings to the banks (10 R204). -/
def State.feRetries (s : State) : List Ev :=
  (s.clusters.mapIdx (fun c (cl : Cluster) => (cl.feWaits.filterMap (fun (f : FeWait) =>
    if f.poked then some (Ev.feWaiterRetry f.unit f.id)
    else if s.feDue c f || s.feOpen f then some (.feTimedRetry f.unit f.id) else none)).eraseDups)).flatten

/-- The lanes of an outstanding word that wait at the bank. -/
def State.feOuts (s : State) (u : HwUnit) (id : Nat) : State :=
  ((s.cluster u.cluster).feWaits.filter (fun (f : FeWait) => f.out && f.unit == u.id && f.id == id && s.feDue u.cluster f)).foldl (fun s f =>
    match s.outw.find? (fun (o : OutWord) => o.id == id),
          s.accs.find? (fun (a : Acc) => a.owner == .out id && a.lane == f.lane && a.kind == .spad && a.stage == .sent) with
    | some o, some a => s.feOut u o a
    | _, _ => s) s

/-- A retry of a waiter that is due: of a blocked unit, of all its lanes not yet done or of those whose release has been performed; or of the
lanes of an outstanding word. -/
def State.feRetry (s : State) (k : UKey) (id : Nat) : State :=
  match s.unit? k with
  | none => s
  | some u =>
    match u.wait, u.waitingSp with
    | some w, some (i, d) =>
      if w.kind == .fe && w.id == id then
        let mine := (s.cluster u.cluster).feWaits.filter (fun (f : FeWait) => !f.out && f.unit == k && f.id == id)
        if mine.any (s.feDue u.cluster) then s.feRound u w i d (u.exec i.hdr &&& ~~~u.done) true
        else
          let open_ := mine.filter s.feOpen
          if open_.isEmpty then s else s.feRound u w i d (lanesWhere u.n (fun l => open_.any (fun f => f.lane == l))) false
      else s.feOuts u id
    | _, _ => s.feOuts u id

/-- FE_WAITER_RETRY (10 R204). -/
def execFeWaiterRetry (s : State) : Host.Outcome State Fault Refusal :=
  match s.arg with
  | some (.feWaiterRetry k id) => .next (s.feRetry k id)
  | _ => .next s

/-- FE_TIMED_RETRY (10 R204). -/
def execFeTimedRetry (s : State) : Host.Outcome State Fault Refusal :=
  match s.arg with
  | some (.feTimedRetry k id) => .next (s.feRetry k id)
  | _ => .next s

/-- OUTSTANDING_FE_STEP (22 R447): the release of a lane's step is performed. (DEDUCED, log 26.) -/
def execOutstandingFeStep (s : State) : Host.Outcome State Fault Refusal :=
  match s.arg with
  | some (.outstandingFeStep id) =>
    match s.acc? id with
    | none => .next s
    | some a =>
      match a.owner, a.unit.bind s.unit? with
      | .out oid, some u =>
        match s.outw.find? (fun (o : OutWord) => o.id == oid) with
        | some o => .next (s.feOut u o a)
        | none => .next (s.dropAcc id)
      | _, _ => .next (s.dropAcc id)
  | _ => .next s

/-! ### The words -/

/-- LDS. -/
def execLds (h : Hdr) (wd : Wd) (d a : Xr) (imm : BitVec 24) (s : State) : Host.Outcome State Fault Refusal := spadWord (.lds h wd d a imm) s
/-- LDSU. -/
def execLdsu (h : Hdr) (wd : Wd) (d a : Xr) (imm : BitVec 24) (s : State) : Host.Outcome State Fault Refusal := spadWord (.ldsu h wd d a imm) s
/-- STS. -/
def execSts (h : Hdr) (wd : Wd) (b a : Xr) (imm : BitVec 24) (s : State) : Host.Outcome State Fault Refusal := spadWord (.sts h wd b a imm) s
/-- LDSF. -/
def execLdsf (h : Hdr) (wd : Wd) (d a : Xr) (imm : BitVec 24) (s : State) : Host.Outcome State Fault Refusal := spadWord (.ldsf h wd d a imm) s
/-- LDSE. -/
def execLdse (h : Hdr) (wd : Wd) (d a : Xr) (imm : BitVec 24) (s : State) : Host.Outcome State Fault Refusal := spadWord (.ldse h wd d a imm) s
/-- STSF. -/
def execStsf (h : Hdr) (wd : Wd) (b a : Xr) (imm : BitVec 24) (s : State) : Host.Outcome State Fault Refusal := spadWord (.stsf h wd b a imm) s
/-- STSX. -/
def execStsx (h : Hdr) (wd : Wd) (b a : Xr) (imm : BitVec 24) (s : State) : Host.Outcome State Fault Refusal := spadWord (.stsx h wd b a imm) s
/-- FEOPF (10 R209). -/
def execFeopf (h : Hdr) (a b : Xr) (s : State) : Host.Outcome State Fault Refusal := spadWord (.feopf h a b) s
/-- FEOPE (10 R209). -/
def execFeope (h : Hdr) (a b : Xr) (s : State) : Host.Outcome State Fault Refusal := spadWord (.feope h a b) s
/-- SAMOADD (10 R210). -/
def execSamoadd (h : Hdr) (wd : Wd) (d a b : Xr) (s : State) : Host.Outcome State Fault Refusal := spadWord (.samoadd h wd d a b) s
/-- SAMOAND. -/
def execSamoand (h : Hdr) (wd : Wd) (d a b : Xr) (s : State) : Host.Outcome State Fault Refusal := spadWord (.samoand h wd d a b) s
/-- SAMOOR. -/
def execSamoor (h : Hdr) (wd : Wd) (d a b : Xr) (s : State) : Host.Outcome State Fault Refusal := spadWord (.samoor h wd d a b) s
/-- SAMOXOR. -/
def execSamoxor (h : Hdr) (wd : Wd) (d a b : Xr) (s : State) : Host.Outcome State Fault Refusal := spadWord (.samoxor h wd d a b) s
/-- SAMOMIN. -/
def execSamomin (h : Hdr) (wd : Wd) (d a b : Xr) (s : State) : Host.Outcome State Fault Refusal := spadWord (.samomin h wd d a b) s
/-- SAMOMAX. -/
def execSamomax (h : Hdr) (wd : Wd) (d a b : Xr) (s : State) : Host.Outcome State Fault Refusal := spadWord (.samomax h wd d a b) s
/-- SAMOMINU. -/
def execSamominu (h : Hdr) (wd : Wd) (d a b : Xr) (s : State) : Host.Outcome State Fault Refusal := spadWord (.samominu h wd d a b) s
/-- SAMOMAXU. -/
def execSamomaxu (h : Hdr) (wd : Wd) (d a b : Xr) (s : State) : Host.Outcome State Fault Refusal := spadWord (.samomaxu h wd d a b) s
/-- SAMOSWAP. -/
def execSamoswap (h : Hdr) (wd : Wd) (d a b : Xr) (s : State) : Host.Outcome State Fault Refusal := spadWord (.samoswap h wd d a b) s
/-- SAMOCAS. -/
def execSamocas (h : Hdr) (wd : Wd) (d a b c : Xr) (s : State) : Host.Outcome State Fault Refusal := spadWord (.samocas h wd d a b c) s

/-! ### SALLOC, SFREE and SFMT -/

/-- A unit of 4 KiB that no allocation holds. -/
def Cluster.unitFree (c : Cluster) (k : Nat) : Bool :=
  !c.allocs.any (fun (x : Alloc) => decide (x.base / 4096 ≤ k) && decide (k < x.base / 4096 + x.units))

/-- The longest run of free units among the first ones of a bank. -/
def longestRun (free : List Bool) : Nat :=
  (free.foldl (fun (r : Nat × Nat) b => if b then (r.1 + 1, max r.2 (r.1 + 1)) else (0, r.2)) (0, 0)).2

/-- The lowest run of n free units within one bank of a list. -/
def Cluster.findRun (c : Cluster) (banks : List Nat) (n : Nat) : Option Nat :=
  banks.findSome? (fun b => ((List.range (33 - n)).map (32 * b + ·)).find? (fun k => (List.range n).all (fun i => c.unitFree (k + i))))

/-- A new allocation: its bytes read 0 and its words are empty. -/
def Cluster.allocate (c : Cluster) (k n : Nat) (owner : UKey) (asid : Nat) : Cluster :=
  let lo := k * 4096
  let hi := lo + n * 4096
  { c with allocs := c.allocs ++ [⟨lo, n, true, owner, asid⟩],
           spad := c.spad.filter (fun q => decide (q.1 < lo) || decide (hi ≤ q.1)),
           full := c.full.filter (fun w => decide (4 * w < lo) || decide (hi ≤ 4 * w)),
           spadBad := c.spadBad.filter (fun w => decide (4 * w < lo) || decide (hi ≤ 4 * w)) }

/-- A register of every executing lane. -/
def xAllOf (u : HwUnit) (e : LaneSet) (d : Xr) (v : Word) : List RegWrite := (lanesOf e u.n).map (fun l => .x l d v)

/-- SALLOC (10 R194). -/
def execSalloc (h : Hdr) (d : Xr) (pc : Pr) (a : Xr) (s : State) : Host.Outcome State Fault Refusal :=
  onceResult (.salloc h d pc a) s (fun u e s =>
    let req := (u.lane (topLane e u.n)).X a
    let size := (req.extractLsb' 0 18).toNat
    if size = 0 ∨ 131072 < size ∨ req.extractLsb' 37 27 != 0 ∨ req.extractLsb' 18 14 != 0 then (some 0x3B, [], s)
    else
      let n := (size + 4095) / 4096
      let banks := if req.getLsbD 36 then [(req.extractLsb' 32 4).toNat] else List.range 16
      let c := s.cluster u.cluster
      match c.findRun banks n with
      | some k =>
        (none, xAllOf u e d (BitVec.ofNat 64 (k * 4096)) ++ pAll u e pc true, s.modCluster u.cluster (fun c => c.allocate k n u.id u.asid))
      | none =>
        let len := (banks.map (fun b => longestRun ((List.range 32).map (fun i => c.unitFree (32 * b + i))))).foldl max 0
        (none, xAllOf u e d (BitVec.ofNat 64 len) ++ pAll u e pc false, s))

/-- An allocation goes to DRAINING and its waiters are woken (10 R195). -/
def State.drainAlloc (s : State) (c base : Nat) : State :=
  let s' := s.modCluster c (fun c => { c with allocs := c.allocs.map (fun (x : Alloc) => if x.base == base then { x with live := false } else x) })
  match (s.cluster c).allocs.find? (fun (x : Alloc) => x.base == base) with
  | none => s
  | some x => (s'.feWake c (spWords base (4096 * x.units))).post (.sfreeComplete c base)

/-- SFREE (10 R195). -/
def execSfree (h : Hdr) (a : Xr) (s : State) : Host.Outcome State Fault Refusal :=
  word (.sfree h a) s (fun u e s =>
    let i := Instr.sfree h a
    let v := (u.lane (topLane e u.n)).X a
    match (s.cluster u.cluster).allocs.find? (fun (x : Alloc) => x.live && x.base == v.toNat && (u.super || x.owner == u.id)) with
    | none => s.raiseOp u i 0x3B e
    | some x =>
      let s' := s.issueAs u u i e
      ((({ s' with ids := s'.ids + 1 } : State).addOut u.id { mkOut s'.ids u i e with val := v })).drainAlloc u.cluster x.base)

/-- An accepted command that may still write into an allocation that stood LIVE at its acceptance (10 R195). (DEDUCED, log 27.) -/
def Cmd.lands (k : Cmd) (c base : Nat) : Bool :=
  let ds := ((k.words.headD 0).extractLsb' 44 2).toNat
  (ds == 1 || ds == 2) && k.areas.any (fun x => x.1 == c && x.2.1 == base)

/-- SFREE_COMPLETE (10 R195): accepted copies into the allocation have landed. Its units become FREE, the format register of a bank
that is then all FREE returns to its reset value, and the SFREE completes. (DEDUCED, log 27.) -/
def execSfreeComplete (s : State) : Host.Outcome State Fault Refusal :=
  match s.arg with
  | some (.sfreeComplete c base) =>
    let cl := s.cluster c
    match cl.allocs.find? (fun (x : Alloc) => x.base == base && !x.live) with
    | none => .next s
    | some _ =>
      if s.clusters.any (fun cl => (cl.chans.flatMap (·.cmds)).any (fun k => k.lands c base)) then .next (s.post (.sfreeComplete c base))
      else
        let bank := base / 131072
        let s : State := s.modCluster c (fun cl =>
          let cl := { cl with allocs := cl.allocs.filter (fun (y : Alloc) => y.base != base) }
          if cl.allocs.any (fun (y : Alloc) => y.base / 131072 == bank) then cl else { cl with bf := cl.bf.setIfInBounds bank 0x14 })
        match s.outw.find? (fun (o : OutWord) => o.unit.cluster == c && o.val.toNat == base && !o.due &&
            (match o.instr with | .sfree .. => true | _ => false)) with
        | some o => .next (s.finishOut o.id [])
        | none => .next s
  | _ => .next s

/-- A value that a bank format register takes (10 R198). -/
def bfOk (v : Word) : Bool :=
  let t := (v.extractLsb' 0 4).toNat
  let rm := (v.extractLsb' 4 3).toNat
  (t == 0 || (decide (4 ≤ t) && decide (t ≤ 9))) && decide (1 ≤ rm) && decide (rm ≤ 4) && v.extractLsb' 8 56 == 0

/-- SFMT, the write (10 R199): refused, or made when the word completes. -/
def execSfmtWrite (h : Hdr) (bf : BitVec 4) (a : Xr) (s : State) : Host.Outcome State Fault Refusal :=
  word (.sfmtWrite h bf a) s (fun u e s =>
    let i := Instr.sfmtWrite h bf a
    let v := (u.lane (topLane e u.n)).X a
    let other := (s.cluster u.cluster).allocs.any (fun (x : Alloc) => x.base / 131072 == bf.toNat && x.asid != u.asid)
    if !bfOk v || (other && !u.super) then s.raiseOp u i 0x3C e
    else s.issueLater u i e (fun o => { o with val := v }) 1)

/-- SFMT, the read. -/
def execSfmtRead (h : Hdr) (d : Xr) (bf : BitVec 4) (s : State) : Host.Outcome State Fault Refusal :=
  onceResult (.sfmtRead h d bf) s (fun u e s => (none, xAllOf u e d ((s.cluster u.cluster).bf.toList.getD bf.toNat 0), s))

end Sys2Proof.Machine
end

