-- ==== Sys2Proof/Machine/Queues.lean ====
section
/-! DEFINITION. Queues.lean: the queue words, the channels of the copy engine and their commands (11 R213 to R238). -/

namespace Sys2Proof.Machine

/-! ### Queue registers -/

def HwUnit.qr (u : HwUnit) (q : Nat) : QReg := u.q.toList.getD q QReg.reset
def HwUnit.setQ (u : HwUnit) (q : Nat) (f : QReg → QReg) : HwUnit := { u with q := u.q.setIfInBounds q (f (u.qr q)) }

/-- Words of the command at the head of a queue, where they are all there (11 R220). -/
def QReg.head? (r : QReg) : Option (List (Word × Nat)) :=
  match r.ents with
  | [] => none
  | x :: _ =>
    let n := (x.1.extractLsb' 58 2).toNat + 1
    if n ≤ r.ents.length then some (r.ents.take n) else none

def QReg.isCmd (r : QReg) : Bool := match r.bound with | some p => decide (p ≤ 3) | none => false
def QReg.isRes (r : QReg) : Bool := r.bound == some 0x10

def scopeOfCode : Nat → Scope
  | 0 => .ln | 1 => .tm | 2 => .cl | 3 => .di | 4 => .dv | _ => .sy

/-- What a queue word waits for (11 R218, R220). -/
inductive QWait where
  | room | some_ | drained | aborted
deriving DecidableEq, Repr

def QReg.holds (r : QReg) : QWait → Bool
  | .room => decide (r.ents.length + r.resvd < 8)
  | .some_ => !r.ents.isEmpty
  | .drained => if r.isCmd then (r.err || r.head?.isNone) && r.infl == 0 else r.resvd == 0
  | .aborted => if r.isCmd then r.infl == 0 else r.resvd == 0

/-- The queue and the condition of a word that waits. -/
def qWaitOf : Instr → Option (Nat × QWait)
  | .qpush _ q _ _ _ => some (q.toNat, .room)
  | .qpop _ _ q _ _ => some (q.toNat, .some_)
  | .qpeek _ _ q _ _ => some (q.toNat, .some_)
  | .qdrain _ q => some (q.toNat, .drained)
  | .qdrainAbort _ q => some (q.toNat, .aborted)
  | _ => none

/-- A change of a queue is noted by a team that waits on it (11 R216). -/
def State.qWake (s : State) (k : UKey) (q : Nat) : State :=
  s.modUnit k (fun u =>
    match u.wait, u.waitingWord.bind qWaitOf with
    | some w, some (j, _) => if w.kind == .queue && j == q then { u with wait := some { w with poked := true } } else u
    | _, _ => u)

/-- The word blocks its team (11 R216). -/
def State.qBlock (s : State) (u : HwUnit) : State :=
  (s.block u .queue).modUnit u.id (fun u => { u with wait := u.wait.map (fun w => { w with fails := max 1 w.fails }) })

/-- The test of a unit that waits is due: what it waits for has changed, or the interval has passed since its latest (10 R204, 11 R216). -/
def State.testDue (s : State) (u : HwUnit) (w : Wait) : Bool := w.poked || decide (w.last + s.waitInterval u.cluster ≤ s.now)

/-- A queue word whose effect is known as it issues; when it completes is open. -/
def State.qDone (s : State) (u u' : HwUnit) (i : Instr) (e : LaneSet) (ws : List RegWrite) : State :=
  let s' := s.issueAs u u' i e
  let oid := s'.ids
  (({ s' with ids := oid + 1 } : State).addOut u.id { mkOut oid u i e with due := true, writes := ws }).post (.wordComplete oid)

/-- A push, pop or peek: it faults on a queue of the wrong direction, waits, or takes effect; the form .nb never waits. -/
def queueWord (i : Instr) (s : State) (q : Qr) (dir : QReg → Bool) (nb : Bool) (pd : Pr) (c : QWait)
    (act : HwUnit → LaneSet → State → State × HwUnit × List RegWrite) : Host.Outcome State Fault Refusal :=
  word i s (fun u e s =>
    let r := u.qr q.toNat
    if !dir r then s.raiseOp u i 0x42 e
    else if r.holds c then
      let (s, u', ws) := act u e s
      s.qDone u u' i e (ws ++ (if nb then pAll u e pd true else []))
    else if nb then s.qDone u u i e (pAll u e pd false)
    else s.qBlock u)

/-- QBIND (11 R217). -/
def execQbind (h : Hdr) (q : Qr) (port : BitVec 16) (s : State) : Host.Outcome State Fault Refusal :=
  word (.qbind h q port) s (fun u e s =>
    let i := Instr.qbind h q port
    if (u.qr q.toNat).bound.isSome then s.raiseOp u i 0x41 e
    else s.qDone u (u.setQ q.toNat (fun r => { r with bound := some port.toNat })) i e [])

/-- QBIND.off (11 R217). The bound barrier and laststat stay with the queue, of which the spec says nothing. (DESIGN CHOICE, log 46.) -/
def execQbindOff (h : Hdr) (q : Qr) (s : State) : Host.Outcome State Fault Refusal :=
  word (.qbindOff h q) s (fun u e s =>
    let i := Instr.qbindOff h q
    let r := u.qr q.toNat
    if !r.ents.isEmpty || r.resvd != 0 || r.infl != 0 || r.err then s.raiseOp u i 0x41 e
    else s.qDone u (u.setQ q.toNat (fun r => { r with bound := none })) i e [])

/-- QPUSH (11 R218). -/
def execQpush (h : Hdr) (q : Qr) (a : Xr) (nb : Bool) (pd : Pr) (s : State) : Host.Outcome State Fault Refusal :=
  queueWord (.qpush h q a nb pd) s q QReg.isCmd nb pd .room (fun u e s =>
    let v := (u.lane (topLane e u.n)).X a
    ({ s with ids := s.ids + 1 }, u.setQ q.toNat (fun r => { r with ents := r.ents ++ [(v, s.ids)] }), []))

/-- QPOP (11 R218): of a completion word it is an acquire at the command's scope (R236). -/
def execQpop (h : Hdr) (d : Xr) (q : Qr) (nb : Bool) (pd : Pr) (s : State) : Host.Outcome State Fault Refusal :=
  queueWord (.qpop h d q nb pd) s q QReg.isRes nb pd .some_ (fun u e s =>
    let x := (u.qr q.toNat).ents.headD (0, 0)
    let s : State := s.acquireUnit u (scopeOfCode x.2)
    (s, ((s.unit? u.id).getD u).setQ q.toNat (fun r => { r with ents := r.ents.tail }), xAllOf u e d x.1))

/-- QPEEK (11 R218). -/
def execQpeek (h : Hdr) (d : Xr) (q : Qr) (nb : Bool) (pd : Pr) (s : State) : Host.Outcome State Fault Refusal :=
  queueWord (.qpeek h d q nb pd) s q QReg.isRes nb pd .some_ (fun u e s =>
    let x := (u.qr q.toNat).ents.headD (0, 0)
    let s : State := s.acquireUnit u (scopeOfCode x.2)
    (s, (s.unit? u.id).getD u, xAllOf u e d x.1))

/-- QSTAT (11 R219). -/
def execQstat (h : Hdr) (d : Xr) (q : Qr) (s : State) : Host.Outcome State Fault Refusal :=
  word (.qstat h d q) s (fun u e s => s.qDone u u (.qstat h d q) e (xAllOf u e d (u.qr q.toNat).status))

/-- The words of the complete commands at the head of a queue (11 R220); at most eight. -/
def wholeWords : Nat → List (Word × Nat) → List (Word × Nat)
  | 0, _ => []
  | _, [] => []
  | k + 1, x :: r =>
    let n := (x.1.extractLsb' 58 2).toNat + 1
    if n ≤ r.length + 1 then (x :: r).take n ++ wholeWords k ((x :: r).drop n) else []

/-- QDRAIN (11 R220): trailing words that form no complete command are discarded. -/
def execQdrain (h : Hdr) (q : Qr) (s : State) : Host.Outcome State Fault Refusal :=
  word (.qdrain h q) s (fun u e s =>
    let i := Instr.qdrain h q
    let r := u.qr q.toNat
    if r.bound.isNone then s.raiseOp u i 0x42 e
    else if r.holds .drained then
      s.qDone u (u.setQ q.toNat (fun r => if r.isCmd then { r with ents := wholeWords 8 r.ents } else r)) i e []
    else s.qBlock u)

/-- QDRAIN.abort (11 R220): the words not yet accepted are discarded at once. -/
def execQdrainAbort (h : Hdr) (q : Qr) (s : State) : Host.Outcome State Fault Refusal :=
  word (.qdrainAbort h q) s (fun u e s =>
    let i := Instr.qdrainAbort h q
    let r := u.qr q.toNat
    let u' := u.setQ q.toNat (fun r => if r.isCmd then { r with ents := [] } else r)
    if r.bound.isNone then s.raiseOp u i 0x42 e
    else if r.holds .aborted then s.qDone u (u'.setQ q.toNat (fun r => { r with ents := [], err := false })) i e []
    else (s.setUnit u').qBlock u')

/-- QUEUE_RETRY (11 R216): after a change of the queue, or when the interval has passed since the latest test. -/
def execQueueRetry (s : State) : Host.Outcome State Fault Refusal :=
  match s.arg with
  | some (.queueRetry k id) =>
    match s.unit? k with
    | none => .next s
    | some u =>
      match u.wait, u.waitingWord with
      | some w, some i =>
        match qWaitOf i with
        | none => .next s
        | some (q, c) =>
          if w.kind != .queue || w.id != id || !s.testDue u w then .next s
          else if (u.qr q).holds c then .next (s.setUnit u.unblock)
          else if s.waitLimit u.cluster ≤ w.fails then .next ((s.setUnit { u with wait := none }).raiseOp { u with wait := none } i 0x40 (u.exec i.hdr))
          else .next (s.setUnit { u with wait := some { w with fails := w.fails + 1, last := s.now, poked := false } })
      | _, _ => .next s
  | _ => .next s

/-! ### Headers and spaces of commands (11 R223 to R225) -/

def Cmd.head (k : Cmd) : Word := k.words.headD 0
def Cmd.word (k : Cmd) (i : Nat) : Word := k.words.getD i 0
def Cmd.fld (k : Cmd) (lo n : Nat) : Nat := (k.head.extractLsb' lo n).toNat
def Cmd.sc (k : Cmd) : Scope := scopeOfCode (k.fld 55 3)
def Cmd.cw (k : Cmd) : Bool := k.head.getLsbD 54
def Cmd.rq (k : Cmd) : Nat := k.fld 50 4
def Cmd.fe (k : Cmd) : Bool := k.head.getLsbD 49
def Cmd.bd (k : Cmd) : Bool := k.head.getLsbD 48
def Cmd.ss (k : Cmd) : Nat := k.fld 46 2
def Cmd.ds (k : Cmd) : Nat := k.fld 44 2
def Cmd.rt (k : Cmd) : ReqType := if k.head.getLsbD 43 then .uc else .wt

/-- A place that a command names: space 0 memory, 1 scratchpad of a cluster, 3 an operand slot. -/
structure Loc where
  space : Nat
  cl    : Nat
  base  : Nat
deriving DecidableEq, Repr

/-- The key of the byte at an offset from a place: of memory its virtual address, else above 2⁶⁴. -/
def Loc.key (l : Loc) (o : Int) : Nat :=
  (((l.base : Int) + o) % (2 ^ 64 : Nat)).toNat + 2 ^ 64 * (if l.space = 0 then 0 else if l.space = 3 then 200 else 1 + l.cl)

def keyHi (k : Nat) : Nat := k / 2 ^ 64
def keyLo (k : Nat) : Nat := k % 2 ^ 64

/-- The address word of a space (11 Table 11-5); none: it breaks the table. -/
def locOf (space own : Nat) (w : Word) : Option Loc :=
  match space with
  | 0 => if canonical w then some ⟨0, 0, w.toNat⟩ else none
  | 1 => if w.extractLsb' 21 43 = 0 then some ⟨1, own, w.toNat⟩ else none
  | 2 => if w.extractLsb' 32 32 = 0 ∧ w.extractLsb' 21 3 = 0 ∧ (w.extractLsb' 24 8).toNat < 160 then
      some ⟨1, (w.extractLsb' 24 8).toNat, (w.extractLsb' 0 21).toNat⟩ else none
  | _ => none

/-- A run of a command: `len` elements, from an offset of one place to an offset of another; bytes, or elements converted from
`st` to `tt` with the rounding and saturation given. -/
structure Move where
  src  : Loc
  so   : Int
  dst  : Loc
  do_  : Int
  len  : Nat
  conv : Option (Ty × Ty × Rm × Bool)
deriving DecidableEq, Repr

def bytesOf (t : Ty) : Nat := t.bits / 8

/-- Source and destination bytes of a run. -/
def Move.srcLen (m : Move) : Nat := m.len * (match m.conv with | some (st, _, _, _) => bytesOf st | none => 1)
def Move.dstLen (m : Move) : Nat := m.len * (match m.conv with | some (_, tt, _, _) => bytesOf tt | none => 1)

/-- A signed 32-bit field. -/
def sfld (w : Word) (lo : Nat) : Int := sgn (w.extractLsb' lo 32).toNat 32

/-- The slot, region, rows and scale area of TILELD and TILEST (11 R230). -/
def Cmd.slot (k : Cmd) : Nat := k.fld 34 6
def Cmd.regionBase (k : Cmd) : Nat := if k.head.getLsbD 33 && k.head.getLsbD 32 then 8192 else 0
def Cmd.regionSize (k : Cmd) : Nat := if k.head.getLsbD 33 then 8192 else 16384

/-- Rounding codes 1 to 4. -/
def rmOf (c : Nat) : Rm := match c with | 2 => .rtz | 3 => .rdn | 4 => .rup | _ => .rne

def bankOf (l : Loc) (o : Int) : Nat := keyLo (l.key o) / 131072 % 16

/-- A bank's format register as the command sampled it: of the source's cluster, or of the destination's. -/
def Cmd.bankFmt (k : Cmd) (dst : Bool) (b : Nat) : Word := k.fmts.getD ((if dst then 16 else 0) + b) 0x14
def bfTy (w : Word) : Ty := (Ty.of (w.extractLsb' 0 4)).getD .f32
def bfRm (w : Word) : Rm := rmOf (w.extractLsb' 4 3).toNat
/-- The bank's sat acts where the type written is an FP8 one: of a converting TILELD the command's target, not the bank's type, which the spec does
not say. (DESIGN CHOICE, log 46.) -/
def bfSat (w : Word) (t : Ty) : Bool := w.getLsbD 7 && t.isFp8

/-- A copy between scratchpad banks of different types converts (11 R229). -/
def Cmd.copyConv (k : Cmd) (s d : Loc) (so do_ : Int) : Option (Ty × Ty × Rm × Bool) :=
  if s.space = 1 ∧ d.space = 1 then
    let st := bfTy (k.bankFmt false (bankOf s so))
    let df := k.bankFmt true (bankOf d do_)
    if st = bfTy df then none else some (st, bfTy df, bfRm df, bfSat df (bfTy df))
  else none

/-- A run of a copy of n source bytes; none where n is no whole number of elements. -/
def Cmd.copyMove (k : Cmd) (s d : Loc) (so do_ : Int) (n : Nat) : Option Move :=
  match k.copyConv s d so do_ with
  | none => some ⟨s, so, d, do_, n, none⟩
  | some (st, tt, rm, sat) =>
    if n % bytesOf st = 0 then some ⟨s, so, d, do_, n / bytesOf st, some (st, tt, rm, sat)⟩ else none

def esize (c : Nat) : Nat := match c with | 0 => 4 | 1 => 8 | 2 => 64 | _ => 128

/-- The rows of a TILELD, its scales among them (11 R230); none where its shape is refused. -/
def Cmd.tileLoad (k : Cmd) (src scale : Loc) : Option (List Move) :=
  let w := k.word 3
  let rb := (w.extractLsb' 0 16).toNat
  let slot : Loc := ⟨3, 0, 0⟩
  let half := k.head.getLsbD 33
  let sb := k.fld 0 10
  if rb = 0 ∨ k.regionSize % rb ≠ 0 ∨ (if half then 256 else 512) < sb then none
  else
    let rows := k.regionSize / rb
    let stride := sfld w 32
    let scales : Move := ⟨scale, 0, slot, 16384 + (if half && k.head.getLsbD 32 then 256 else 0), sb, none⟩
    if !w.getLsbD 31 then
      if w.extractLsb' 27 4 != 0 then none
      else some ((List.range rows).map (fun r => ⟨src, r * stride, slot, k.regionBase + r * rb, rb, none⟩) ++ [scales])
    else
      let code := (w.extractLsb' 27 4).toNat
      match Ty.of (w.extractLsb' 27 4) with
      | none => none
      | some tt =>
        if src.space ≠ 1 ∨ !(code = 0 ∨ (4 ≤ code ∧ code ≤ 9)) then none
        else
          (List.range rows).foldr (fun (r : Nat) acc => match acc with
            | none => none
            | some l =>
              let f := k.bankFmt false (bankOf src (r * stride))
              let st := bfTy f
              let n := rb * bytesOf st / bytesOf tt
              if rb % bytesOf tt ≠ 0 ∨ (n ≠ 0 ∧ bankOf src (r * stride) ≠ bankOf src (r * stride + (n : Int) - 1)) then none
              else some (⟨src, r * stride, slot, k.regionBase + r * rb, rb / bytesOf tt, some (st, tt, bfRm f, bfSat f tt)⟩ :: l)) (some [scales])

/-- The places of words 1 to 3 that a command reads as addresses. -/
def Cmd.loc (k : Cmd) (i : Nat) (dst : Bool) : Option Loc := locOf (if dst then k.ds else k.ss) k.team.cluster (k.word i)

/-- The runs of a command, once its indices are known (11 R226); none where its shape is refused. -/
def Cmd.moves (k : Cmd) (idx : Nat → Int) : Option (List Move) :=
  let args := k.head
  match k.code with
  | 0 => match k.loc 1 false, k.loc 2 true with
    | some s, some d => (k.copyMove s d 0 0 (args.extractLsb' 0 32).toNat).map (fun m => [m])
    | _, _ => none
  | 1 => match k.loc 1 false, k.loc 2 true with
    | some s, some d =>
      let rb := (args.extractLsb' 20 20).toNat + 1
      let rows := (args.extractLsb' 0 20).toNat + 1
      (List.range rows).foldr (fun (r : Nat) acc => match acc, k.copyMove s d (r * sfld (k.word 3) 32) (r * sfld (k.word 3) 0) rb with
        | some l, some m => some (m :: l)
        | _, _ => none) (some [])
    | _, _ => none
  | 2 => match k.loc 2 false, k.loc 3 true with
    | some s, some d =>
      let z := esize (k.fld 38 2)
      some ((List.range (k.fld 0 24)).map (fun j => ⟨s, idx j * z, d, (j * z : Nat), z, none⟩))
    | _, _ => none
  | 3 => match k.loc 2 false, k.loc 3 true with
    | some s, some d =>
      let z := esize (k.fld 38 2)
      some ((List.range (k.fld 0 24)).map (fun j => ⟨s, (j * z : Nat), d, idx j * z, z, none⟩))
    | _, _ => none
  | 5 => match k.loc 1 false, k.loc 2 true, Ty.of ((k.word 3).extractLsb' 60 4), Ty.of ((k.word 3).extractLsb' 56 4) with
    | some s, some d, some st, some tt =>
      some [⟨s, 0, d, 0, (args.extractLsb' 0 32).toNat, some (st, tt, rmOf ((k.word 3).extractLsb' 53 3).toNat, (k.word 3).getLsbD 52)⟩]
    | _, _, _, _ => none
  | 6 => match k.loc 1 false, k.loc 2 false with
    | some s, some c => k.tileLoad s c
    | _, _ => none
  | 7 => match k.loc 1 true with
    | some d =>
      let rb := ((k.word 2).extractLsb' 0 16).toNat
      if rb = 0 ∨ k.regionSize % rb ≠ 0 then none
      else some ((List.range (k.regionSize / rb)).map (fun (r : Nat) =>
        ⟨⟨3, 0, 0⟩, k.regionBase + r * rb, d, r * sfld (k.word 2) 32, rb, none⟩))
    | none => none
  | _ => some []

/-- Number of further words (11 Table 11-6). -/
def cmdWords (code : Nat) : Nat := [2, 3, 3, 3, 2, 3, 3, 2, 2, 1].getD code 0

/-- The fields that belong to one command (11 Table 11-6, R226, R230 to R232). -/
def Cmd.argsOk (k : Cmd) : Bool :=
  match k.code with
  | 0 => k.fld 32 8 == 0
  | 1 => true
  | 2 | 3 => k.fld 24 13 == 0 && (k.loc 1 false).isSome
  | 4 =>
    let z := if k.head.getLsbD 39 then 8 else 4
    k.ss == 0 && k.fld 32 7 == 0 && k.fld 0 32 % z == 0 && (match k.loc 1 true with
      | some d => d.space != 0 || d.base % z == 0
      | none => false)
  | 5 =>
    let st := Ty.of ((k.word 3).extractLsb' 60 4)
    let tt := Ty.of ((k.word 3).extractLsb' 56 4)
    let rm := ((k.word 3).extractLsb' 53 3).toNat
    k.fld 32 8 == 0 && (k.word 3).extractLsb' 0 52 == 0 && decide (1 ≤ rm) && decide (rm ≤ 4) && (match st, tt with
      | some a, some b => (a == b || !(a.isInt && b.isInt)) && (!(k.word 3).getLsbD 52 || b.isFp8)
      | _, _ => false)
  | 6 => k.fld 10 6 == 0 && (k.word 3).extractLsb' 16 11 == 0
  | 7 => k.fld 0 32 == 0 && (k.word 2).extractLsb' 16 16 == 0
  | 8 => k.ss == 0 && k.fld 0 36 == 0 && decide (k.fld 36 2 < 2) && (match k.loc 1 true with
      | some d => d.base % (if k.head.getLsbD 38 then 8 else 4) == 0
      | none => false)
  | 9 => k.ss == 0 && k.ds == 0 && k.fld 32 6 == 0 && (match k.loc 1 true with | some d => d.base % 16 == 0 | none => false)
  | _ => false

/-- The place to which a command writes. -/
def Cmd.dst (k : Cmd) : Option Loc :=
  match k.code with
  | 0 | 1 | 5 => k.loc 2 true
  | 2 | 3 => k.loc 3 true
  | 4 | 7 | 8 => k.loc 1 true
  | _ => none

/-- With fe, the destination lies in a scratchpad, aligned and a whole number of words long (11 R228). -/
def Cmd.feOk (k : Cmd) (ms : List Move) : Bool :=
  !k.fe || ((match k.dst with | some d => d.space == 1 && d.base % 4 == 0 | none => false) && (k.code != 4 || k.fld 0 32 % 4 == 0) &&
    ms.all (fun m => keyLo (m.dst.key m.do_) % 4 == 0 && m.dstLen % 4 == 0))

/-- The header and the spaces (11 R223, R224). -/
def Cmd.headOk (k : Cmd) : Bool :=
  decide (k.code ≤ 9) && k.fld 58 2 == cmdWords k.code && decide (k.fld 55 3 ≤ 5) && (k.cw || k.rq == 0) && k.fld 40 3 == 0 &&
  (k.ss == 3) == (k.code == 7) && (k.ds == 3) == (k.code == 6)

/-- The indices of GATHER and SCATTER, from the bytes read. -/
def Cmd.byteAt (k : Cmd) (key : Nat) : Byte × Bool := ((k.src.find? (·.1 == key)).map (fun x => x.2)).getD (0, false)
def Cmd.num (k : Cmd) (l : Loc) (o : Int) (n : Nat) : Nat := (List.range n).foldr (fun (i : Nat) acc => acc * 256 + (k.byteAt (l.key (o + i))).1.toNat) 0
def Cmd.idxWidth (k : Cmd) : Nat := if k.head.getLsbD 37 then 8 else 4
def Cmd.idx (k : Cmd) (j : Nat) : Int :=
  match k.loc 1 false with
  | some l => sgn (k.num l (j * k.idxWidth : Nat) k.idxWidth) (8 * k.idxWidth)
  | none => 0

/-! ### Accesses of commands -/

/-- An access of a command (11 R224); `lane` is its channel, and `heirs` names its team. -/
def Cmd.access (k : Cmd) (c : Nat) (kind : AccKind) (va n : Nat) (mask : Mask) : Acc where
  id := 0
  kind := kind
  rt := k.rt
  sc := k.sc
  owner := .cmd c k.id va
  unit := none
  lane := k.ch
  p := 32 * c + k.team.pipe
  w := 1
  asid := k.asid
  super := k.super
  kclass := k.kclass
  ctx := k.ctx
  va := va
  n := n
  mask := mask
  puts := []
  arg := 0
  cmp := 0
  dst := none
  sx := false
  rel := none
  acq := none
  waits := none
  stage := .held
  xl := none
  got := none
  perf := 0
  need := 0
  told := false
  naks := 0
  fault := 0
  shot := false
  ord := 0
  seq := 0
  missed := false
  heirs := [k.team]

def State.modCmd (s : State) (c id : Nat) (f : Cmd → Cmd) : State := s.modCluster c (fun cl => cl.modCmd id f)

/-- The byte lies in an allocation that the command may use (11 R228). -/
def Cmd.mayUse (k : Cmd) (key : Nat) : Bool :=
  k.areas.any (fun x => x.1 + 1 == keyHi key && decide (x.2.1 ≤ keyLo key) && decide (keyLo key < x.2.1 + 4096 * x.2.2))

def State.tile? (s : State) (c slot : Nat) : Option Tile := (s.cluster c).tiles.find? (fun (t : Tile) => t.slot == slot)

/-- A tile's byte by its offset; from 16,384 on, those of its scale area. -/
def Tile.get (t : Tile) (o : Nat) : Byte := if o < 16384 then memGet t.data o else memGet t.scale (o - 16384)
def Tile.set (t : Tile) (o : Nat) (b : Byte) : Tile :=
  if o < 16384 then { t with data := memSet t.data o b } else { t with scale := memSet t.scale (o - 16384) b }

/-- Units of the n bytes from an offset on that have an uncorrectable error. -/
def Tile.badIn (t : Tile) (o n : Nat) : Bool := n != 0 && t.bad.any (fun k => decide (o / 8 ≤ k) && decide (k ≤ (o + n - 1) / 8))

/-- The 64-byte blocks of memory that n bytes from a key on touch. -/
def blocksOf (key n : Nat) : List Nat :=
  if n = 0 ∨ keyHi key ≠ 0 then [] else (List.range ((key % 64 + n + 63) / 64)).map (fun j => (key / 64 + j) % 2 ^ 58)

/-- A computed address that breaks the canonical form ends the command with BADCMD (16 R344). -/
def State.cmdRefuse (s : State) (c : Nat) (k : Cmd) (st : Nat) : State :=
  (s.modCmd c k.id (fun x => { x with status := if x.status = 0 then st else x.status })).cmdNudge c k.id

/-- The class that a kernel's scratchpad and slots count as (11 R233). -/
def Cmd.ownClass (k : Cmd) : RClass := match k.kclass.toNat with | 0 => .full | 1 => .detect | _ => .none

/-- A command reads runs of bytes: those of scratchpads and slots at once, those of memory by blocks of 64 bytes. -/
def State.cmdRead (s : State) (c : Nat) (k : Cmd) (rs : List (Nat × Nat)) : State :=
  let here := (rs.filter (fun r => keyHi r.1 != 0)).flatMap (fun r => (List.range r.2).map (r.1 + ·))
  if here.any (fun b => keyHi b != 200 && !k.mayUse b) then s.cmdRefuse c k 3
  else
    let got := here.map (fun b =>
      if keyHi b = 200 then
        (match s.tile? c k.slot with | some t => (b, t.get (keyLo b), t.badIn (keyLo b) 1) | none => (b, 0, false))
      else
        let cl := s.cluster (keyHi b - 1)
        (b, memGet cl.spad (keyLo b), cl.spadBad.contains (keyLo b / 4)))
    let bad := ((got.filter (fun g => g.2.2)).map (fun g => g.1 / 64)).eraseDups
    let got := if bad.isEmpty then got else got.map (fun g => (g.1, g.2.1, bad.contains (g.1 / 64)))
    let blocks := (rs.flatMap (fun r => blocksOf r.1 r.2)).eraseDups
    let s : State := s.modCmd c k.id (fun x => { x with
      src := x.src ++ got, pois := x.pois ++ bad, scls := if here.isEmpty then x.scls else x.scls ++ [k.ownClass] })
    if blocks.any (fun b => !canonical (BitVec.ofNat 64 (64 * b))) then s.cmdRefuse c k 1
    else if blocks.isEmpty then s.cmdNudge c k.id
    else s.addAccs (blocks.map (fun b => k.access c .load (64 * b) 64 (datumMask (64 * b % 128) 64)))

/-- The bytes that a run lands. -/
def Move.bytes (m : Move) (k : Cmd) : List (Nat × Byte × Bool) :=
  match m.conv with
  | none => (List.range m.len).map (fun (i : Nat) => (m.dst.key (m.do_ + i), k.byteAt (m.src.key (m.so + i))))
  | some (st, tt, rm, sat) =>
    (List.range m.len).flatMap (fun j =>
      let o := m.so + (j * bytesOf st : Nat)
      let v := k.num m.src o (bytesOf st)
      let bad := (List.range (bytesOf st)).any (fun i => (k.byteAt (m.src.key (o + i))).2)
      let r := if st = tt then v else (Ty.write tt false rm sat false 0 (Ty.read st false false v)).1
      (List.range (bytesOf tt)).map (fun (i : Nat) => (m.dst.key (m.do_ + (j * bytesOf tt + i : Nat)), BitVec.ofNat 8 (r / 2 ^ (8 * i)), bad)))

/-- The bytes of FILL. -/
def Cmd.fillBytes (k : Cmd) : List (Nat × Byte × Bool) :=
  match k.loc 1 true with
  | none => []
  | some d =>
    let z := if k.head.getLsbD 39 then 8 else 4
    (List.range (k.fld 0 32)).map (fun (i : Nat) => (d.key (i : Int), BitVec.ofNat 8 ((k.word 2).toNat / 2 ^ (8 * (i % z))), false))

/-- Writes of a list of bytes to words of their frame: the later one stands. -/
def putsOfBytes (l : List (Nat × Byte × Bool)) (bad : Bool) : List Put :=
  l.foldl (fun ps (b : Nat × Byte × Bool) =>
    let w := b.1 % 128 / 4
    let o := b.1 % 4
    let old := (ps.find? (fun (p : Put) => p.w == w)).getD ⟨w, 0, 0, bad⟩
    let m : W32 := BitVec.ofNat 32 (0xFF * 2 ^ (8 * o))
    { old with v := (old.v &&& ~~~m) ||| BitVec.ofNat 32 (b.2.1.toNat * 2 ^ (8 * o)), be := old.be ||| BitVec.ofNat 4 (2 ^ o) } ::
      ps.filter (fun (p : Put) => p.w != w)) []

/-- Bytes land in the scratchpad of a cluster; with fe, each word as an STSX (11 R228). A block of 64 bytes that takes a byte derived from a
poisoned one becomes uncorrectable as a whole (15 R329). -/
def State.landSpad (s : State) (c : Nat) (l : List (Nat × Byte × Bool)) (fe : Bool) : State :=
  let ws := (l.map (fun b => keyLo b.1 / 4)).eraseDups
  let bad := ((l.filter (fun b => b.2.2)).map (fun b => keyLo b.1 / 64)).eraseDups
  let cl := s.cluster c
  let cl := { cl with spad := l.foldl (fun m b => memSet m (keyLo b.1) b.2.1) cl.spad,
                      spadBad := (bad.flatMap (fun k => (List.range 16).map (16 * k + ·))).foldl (fun x w => insertNat w x) (cl.spadBad.filter (fun w =>
                        !((List.range 4).all (fun i => l.any (fun b => keyLo b.1 == 4 * w + i))))) }
  let (cl, ch) := if fe then cl.setBits ws true else (cl, [])
  (s.modCluster c (fun _ => cl)).feWake c ch

/-- Bytes land in a slot; a unit of which every byte is written has its error replaced. -/
def Tile.land (t : Tile) (l : List (Nat × Byte × Bool)) : Tile :=
  let bad := t.bad.filter (fun k => !(List.range 8).all (fun i => l.any (fun b => keyLo b.1 == 8 * k + i)))
  { l.foldl (fun t b => t.set (keyLo b.1) b.2.1) t with bad := bad }

/-- A command writes its bytes (11 R233, R228). A byte of memory that it writes twice counts once among those landed, one of a scratchpad or
a slot each time, which the spec leaves open. (DESIGN CHOICE, log 46.) -/
def State.cmdWrite (s : State) (c : Nat) (k : Cmd) (l : List (Nat × Byte × Bool)) : State :=
  let sp := l.filter (fun b => keyHi b.1 != 0 && keyHi b.1 != 200)
  if sp.any (fun b => !k.mayUse b.1) then s.cmdRefuse c k 3
  else
    let s : State := ((sp.map (fun b => keyHi b.1 - 1)).eraseDups).foldl (fun s cl => s.landSpad cl (sp.filter (fun b => keyHi b.1 == cl + 1)) k.fe) s
    let sl := l.filter (fun b => keyHi b.1 == 200)
    let s : State := if sl.isEmpty then s else s.modCluster c (fun cl => { cl with tiles := cl.tiles.map (fun (t : Tile) =>
      if t.slot == k.slot then t.land sl else t) })
    let mem := l.filter (fun b => keyHi b.1 == 0)
    let blocks := (mem.map (fun b => b.1 / 64)).eraseDups
    let s : State := s.modCmd c k.id (fun x => { x with landed := x.landed + sp.length + sl.length })
    if blocks.any (fun b => !canonical (BitVec.ofNat 64 (64 * b))) then s.cmdRefuse c k 1
    else if blocks.isEmpty then s.cmdNudge c k.id
    else s.addAccs (blocks.map (fun b =>
      let mine := mem.filter (fun x => x.1 / 64 == b)
      let ps := putsOfBytes mine (mine.any (fun x => x.2.2))
      { k.access c .store (64 * b) 64 (putMask ps) with puts := ps, need := rank k.sc + 1, cmp := (mine.map (·.1)).eraseDups.length }))

/-! ### The end of a command (11 R236, R237) -/

/-- The completion word (11 Table 11-7). -/
def Cmd.completion (k : Cmd) : Word :=
  BitVec.ofNat 64 (k.status % 16 * 2 ^ 60 + k.code % 16 * 2 ^ 56 + k.ch % 4 * 2 ^ 54 + k.landed % 2 ^ 40)

/-- The next command of a channel begins, in its channel's turn, once the one before it has ended (11 R222). (DEDUCED, log 27.) -/
def State.nextCmd (s : State) (c ch : Nat) : State :=
  match ((s.cluster c).chans[ch]?).bind (·.cmds.head?) with
  | some x => s.at_ s.now (cmdEv x.code c x.id)
  | none => s

/-- The command ends. (DEDUCED, log 27.) -/
def State.cmdEnd (s : State) (c : Nat) (k : Cmd) : State :=
  let first := (((s.cluster c).chans[k.ch]?).bind (·.cmds.head?)).any (fun x => x.id == k.id)
  let s : State := s.modCluster c (fun cl => { cl with
    chans := cl.chans.map (fun (ch : Chan) => { ch with cmds := ch.cmds.filter (fun (x : Cmd) => x.id != k.id) }),
    tiles := cl.tiles.map (fun (t : Tile) =>
      if (k.code == 6 || k.code == 7) && k.stage != 0 && t.slot == k.slot && t.owner == k.team then
        (if k.code == 6 && k.status == 0 then { t with busy := false, tag := k.fld 16 16, tagOk := true } else { t with busy := false }) else t) })
  let s : State := s.touch k.team (fun u =>
    let u := u.setQ k.q (fun r => { r with infl := r.infl - 1, err := r.err || k.status != 0, last := if k.status != 0 then k.status else r.last })
    let keep := !u.exiting && u.split.isNone
    if k.resv then
      u.setQ k.rq (fun r => { r with resvd := r.resvd - 1, ents := if keep then r.ents ++ [(k.completion, rank k.sc)] else r.ents })
    else u)
  let s : State := if first then s.nextCmd c k.ch else s
  let s : State := s.qWake k.team k.q
  let s : State := if k.resv then s.qWake k.team k.rq else s
  let s : State := k.pois.eraseDups.foldl (fun s _ => s.at_ s.now (.errorCharge k.ctx (some k.team) 0 0 0 true 0)) s
  if k.status = 0 then s
  else match s.unit? k.team with
    | some u => s.notify u 0x44 k.head (BitVec.ofNat 64 (k.status % 16 + k.q % 16 * 2 ^ 4 + k.ch % 4 * 2 ^ 8))
    | none => s

/-- The command has failed before it performed an access. -/
def State.cmdBad (s : State) (c : Nat) (k : Cmd) (st : Nat) : State := s.cmdEnd c { k with status := st }

/-- The decrement of the bound barrier by the bytes landed (11 R232). -/
def State.cmdDec (s : State) (c : Nat) (k : Cmd) (n : Nat) : State :=
  match ((s.unit? k.team).map (fun u => u.qr k.q)).bind (·.bar) with
  | some b => (s.modCmd c k.id (fun x => { x with stage := 4 })).addAccs
      [{ k.access c (.bar .dec) b.toNat 16 (datumMask (b.toNat % 128) 16) with arg := n, need := rank k.sc + 1 }]
  | none => s.cmdEnd c k

/-- What follows the last byte: the decrement, or the end. -/
def State.cmdTail (s : State) (c : Nat) (k : Cmd) : State :=
  if k.bd && k.landed != 0 then s.cmdDec c k k.landed else s.cmdEnd c k

/-- The slot of a TILELD or TILEST: no claim of the team's, or not free for it yet, or free (11 R230, 12 R244). -/
def State.slotTurn (s : State) (c : Nat) (k : Cmd) : Option Bool :=
  match s.tile? c k.slot with
  | none => none
  | some t =>
    if t.owner != k.team then none
    else
      let before := ((s.cluster c).chans.flatMap (·.cmds)).any (fun (x : Cmd) =>
        (x.code == 6 || x.code == 7) && x.slot == k.slot && x.stage == 0 && decide (x.id < k.id))
      some (!t.busy && t.inUse == 0 && !before)

/-- A command that moves bytes begins: its form is checked and its sources are read (11 R223 to R230). (DEDUCED, log 27.) -/
def State.cmdBegin (s : State) (c : Nat) (k : Cmd) : State :=
  let own := k.team.cluster
  let at_ := fun (l : Option Loc) => match l with | some l => if l.space = 1 then l.cl else own | none => own
  let (sl, dl) := match k.code with
    | 2 | 3 => (at_ (k.loc 2 false), at_ (k.loc 3 true))
    | _ => (at_ (k.loc 1 false), at_ (k.loc 2 true))
  let k := { k with fmts := (s.cluster sl).bf.toList ++ (s.cluster dl).bf.toList }
  let bar := ((s.unit? k.team).map (fun u => u.qr k.q)).bind (·.bar)
  if !k.headOk || !k.argsOk then s.cmdBad c k 1
  else match k.moves (fun _ => 0) with
    | none => s.cmdBad c k 1
    | some ms =>
      if !k.feOk ms then s.cmdBad c k 1
      else if k.bd && bar.isNone then s.cmdBad c k 8
      else
        let tile := k.code == 6 || k.code == 7
        match (if tile then s.slotTurn c k else some true) with
        | none => s.cmdBad c k 7
        | some false => s.at_ (s.now + 1) (cmdEv k.code c k.id)
        | some true =>
          let s : State := if tile then s.modCluster c (fun cl => { cl with tiles := cl.tiles.map (fun (t : Tile) =>
              if t.slot == k.slot then { t with busy := true, tagOk := t.tagOk && k.code != 6 } else t) }) else s
          let indexed := k.code == 2 || k.code == 3
          let s : State := s.modCmd c k.id (fun _ => { k with stage := if indexed then 1 else 2 })
          if indexed then
            match k.loc 1 false with
            | some l => s.cmdRead c k [(l.key 0, k.fld 0 24 * k.idxWidth)]
            | none => s
          else s.cmdRead c k (ms.map (fun m => (m.src.key m.so, m.srcLen)))

/-- The command that its channel works on, once none of its accesses is under way (11 R222). -/
def State.cmdNow (s : State) (c id : Nat) : Option Cmd :=
  match (s.cluster c).cmd? id with
  | none => none
  | some k =>
    let turn := (((s.cluster c).chans[k.ch]?).bind (·.cmds.head?)).any (fun x => x.id == id)
    if !turn || s.accs.any (fun (a : Acc) => match a.owner with | .cmd c' id' _ => c' == c && id' == id && !a.complete | _ => false) then none
    else some k

/-- The next stage of a command that moves bytes. The indices of GATHER and SCATTER are no source of theirs (11 R233). -/
def State.cmdStep (s : State) (c id : Nat) : State :=
    match s.cmdNow c id with
    | none => s
    | some k =>
      match k.stage with
      | 0 => s.cmdBegin c k
      | 1 =>
        if k.status != 0 then s.cmdEnd c k
        else
          let ms := (k.moves k.idx).getD []
          let s : State := s.modCmd c id (fun x => { x with stage := 2, scls := [] })
          s.cmdRead c k (ms.map (fun m => (m.src.key m.so, m.srcLen)))
      | 2 =>
        if k.status != 0 then s.cmdEnd c k
        else if !k.pois.isEmpty && k.code != 5 then s.cmdEnd c { k with status := 6 }
        else
          let l := if k.code == 4 then k.fillBytes else ((k.moves k.idx).getD []).flatMap (fun m => m.bytes k)
          (s.modCmd c id (fun x => { x with stage := 3 })).cmdWrite c k l
      | 3 => s.cmdTail c k
      | _ => s.cmdEnd c k

/-- COPY (11 R226, R229). -/
def execCopy (s : State) : Host.Outcome State Fault Refusal :=
  match s.arg with
  | some (.copy c id) => .next (s.cmdStep c id)
  | _ => .next s
/-- COPY2D. -/
def execCopy2d (s : State) : Host.Outcome State Fault Refusal :=
  match s.arg with
  | some (.copy2d c id) => .next (s.cmdStep c id)
  | _ => .next s
/-- GATHER. -/
def execGather (s : State) : Host.Outcome State Fault Refusal :=
  match s.arg with
  | some (.gather c id) => .next (s.cmdStep c id)
  | _ => .next s
/-- SCATTER. -/
def execScatter (s : State) : Host.Outcome State Fault Refusal :=
  match s.arg with
  | some (.scatter c id) => .next (s.cmdStep c id)
  | _ => .next s
/-- FILL. -/
def execFill (s : State) : Host.Outcome State Fault Refusal :=
  match s.arg with
  | some (.fill c id) => .next (s.cmdStep c id)
  | _ => .next s
/-- CONVERT. -/
def execConvert (s : State) : Host.Outcome State Fault Refusal :=
  match s.arg with
  | some (.convert c id) => .next (s.cmdStep c id)
  | _ => .next s
/-- TILELD (11 R230). -/
def execTileld (s : State) : Host.Outcome State Fault Refusal :=
  match s.arg with
  | some (.tileld c id) => .next (s.cmdStep c id)
  | _ => .next s
/-- TILEST (11 R230). -/
def execTilest (s : State) : Host.Outcome State Fault Refusal :=
  match s.arg with
  | some (.tilest c id) => .next (s.cmdStep c id)
  | _ => .next s

/-- Commands that a FLAGSET follows: accepted earlier by its channel, and with al by any channel from its team (11 R231). -/
def Cmd.follows (k : Cmd) (ch : Nat) (team : List UKey) (id : Nat) : Bool :=
  decide (id < k.id) && (ch == k.ch || (k.head.getLsbD 39 && team.contains k.team))

/-- Accesses of the commands that a FLAGSET follows which are not performed at its scope (11 R231, 14 R311). -/
def State.flagWaits (s : State) (c : Nat) (k : Cmd) : List Nat :=
  (s.accs.filter (fun (a : Acc) => decide (a.perf ≤ rank k.sc) && (match a.owner with
    | .cmd c' id' _ => c' == c && k.follows a.lane a.heirs id'
    | _ => false))).map (·.id)

/-- FLAGSET (11 R231): it waits for what it follows, then stores or adds, as a release at its scope. With bd it needs a bound barrier, which its own
flag does not decrement; the spec does not say whether it would. (DESIGN CHOICE, log 46.) (DEDUCED, log 27.) -/
def State.flagStep (s : State) (c id : Nat) : State :=
  match s.cmdNow c id with
  | none => s
  | some k =>
    if k.stage != 0 then s.cmdEnd c { k with landed := 0 }
    else if !k.headOk || !k.argsOk || !k.feOk [] then s.cmdBad c k 1
    else if k.bd && (((s.unit? k.team).map (fun u => u.qr k.q)).bind (·.bar)).isNone then s.cmdBad c k 8
    else if ((s.cluster c).chans.flatMap (·.cmds)).any (fun (x : Cmd) => k.follows x.ch [x.team] x.id) then s.at_ (s.now + 1) (.flagset c id)
    else
      match k.loc 1 true with
      | none => s.cmdBad c k 1
      | some d =>
        let n := if k.head.getLsbD 38 then 8 else 4
        let add := k.fld 36 2 == 1
        let v := (k.word 2).toNat % 2 ^ (8 * n)
        let w := s.flagWaits c k
        if d.space = 1 then
          if !((List.range n).all (fun i => k.mayUse (d.key i))) then s.cmdBad c { k with stage := 3 } 3
          else if !w.isEmpty then s.at_ (s.now + 1) (.flagset c id)
          else
            let old := memRead (s.cluster d.cl).spad d.base n
            let (cl, ch) := ((s.cluster d.cl).spWrite d.base n (if add then old + v else v) false).setBits (if k.fe then spWords d.base n else []) true
            ((s.modCluster d.cl (fun _ => cl)).feWake d.cl ch).cmdEnd c { k with stage := 3 }
        else
          let a := if add then { k.access c (.amo .add) d.base n (datumMask (d.base % 128) n) with arg := v }
            else
              let ps := putsOf (d.base % 128) n v
              { k.access c .store d.base n (putMask ps) with puts := ps }
          (s.modCmd c id (fun x => { x with stage := 3 })).addAccs [{ a with need := rank k.sc + 1, rel := some k.sc, waits := some w }]

/-- FLAGSET. -/
def execFlagset (s : State) : Host.Outcome State Fault Refusal :=
  match s.arg with
  | some (.flagset c id) => .next (s.flagStep c id)
  | _ => .next s

/-- BARDEC (11 R232): it binds first, then decrements. -/
def State.barStepCmd (s : State) (c id : Nat) : State :=
  match s.cmdNow c id with
  | none => s
  | some k =>
    if k.stage != 0 then s.cmdEnd c { k with landed := 0 }
    else if !k.headOk || !k.argsOk || !k.feOk [] then s.cmdBad c k 1
    else
      let bind := k.head.getLsbD 39
      let dec := k.head.getLsbD 38
      let s : State := if bind then s.modUnit k.team (fun u => u.setQ k.q (fun r => { r with bar := some (k.word 1) })) else s
      let bound := (((s.unit? k.team).map (fun u => u.qr k.q)).bind (·.bar)).isSome
      if (dec || k.bd) && !bound then s.cmdBad c k 8
      else if dec then s.cmdDec c k (k.fld 0 32)
      else s.cmdEnd c k

/-- BARDEC. -/
def execBardec (s : State) : Host.Outcome State Fault Refusal :=
  match s.arg with
  | some (.bardec c id) => .next (s.barStepCmd c id)
  | _ => .next s

/-! ### Acceptance (11 R222) -/

/-- The queue's head command can be accepted but for the accesses of R235. -/
def HwUnit.offers (u : HwUnit) (q ch : Nat) : Option (List (Word × Nat)) :=
  let r := u.qr q
  if r.bound != some ch || r.err then none
  else match r.head? with
    | none => none
    | some ws =>
      let h := (ws.headD (0, 0)).1
      let rq := u.qr (h.extractLsb' 50 4).toNat
      if h.getLsbD 54 && rq.isRes && 8 ≤ rq.ents.length + rq.resvd then none else some ws

/-- The queues that a channel may serve, from the one after the queue it served last; at first from the lowest, which the spec does not say.
(DESIGN CHOICE, log 7.) -/
def State.offersOf (s : State) (c ch : Nat) : List (HwUnit × Nat × List (Word × Nat)) :=
  let last := match (s.cluster c).chans[ch]? with | some x => x.last | none => none
  let all := (List.range 8).flatMap (fun b => (List.range 8).flatMap (fun sl => (List.range 16).flatMap (fun q =>
    match s.at? c (4 * b) sl true with
    | some u => (u.offers q ch).toList.map (fun ws => (u, q, ws))
    | none => [])))
  match last with
  | none => all
  | some (b, sl, q) =>
    let later := fun (x : HwUnit × Nat × List (Word × Nat)) => decide ((b * 8 + sl) * 16 + q < (x.1.pipe * 8 + x.1.slot) * 16 + x.2.1)
    all.filter later ++ all.filter (fun x => !later x)

/-- The accesses that precede a push are performed at a scope, dirty words of the issuer's L1s written through (11 R235). -/
def State.pushRelease (s : State) (u : HwUnit) (stamp : Nat) (sc : Scope) : Bool × State :=
  let (_, s) := s.flushL1s (some u.id) 0 u.super u.l1s
  (!s.accs.any (fun b => decide (b.perf ≤ rank sc) &&
    ((b.unit == some u.id && b.kind != .pref && decide (b.id < stamp)) || (b.kind == .through && u.l1s.contains b.p))), s)

/-- The first queue whose issuer's accesses are performed. -/
def State.firstReady (s : State) : List (HwUnit × Nat × List (Word × Nat)) → Option (HwUnit × Nat × List (Word × Nat)) × State
  | [] => (none, s)
  | x :: r =>
    let h := (x.2.2.headD (0, 0)).1
    let (ok, s) := s.pushRelease x.1 (x.2.2.getLastD (0, 0)).2 (scopeOfCode (h.extractLsb' 55 3).toNat)
    if ok then (some x, s) else s.firstReady r

/-- The allocations that a command of a unit may use. -/
def State.areasOf (s : State) (u : HwUnit) : List (Nat × Nat × Nat) :=
  (List.range 160).flatMap (fun k => ((s.cluster k).allocs.filter (fun (a : Alloc) => a.live && (u.super || a.asid == u.asid))).map
    (fun (a : Alloc) => (k, a.base, a.units)))

/-- CHANNEL_ACCEPT: a channel accepts a command, behind those that it has accepted and not ended (11 R222). (DEDUCED, log 27.) -/
def execChannelAccept (s : State) : Host.Outcome State Fault Refusal :=
  match s.arg with
  | some (.channelAccept c ch) =>
    match (s.cluster c).chans[ch]? with
    | none => .next s
    | some x =>
      match s.firstReady (s.offersOf c ch) with
      | (none, s) => .next s
      | (some (u, q, ws), s) =>
        let h := (ws.headD (0, 0)).1
        let rq := (h.extractLsb' 50 4).toNat
        let cw := h.getLsbD 54
        let resv := cw && (u.qr rq).isRes
        let id := s.ids
        let k : Cmd := { id := id, ch := ch, team := u.id, q := q, words := ws.map (·.1), asid := u.asid, super := u.super, kclass := u.kclass,
                         ctx := u.ctx, resv := resv, areas := s.areasOf u, fmts := [], src := [], scls := [], pois := [], status := 0,
                         landed := 0, stage := 0 }
        let taint := u.idem.isSome && decide (2 ≤ rank k.sc)
        let s : State := ({ s with ids := id + 1 } : State).modUnit u.id (fun (u : HwUnit) =>
          let u := u.setQ q (fun r => { r with ents := r.ents.drop ws.length, infl := r.infl + 1 })
          let u := if resv then u.setQ rq (fun r => { r with resvd := r.resvd + 1 }) else u
          { u with taint := u.taint || taint })
        let s : State := s.modCluster c (fun cl => { cl with chans := cl.chans.mapIdx (fun j (y : Chan) =>
          if j == ch then { y with last := some (u.pipe, u.slot, q), cmds := y.cmds ++ [k] } else y) })
        let s : State := s.qWake u.id q
        if cw && !resv then .next (s.cmdBad c k 1)
        else .next (if x.cmds.isEmpty then s.nextCmd c ch else s)
  | _ => .next s

/-- Channels that may accept a command in this cycle, in ascending order (11 R230). -/
def acceptSteps (s : State) : List Ev :=
  let us := s.units.filter (fun u => u.team && u.resident && u.q.toList.any (fun r => r.isCmd && !r.ents.isEmpty))
  (us.map (·.cluster)).eraseDups.flatMap (fun c =>
    ((List.range 4).filter (fun ch => us.any (fun u => u.cluster == c && (List.range 16).any (fun q => (u.offers q ch).isSome)))).map
      (Ev.channelAccept c))

end Sys2Proof.Machine
end

