-- ==== Sys2Proof/Machine/Matrix.lean ====
section
/-! DEFINITION. Matrix.lean: operand memory, the matrix engines, gangs and the issue-budget governor (12 R239 to R263, 04 R77 to
R79). -/

namespace Sys2Proof.Machine

/-! ### Arithmetic (04 R77 to R79) -/

/-- The reduction length and element size of a pair of operand types (12 Table 12-2). -/
def mmaK (fa fb : Ty) : Nat := if fa == .ts8 || fb == .ts8 then 256 else if fa.bits == 16 then 64 else 128

/-- The exact sum of a group of 32 products. -/
def groupSum (fa fb : Ty) (a b : Nat → Nat) (g : Nat) : FVal :=
  let p := fun k => (fMul (fa.read false false (a (32 * g + k))) (fb.read false false (b (32 * g + k)))).1
  (List.range 31).foldl (fun s k => (fAdd false s (p (k + 1))).1) (p 0)

/-- A group sum under its two E8M0 scales; 0xFF is NaN (04 R67). -/
def scaled (s : FVal) (ea eb : Nat) : FVal :=
  if ea = 0xFF ∨ eb = 0xFF then .nan
  else match s with
    | .fin n m e more => .fin n m (e + (ea : Int) + (eb : Int) - 254) more
    | v => v

/-- One element of C in FP32: groups in ascending k. -/
def mmaFloat (fa fb : Ty) (a b : Nat → Nat) (sc : Option ((Nat → Nat) × (Nat → Nat))) (c : Nat) : Nat :=
  let f := Ty.f32.fmt
  (List.range (mmaK fa fb / 32)).foldl (fun c g =>
    let s := groupSum fa fb a b g
    let s := match sc with | some (ea, eb) => scaled s (ea g) (eb g) | none => s
    let gv := (f.round .rne false false 0 s).1
    (f.round .rne false false 0 (fAdd false (f.widen c) (f.widen gv)).1).1) c

/-- One element of C in INT32. -/
def mmaInt (sat : Bool) (a b : Nat → Nat) (c : Nat) : Nat :=
  (List.range 4).foldl (fun c g =>
    let s : Int := ((List.range 32).map (fun k => sgn (a (32 * g + k)) 8 * sgn (b (32 * g + k)) 8)).foldl (· + ·) 0
    let v := sgn c 32 + s
    let v := if sat then (if v < -2147483648 then -2147483648 else if 2147483647 < v then 2147483647 else v) else v
    slice v 32) c

/-- C + A × B, from the operands' tiles and the offsets of their regions; with scales where `sc` (12 Table 12-3). -/
def mmaTile (fa fb : Ty) (sat sc : Bool) (ta : Tile) (oa : Nat) (tb : Tile) (ob : Nat) (c : List Host.Cell) : List Host.Cell :=
  let k := mmaK fa fb
  let z := fa.bits / 8
  (List.range 4096).foldl (fun m e =>
    let i := e / 64
    let j := e % 64
    let a := fun q => memRead ta.data (oa + (i * k + q) * z) z
    let b := fun q => memRead tb.data (ob + (j * k + q) * z) z
    let old := memRead c (4 * e) 4
    let ea := fun g => memRead ta.scale (oa / 32 + i * (k / 32) + g) 1
    let eb := fun g => memRead tb.scale (ob / 32 + j * (k / 32) + g) 1
    let v := if fa.isInt then mmaInt sat a b old else mmaFloat fa fb a b (if sc then some (ea, eb) else none) old
    memWrite m (4 * e) 4 v) c

/-! ### Slots -/

def halfBase : Half → Nat
  | .hi => 8192
  | _ => 0
def halfSize : Half → Nat
  | .whole => 16384
  | _ => 8192

def State.modTile (s : State) (c slot : Nat) (f : Tile → Tile) : State :=
  s.modCluster c (fun cl => { cl with tiles := cl.tiles.map (fun (t : Tile) => if t.slot == slot then f t else t) })

/-- A slot that the team holds. -/
def State.holds (s : State) (u : HwUnit) (slot : Nat) : Bool :=
  match s.tile? u.cluster slot with | some t => t.owner == u.id | none => false

/-- A fault of this chapter parks the team, splittable or not (12 R249). -/
def State.parkOp (s : State) (u : HwUnit) (i : Instr) (cause : Nat) (e : LaneSet) (d24 d25 : Word) : State :=
  let lane := (lanesOf e u.n).headD 0
  (s.passWord u.id).halt u.id ⟨cause, lane, u.pc, u.widx, 0, u.srcs i lane, d24, d25⟩ e false

/-- The slots that a matrix word names: those it reads, and the one it writes. In a gang, a member that is not the leader reads no
slot a (12 R257). -/
def matrixSlots (u : HwUnit) : Instr → List Nat
  | .tzero _ td _ => [td.toNat]
  | .tmov _ td ta _ _ => [ta.toNat, td.toNat]
  | .tmovt _ td ta _ _ => [ta.toNat, td.toNat]
  | .tcvt _ _ _ _ _ td ta _ _ => [ta.toNat, td.toNat]
  | .mma _ _ _ td ta tb _ _ _ => [ta.toNat, tb.toNat, td.toNat]
  | .mmas _ _ _ td ta tb _ _ _ => [ta.toNat, tb.toNat, td.toNat]
  | .tjoin _ _ _ td ta tb _ _ _ => if u.gang.extractLsb' 54 3 = 0 then [ta.toNat, tb.toNat, td.toNat] else [tb.toNat, td.toNat]
  | .tjoins _ _ _ td ta tb _ _ _ => if u.gang.extractLsb' 54 3 = 0 then [ta.toNat, tb.toNat, td.toNat] else [tb.toNat, td.toNat]
  | _ => []

def matrixDst : Instr → Option Nat
  | .tzero _ td _ => some td.toNat
  | .tmov _ td _ _ _ => some td.toNat
  | .tmovt _ td _ _ _ => some td.toNat
  | .tcvt _ _ _ _ _ td _ _ _ => some td.toNat
  | .mma _ _ _ td _ _ _ _ _ => some td.toNat
  | .mmas _ _ _ td _ _ _ _ _ => some td.toNat
  | .tjoin _ _ _ td _ _ _ _ _ => some td.toNat
  | .tjoins _ _ _ td _ _ _ _ _ => some td.toNat
  | _ => none

/-- The destination names a source (cause 0x49): not of TZERO, TMOV and TMOVT. -/
def matrixClash (u : HwUnit) (i : Instr) : Bool :=
  match i with
  | .tzero .. | .tmov .. | .tmovt .. => false
  | _ => match matrixDst i with
    | some d => 1 < ((matrixSlots u i).filter (· == d)).length
    | none => false

/-- Operand slots and the register of expected tags of MMAS and TJOINS (12 R254): `a` is looked at by the leader of a gang alone. -/
def tagCheck (u : HwUnit) : Instr → Option (Option Nat × Nat × Xr)
  | .mmas _ _ _ _ ta tb _ _ c => some (some ta.toNat, tb.toNat, c)
  | .tjoins _ _ _ _ ta tb _ _ c => some (if u.gang.extractLsb' 54 3 = 0 then some ta.toNat else none, tb.toNat, c)
  | _ => none

/-- A slot's tag as dw25 of a fault record shows it. -/
def State.tagOf (s : State) (c slot : Nat) : Nat × Bool := match s.tile? c slot with | some t => (t.tag, t.tagOk) | none => (0, false)

/-- The tags found, where they are not those expected. -/
def State.tagFault (s : State) (u : HwUnit) (i : Instr) (e : LaneSet) : Option (Word × Word) :=
  match tagCheck u i with
  | none => none
  | some (a, b, c) =>
    let x := (u.lane (topLane e u.n)).X c
    let (ga, va) := match a with | some a => s.tagOf u.cluster a | none => (0, false)
    let (gb, vb) := s.tagOf u.cluster b
    let okA := a.isNone || (va && ga == (x.extractLsb' 0 16).toNat)
    let okB := vb && gb == (x.extractLsb' 16 16).toNat
    if okA && okB then none
    else some (x &&& 0xFFFFFFFF, BitVec.ofNat 64 (ga % 2 ^ 16 + gb % 2 ^ 16 * 2 ^ 16 + (if va then 2 ^ 32 else 0) + (if vb then 2 ^ 33 else 0)))

/-- The register operands of MMAS and TJOINS: X(c)[63:32] is zero (12 R254). -/
def tagRegOk (u : HwUnit) (i : Instr) (e : LaneSet) : Bool :=
  match tagCheck u i with
  | some (_, _, c) => ((u.lane (topLane e u.n)).X c).extractLsb' 32 32 == 0
  | none => true

def State.engineFull (s : State) (u : HwUnit) : Bool :=
  match s.harness? u.cluster u.pipe with | some h => decide (4 ≤ h.engine.length) | none => false

/-- A matrix word that waits on a busy slot or a full queue may go on (12 R249). -/
def State.engineClear (s : State) (u : HwUnit) (i : Instr) : Bool :=
  !(matrixSlots u i).any (fun n => match s.tile? u.cluster n with | some t => t.busy | none => false) && !s.engineFull u

/-- Raises the in-use count of slots (12 R244). -/
def State.useSlots (s : State) (c : Nat) (l : List Nat) : State :=
  l.eraseDups.foldl (fun s n => s.modTile c n (fun t => { t with inUse := t.inUse + 1 })) s
/-- Lowers in-use counts that a word has raised. -/
def State.freeSlots (s : State) (l : List (Nat × Nat)) : State :=
  l.foldl (fun s q => s.modTile q.1 q.2 (fun t => { t with inUse := t.inUse - 1 })) s
/-- The in-use counts that a word of a team raises on its slots. -/
def usesOf (u : HwUnit) (l : List Nat) : List (Nat × Nat) := l.eraseDups.map (fun n => (u.cluster, n))

/-- The word enters the engine queue of its harness; the slot it writes loses its tag, but for TMOVT (12 R247, R248). -/
def State.enqueue (s : State) (u : HwUnit) (i : Instr) (e : LaneSet) (o : OutWord → OutWord) : State :=
  let s' := s.issueAs u u i e
  let oid := s'.ids
  let s' : State := ({ s' with ids := oid + 1 } : State).addOut u.id (o (mkOut oid u i e))
  let s' : State := match i, matrixDst i with
    | .tmovt .., _ => s'
    | _, some d => s'.modTile u.cluster d (fun t => { t with tagOk := false })
    | _, none => s'
  s'.modHarness u.cluster u.pipe (fun h => { h with engine := h.engine ++ [oid] })

/-- A matrix word that works on slots: the checks at issue, in the order of R249, then the body. -/
def matrixWord (i : Instr) (s : State) (body : HwUnit → LaneSet → State → State) : Host.Outcome State Fault Refusal :=
  word i s (fun u e s =>
    if !tagRegOk u i e then s.parkOp u i 0x04 e 0 0
    else if (matrixSlots u i).any (fun n => !s.holds u n) then s.parkOp u i 0x4A e 0 0
    else if matrixClash u i then s.parkOp u i 0x49 e 0 0
    else if !s.engineClear u i then s.block u .engine
    else match s.tagFault u i e with
      | some (d24, d25) => s.parkOp u i 0x4B e d24 d25
      | none => body u e s)

/-- A word that goes to the engine as it issues. -/
def engineWord (i : Instr) (s : State) : Host.Outcome State Fault Refusal :=
  matrixWord i s (fun u e s =>
    (s.enqueue u i e (fun o => { o with uses := usesOf u (matrixSlots u i) })).useSlots u.cluster (matrixSlots u i))

/-! ### TCLAIM, TREL, TGANG -/

/-- TCLAIM (12 R241). (DESIGN CHOICE, log 9.) -/
def execTclaim (h : Hdr) (pd : Pr) (c : Xr) (s : State) : Host.Outcome State Fault Refusal :=
  word (.tclaim h pd c) s (fun u e s =>
    let i := Instr.tclaim h pd c
    let m := (u.lane (topLane e u.n)).X c
    let slots := (List.range 64).filter (fun n => m.getLsbD n)
    if decide (u.slot ≤ 6) && m.extractLsb' 60 4 != 0 then s.parkOp u i 0x48 e 0 0
    else
      let ok := slots.all (fun n => (s.tile? u.cluster n).isNone || s.holds u n)
      let new := slots.filter (fun n => (s.tile? u.cluster n).isNone)
      let s : State := if ok then s.modCluster u.cluster (fun cl => { cl with tiles := cl.tiles ++ new.map (fun n =>
        (⟨n, u.id, u.asid, [], [], 0, false, false, 0, []⟩ : Tile)) }) else s
      s.qDone u u i e (pAll u e pd ok))

/-- A TREL that waits may go on. -/
def State.trelClear (s : State) (u : HwUnit) (m : Word) : Bool :=
  (s.cluster u.cluster).tiles.all (fun (t : Tile) => !m.getLsbD t.slot || t.owner != u.id || (!t.busy && t.inUse == 0))

/-- TREL (12 R242): slots that are idle are FREE from the next cycle on; the team waits, blocked, until the last named one is. -/
def execTrel (h : Hdr) (c : Xr) (s : State) : Host.Outcome State Fault Refusal :=
  word (.trel h c) s (fun u e s =>
    let i := Instr.trel h c
    let m := (u.lane (topLane e u.n)).X c
    if (List.range 64).any (fun n => m.getLsbD n && !s.holds u n) then s.parkOp u i 0x4A e 0 0
    else if s.trelClear u m then s.issueLater u i e (fun o => { o with val := m }) 1
    else
      let s' := s.issueAs u u i e
      let oid := s'.ids
      (({ s' with ids := oid + 1 } : State).addOut u.id { mkOut oid u i e with val := m }).modUnit u.id (fun w =>
        { w with wait := some ⟨.other, oid, 0, s.now, s.now, [], false⟩ }))

/-- Slots of a TREL under way that have become idle are FREE, and it completes with the last (12 R242). -/
def State.trelStep (s : State) (o : OutWord) : State :=
  let mine := fun (t : Tile) => o.val.getLsbD t.slot && t.owner == o.unit
  let s : State := s.modCluster o.unit.cluster (fun cl => { cl with tiles := cl.tiles.filter (fun (t : Tile) => !mine t || t.busy || t.inUse != 0) })
  if (s.cluster o.unit.cluster).tiles.any mine then s
  else { s with outw := s.outw.map (fun (x : OutWord) => if x.id == o.id then { x with due := true, val := 0 } else x) }.soon (.wordComplete o.id)

/-- The TRELs under way. -/
def State.trelSteps (s : State) : State :=
  (s.outw.filter (fun (o : OutWord) => !o.due && (match o.instr with | .trel .. => true | _ => false))).foldl (fun s o => s.trelStep o) s

/-- Entry m of a gang list. -/
def gangEntry (g : Word) (m : Nat) : Nat := (g.extractLsb' (9 * m) 9).toNat
def gangN (g : Word) : Nat := (g.extractLsb' 57 3).toNat
def gangMe (g : Word) : Nat := (g.extractLsb' 54 3).toNat
def HwUnit.gangId (u : HwUnit) : Nat := u.cluster % Config.clustersPerDie * 8 + u.pipe / 4

/-- The list of TGANG's operand, with the issuer's index; none: refused (12 R256). -/
def gangOk (u : HwUnit) (v : Word) : Option Word :=
  let n := gangN v
  let l := (List.range n).map (gangEntry v)
  if v = 0 then some 0
  else if n < 2 ∨ 6 < n ∨ v.extractLsb' 60 4 != 0 ∨ v.extractLsb' 54 3 != 0 then none
  else if (List.range 6).any (fun m => decide (n ≤ m) && gangEntry v m != 0) || l.any (fun x => decide (40 ≤ x / 8)) || l.eraseDups.length != n ||
      !l.contains u.gangId then none
  else some (v ||| BitVec.ofNat 64 ((l.findIdx (· == u.gangId)) * 2 ^ 54))

/-- TGANG (12 R256). -/
def execTgang (h : Hdr) (c : Xr) (s : State) : Host.Outcome State Fault Refusal :=
  word (.tgang h c) s (fun u e s =>
    let i := Instr.tgang h c
    match gangOk u ((u.lane (topLane e u.n)).X c) with
    | none => s.parkOp u i 0x4C e 0 0
    | some g => s.issueFixed u { u with gang := g } i e)

/-! ### Words of the engine -/

/-- TZERO (12 R251). -/
def execTzero (h : Hdr) (td : Tr) (hd : Half) (s : State) : Host.Outcome State Fault Refusal := engineWord (.tzero h td hd) s
/-- TMOV (12 R251). -/
def execTmov (h : Hdr) (td ta : Tr) (hd ha : Half) (s : State) : Host.Outcome State Fault Refusal := engineWord (.tmov h td ta hd ha) s
/-- TMOVT (12 R251). -/
def execTmovt (h : Hdr) (td ta : Tr) (hd ha : Half) (s : State) : Host.Outcome State Fault Refusal := engineWord (.tmovt h td ta hd ha) s
/-- MMA (12 R253). -/
def execMma (h : Hdr) (fa fb : Ty) (td ta tb : Tr) (ha hb : Half) (sat : Bool) (s : State) : Host.Outcome State Fault Refusal :=
  engineWord (.mma h fa fb td ta tb ha hb sat) s
/-- MMAS (12 R253, R254). -/
def execMmas (h : Hdr) (fa fb : Ty) (td ta tb : Tr) (ha hb : Half) (c : Xr) (s : State) : Host.Outcome State Fault Refusal :=
  engineWord (.mmas h fa fb td ta tb ha hb c) s
/-- TCVT (12 R252); DYN is read as it issues. -/
def execTcvt (h : Hdr) (tt ts : Ty) (rm : Rm) (sat : Bool) (td ta : Tr) (hd ha : Half) (s : State) : Host.Outcome State Fault Refusal :=
  let i := Instr.tcvt h tt ts rm sat td ta hd ha
  matrixWord i s (fun u e s => (s.enqueue u i e (fun o => { o with val := u.fpstat, uses := usesOf u (matrixSlots u i) })).useSlots u.cluster (matrixSlots u i))

/-! ### Gangs (12 R257, R258) -/

def State.dieOfUnit (_ : State) (k : UKey) : Nat := k.cluster / Config.clustersPerDie

/-- What the arrivals of one gang must share. -/
def joinKey : Instr → Nat
  | .tjoin _ fa fb _ _ _ ha hb sat => fa.code.toNat + 16 * fb.code.toNat + (if ha == .whole then 0 else 256) + (if hb == .whole then 0 else 512) + (if sat then 1024 else 0)
  | .tjoins _ fa fb _ _ _ ha hb _ => fa.code.toNat + 16 * fb.code.toNat + (if ha == .whole then 0 else 256) + (if hb == .whole then 0 else 512) + 2048
  | _ => 0

def State.modLatch (s : State) (die id : Nat) (f : Latch → Latch) : State :=
  { s with latches := s.latches.map (fun (l : Latch) => if l.die == die && l.id == id then f l else l) }

/-- An arrival whose team no longer waits with it. -/
def State.stale (s : State) (q : UKey × Nat) : Bool := ((s.unit? q.1).bind (·.wait)).map (·.id) != some q.2

/-- The slots that arrivals hold in use are freed. -/
def State.freeArrivals (s : State) (l : Latch) (gone : UKey → Bool) : State :=
  s.freeSlots ((l.uses.filter (fun q => gone q.1)).flatMap (fun q => q.2.map (fun n => (q.1.cluster, n))))

/-- Arrivals of teams that no longer wait are withdrawn: they were pre-empted, parked, split or killed (12 R258). -/
def State.sweepLatches (s : State) : State :=
  if !s.latches.any (fun (l : Latch) => l.arrived.any s.stale) then s else
  let s' : State := s.latches.foldl (fun (r : State) (l : Latch) =>
    r.freeArrivals l (fun k => l.arrived.any (fun q => q.1 == k && s.stale q))) s
  { s' with latches := (s.latches.map (fun (l : Latch) => { l with
      uses := l.uses.filter (fun q => !l.arrived.any (fun a => a.1 == q.1 && s.stale a)),
      arrived := l.arrived.filter (fun q => !s.stale q) })).filter (fun (l : Latch) => !l.arrived.isEmpty) }

/-- Every team that waits in a latch faults, and the latch is freed. -/
def State.breakLatch (s : State) (l : Latch) (cause : Nat) : State :=
  let s : State := (l.arrived.filter (fun q => !s.stale q)).foldl (fun (s : State) (q : UKey × Nat) => match s.unit? q.1 with
    | some u =>
      match u.waitingWord with
      | some i => (s.setUnit { u with wait := none }).parkOp { u with wait := none } i cause (u.exec i.hdr) 0 0
      | none => s
    | none => s) (s.freeArrivals l (fun _ => true))
  { s with latches := s.latches.filter (fun (x : Latch) => !(x.die == l.die && x.id == l.id)) }

/-- A gang's leader: its cluster and the offset of its A region, of the word with which it has arrived. -/
def joinA : Instr → Nat × Nat
  | .tjoin _ _ _ _ ta _ ha _ _ => (ta.toNat, (halfBase ha))
  | .tjoins _ _ _ _ ta _ ha _ _ => (ta.toNat, (halfBase ha))
  | _ => (0, 0)

/-- The latch releases: every member's word issues, and goes to its engine in the next cycle. They share a number, by which the leader's A reaches
them all. (DEDUCED, log 28.) -/
def State.releaseLatch (s : State) (l : Latch) : State :=
  let units := l.arrived.filterMap (fun (q : UKey × Nat) => s.unit? q.1)
  match units.find? (fun u => gangMe u.gang == 0) with
  | none => s
  | some lead =>
    let (slot, off) := match lead.waitingWord with | some i => joinA i | none => (0, 0)
    let g := s.ids
    let s : State := { s with ids := g + 1, latches := s.latches.filter (fun (x : Latch) => !(x.die == l.die && x.id == l.id)) }
    let s : State := s.modTile lead.cluster slot (fun t => { t with inUse := t.inUse + (units.length - 1) })
    units.foldl (fun s u => match u.waitingWord with
      | some i => ((s.setUnit { u with wait := none }).enqueue { u with wait := none } i (u.exec i.hdr) (fun o =>
          { o with val := BitVec.ofNat 64 (lead.cluster * 64 + slot), val2 := BitVec.ofNat 64 off, gang := some (g, u.id == lead.id),
                   uses := usesOf u (matrixSlots u i) ++ (if u.id == lead.id then [] else [(lead.cluster, slot)]) })).modUnit u.id HwUnit.refetch
      | none => s) s

/-- The word arrives at the latch of its gang; it waits there, blocked. (DEDUCED, log 28.) -/
def State.arrive (s : State) (u : HwUnit) (i : Instr) (e : LaneSet) : State :=
  let s : State := s.sweepLatches
  let die := s.dieOfUnit u.id
  let list_ := u.gang.toNat % 2 ^ 54
  let n := gangN u.gang
  let here := s.latches.filter (fun (l : Latch) => l.die == die)
  let join := fun (s : State) (id : Nat) =>
    let s : State := (s.block u .engine).useSlots u.cluster (matrixSlots u i)
    let w := ((s.unit? u.id).bind (·.wait)).elim 0 (·.id)
    let s : State := s.modLatch die id (fun l => { l with arrived := l.arrived ++ [(u.id, w)], uses := l.uses ++ [(u.id, (matrixSlots u i).eraseDups)] })
    match s.latches.find? (fun (l : Latch) => l.die == die && l.id == id) with
    | some l => if l.arrived.length = n then s.releaseLatch l else s
    | none => s
  match here.find? (fun (l : Latch) => l.list_ == list_ && l.n == n) with
  | none =>
    if 16 ≤ here.length then s.parkOp u i 0x4F e 0 0
    else
      let id := s.ids
      let lim := ((s.cluster u.cluster).ganglim.extractLsb' 0 32).toNat
      let s : State := { s with ids := id + 1, latches := s.latches ++ [⟨die, id, list_, n, joinKey i, lim, s.now, [], []⟩] }
      join (s.at_ (s.now + lim) (.gangLatchTimeout die id)) id
  | some l =>
    if l.arrived.any (fun q => q.1.cluster == u.cluster && q.1.pipe == u.pipe) then s.block u .engine
    else if l.key != joinKey i then (s.breakLatch l 0x4E).parkOp u i 0x4E e 0 0
    else join s l.id

/-- A ganged word: with no gang in sr.gang it faults at the register-operand step. -/
def joinWord (i : Instr) (s : State) : Host.Outcome State Fault Refusal :=
  word i s (fun u e s =>
    if gangN u.gang = 0 then s.parkOp u i 0x4C e 0 0
    else if !tagRegOk u i e then s.parkOp u i 0x04 e 0 0
    else if (matrixSlots u i).any (fun n => !s.holds u n) then s.parkOp u i 0x4A e 0 0
    else if matrixClash u i then s.parkOp u i 0x49 e 0 0
    else if !s.engineClear u i then s.block u .engine
    else match s.tagFault u i e with
      | some (d24, d25) => s.parkOp u i 0x4B e d24 d25
      | none => s.arrive u i e)

/-- TJOIN (12 R257). -/
def execTjoin (h : Hdr) (fa fb : Ty) (td ta tb : Tr) (ha hb : Half) (sat : Bool) (s : State) : Host.Outcome State Fault Refusal :=
  joinWord (.tjoin h fa fb td ta tb ha hb sat) s
/-- TJOINS. -/
def execTjoins (h : Hdr) (fa fb : Ty) (td ta tb : Tr) (ha hb : Half) (c : Xr) (s : State) : Host.Outcome State Fault Refusal :=
  joinWord (.tjoins h fa fb td ta tb ha hb c) s

/-- GANG_LATCH_TIMEOUT (12 R258). -/
def execGangLatchTimeout (s : State) : Host.Outcome State Fault Refusal :=
  match s.arg with
  | some (.gangLatchTimeout die id) =>
    match s.latches.find? (fun (l : Latch) => l.die == die && l.id == id) with
    | some l => if l.since + l.limit ≤ s.now then .next (s.breakLatch l 0x4D) else .next s
    | none => .next s
  | _ => .next s

/-- A blocked matrix word may issue again: its slots are not busy, its queue has room, a TJOIN that came too early finds no arrival of
its harness (12 R249, R257). -/
def State.engineWake (s : State) (u : HwUnit) : HwUnit :=
  match u.wait, u.waitingWord with
  | some w, some i =>
    if w.kind != .engine || s.latches.any (fun (l : Latch) => l.arrived.any (·.1 == u.id)) then u
    else
      let ok := match i with
        | .tjoin .. | .tjoins .. =>
          s.engineClear u i && !s.latches.any (fun (l : Latch) => l.die == s.dieOfUnit u.id && l.list_ == u.gang.toNat % 2 ^ 54 && l.n == gangN u.gang &&
            l.arrived.any (fun q => q.1.cluster == u.cluster && q.1.pipe == u.pipe))
        | _ => s.engineClear u i
      if ok then u.unblock else u
  | _, _ => u

/-! ### What a word leaves in its slot -/

/-- Copies n bytes of a tile's data. -/
def copyData (src : List Host.Cell) (so : Nat) (dst : List Host.Cell) (do_ n : Nat) : List Host.Cell :=
  memWriteBytes dst do_ ((memReadBytes src so n).map some)

/-- TCVT's element by element conversion (12 R252). -/
def tcvtData (tt ts : Ty) (rm : Rm) (sat : Bool) (fp : Word) (src : List Host.Cell) (so n : Nat) (dst : List Host.Cell) (do_ : Nat) :
    List Host.Cell :=
  let mode := effMode fp false rm
  (List.range n).foldl (fun m e =>
    let v := memRead src (so + e * bytesOf ts) (bytesOf ts)
    memWrite m (do_ + e * bytesOf tt) (bytesOf tt) (Ty.write tt false mode sat false 0 (Ty.read ts false false v)).1) dst

/-- Errors of a slot's units: a region takes those of another, or loses its own. -/
def copyBad (src : List Nat) (so : Nat) (dst : List Nat) (do_ n : Nat) : List Nat :=
  (src.filter (fun k => decide (so / 8 ≤ k) && decide (k < (so + n) / 8))).foldl (fun d k => insertNat (k - so / 8 + do_ / 8) d)
    (dst.filter (fun k => !(decide (do_ / 8 ≤ k) && decide (k < (do_ + n) / 8))))

/-- The leader's A tile, as it was broadcast. -/
def State.gangA (s : State) (o : OutWord) : Option Tile := o.opA.orElse (fun _ => s.tile? (o.val.toNat / 64) (o.val.toNat % 64))

/-- The effect of a matrix word as the engine ends it. (DEDUCED, log 28.) -/
def State.engineEffect (s : State) (o : OutWord) : State :=
  let c := o.unit.cluster
  let get := fun (n : Nat) => s.tile? c n
  let mac := fun (td : Nat) (fa fb : Ty) (sat sc : Bool) (a : Tile) (oa : Nat) (b : Tile) (ob : Nat) =>
    s.modTile c td (fun t => { t with data := mmaTile fa fb sat sc a oa b ob t.data, bad := t.bad.filter (2048 ≤ ·) })
  match o.instr with
  | .tzero _ td hd => s.modTile c td.toNat (fun t =>
      { t with data := memWriteBytes t.data (halfBase hd) (List.replicate (halfSize hd) (some 0)), bad := copyBad [] 0 t.bad (halfBase hd) (halfSize hd) })
  | .tmov _ td ta hd ha => (match get ta.toNat with
      | some a => s.modTile c td.toNat (fun t => { t with
          data := copyData a.data (halfBase ha) t.data (halfBase hd) (halfSize hd), bad := copyBad a.bad (halfBase ha) t.bad (halfBase hd) (halfSize hd) })
      | none => s)
  | .tmovt _ td ta hd ha => (match get ta.toNat with
      | some a => s.modTile c td.toNat (fun t => { t with
          data := copyData a.data (halfBase ha) t.data (halfBase hd) (halfSize hd),
          scale := copyData a.scale ((halfBase ha) / 32) t.scale ((halfBase hd) / 32) ((halfSize hd) / 32),
          tag := a.tag, tagOk := a.tagOk,
          bad := copyBad a.bad (16384 + (halfBase ha) / 32) (copyBad a.bad (halfBase ha) t.bad (halfBase hd) (halfSize hd)) (16384 + (halfBase hd) / 32)
            ((halfSize hd) / 32) })
      | none => s)
  | .tcvt _ tt ts rm sat td ta hd ha => (match get ta.toNat with
      | some a => s.modTile c td.toNat (fun t => { t with
          data := tcvtData tt ts rm sat o.val a.data (halfBase ha) ((halfSize ha) / bytesOf ts) t.data (halfBase hd),
          bad := copyBad [] 0 t.bad (halfBase hd) ((halfSize ha) / bytesOf ts * bytesOf tt) })
      | none => s)
  | .mma _ fa fb td ta tb ha hb sat => (match get ta.toNat, get tb.toNat with
      | some a, some b => mac td.toNat fa fb sat false a (halfBase ha) b (halfBase hb)
      | _, _ => s)
  | .mmas _ fa fb td ta tb ha hb _ => (match get ta.toNat, get tb.toNat with
      | some a, some b => mac td.toNat fa fb false true a (halfBase ha) b (halfBase hb)
      | _, _ => s)
  | .tjoin _ fa fb td _ tb _ hb sat => (match s.gangA o, get tb.toNat with
      | some a, some b => mac td.toNat fa fb sat false a o.val2.toNat b (halfBase hb)
      | _, _ => s)
  | .tjoins _ fa fb td _ tb _ hb _ => (match s.gangA o, get tb.toNat with
      | some a, some b => mac td.toNat fa fb false true a o.val2.toNat b (halfBase hb)
      | _, _ => s)
  | _ => s

/-- Whether the word reads a unit with an uncorrectable error, in the regions and, where it scales, the scale areas that it reads (15 R326). -/
def State.engineBad (s : State) (o : OutWord) : Bool :=
  let reads := fun (t : Option Tile) (b n : Nat) (sc : Bool) => t.any (fun t => t.badIn b n || (sc && t.badIn (16384 + b / 32) (n / 32)))
  let bad := fun (n : Nat) (b m : Nat) (sc : Bool) => reads (s.tile? o.unit.cluster n) b m sc
  let c := fun (td : Tr) => bad td.toNat 0 16384 false
  match o.instr with
  | .tmov _ _ ta _ ha => bad ta.toNat (halfBase ha) (halfSize ha) false
  | .tmovt _ _ ta _ ha => bad ta.toNat (halfBase ha) (halfSize ha) true
  | .tcvt _ _ _ _ _ _ ta _ ha => bad ta.toNat (halfBase ha) (halfSize ha) false
  | .mma _ _ _ td ta tb ha hb _ => bad ta.toNat (halfBase ha) (halfSize ha) false || bad tb.toNat (halfBase hb) (halfSize hb) false || c td
  | .mmas _ _ _ td ta tb ha hb _ => bad ta.toNat (halfBase ha) (halfSize ha) true || bad tb.toNat (halfBase hb) (halfSize hb) true || c td
  | .tjoin _ _ _ td _ tb ha hb _ => bad tb.toNat (halfBase hb) (halfSize hb) false || c td || reads (s.gangA o) o.val2.toNat (halfSize ha) false
  | .tjoins _ _ _ td _ tb ha hb _ => bad tb.toNat (halfBase hb) (halfSize hb) true || c td || reads (s.gangA o) o.val2.toNat (halfSize ha) true
  | _ => false

/-- The in-use counts that a word has raised fall as it completes (12 R244). -/
def State.engineFree (s : State) (o : OutWord) : State := s.freeSlots o.uses

/-- The engine has finished a word (12 R248, R249; 15 Table 15-4). (DEDUCED, log 28.) -/
def State.engineFinish (s : State) (id : Nat) : State :=
  match s.outw.find? (fun (o : OutWord) => o.id == id) with
  | none => s
  | some o =>
    match s.unit? o.unit with
    | none => s
    | some u =>
      let bad := s.engineBad o
      if bad && u.kclass == 0 then
        let (s, ex) := s.charge u.ctx
        let s : State := (s.engineFree o).finishOut id []
        s.halt u.id ⟨if ex then 0x62 else 0x60, (lanesOf o.lanes u.n).headD 0, o.pc, o.widx, 0, [], 0, 0⟩ o.lanes false
      else
        let s : State := ((s.engineEffect o).engineFree o).finishOut id []
        if bad && u.kclass == 1 then s.at_ s.now (.errorCharge u.ctx (some u.id) ((lanesOf o.lanes u.n).headD 0) o.pc o.widx false 0) else s

/-! ### The engine and the governor (12 R248, R260, R261) -/

/-- Words that draw on the budget. -/
def mmaWord : Instr → Bool
  | .mma .. | .mmas .. | .tjoin .. | .tjoins .. => true
  | _ => false

/-- Engine cycles of a word at W = 32 (12 Table 12-4). -/
def engineCycles : Instr → Nat
  | .tzero _ _ hd => if hd == .whole then 16 else 8
  | .tmov _ _ _ hd _ => if hd == .whole then 16 else 8
  | .tmovt _ _ _ hd _ => if hd == .whole then 16 else 8
  | .tcvt _ _ _ _ _ _ _ hd ha => if hd == .whole || ha == .whole then 16 else 8
  | _ => 64

/-- A ganged word whose leader's A has not been read yet, and is to be read by its leader's. -/
def State.awaitsA (s : State) (o : OutWord) : Bool :=
  match o.gang with
  | some (g, false) => o.opA.isNone && s.outw.any (fun (x : OutWord) => x.gang == some (g, true) && x.opA.isNone)
  | _ => false

/-- The leader's A is read as its word starts, and broadcast to every member (12 R257). (DEDUCED, log 28.) -/
def State.broadcast (s : State) (o : OutWord) : State :=
  match o.gang with
  | some (g, true) =>
    let a := s.tile? (o.val.toNat / 64) (o.val.toNat % 64)
    { s with outw := s.outw.map (fun (x : OutWord) => if (x.gang.map (·.1)) == some g then { x with opA := a } else x) }
  | _ => s

/-- ENGINE_START: an idle engine takes the next word of its queue; one of a gang once its leader's A is read. (DEDUCED, log 28.) -/
def execEngineStart (s : State) : Host.Outcome State Fault Refusal :=
  match s.arg with
  | some (.engineStart c b) =>
    match s.harness? c b with
    | none => .next s
    | some h =>
      match h.engCur, h.engine with
      | none, id :: r =>
        match s.outw.find? (fun (o : OutWord) => o.id == id) with
        | none => .next (s.modHarness c b (fun h => { h with engine := r }))
        | some o =>
          if s.awaitsA o then .next s
          else .next ((s.broadcast o).modHarness c b (fun h => { h with engine := r, engCur := some (id, engineCycles o.instr * 32 / max 1 h.width) }))
      | _, _ => .next s
  | _ => .next s

def sat32 (n : Nat) : Nat := min n (2 ^ 32 - 1)

/-- The effective limit of a window (12 R261). -/
def Cluster.effLimit (c : Cluster) : Nat :=
  max 32 (min (min 8192 (c.mbudget.extractLsb' 0 16).toNat) (min 8192 (c.mbudget.extractLsb' 32 16).toNat))

/-- The engine of one harness in a core cycle. -/
def State.engineCycle (s : State) (c b : Nat) : State :=
  match s.harness? c b with
  | none => s
  | some h =>
    match h.engCur with
    | none => s
    | some (id, left) =>
      let mma := match s.outw.find? (fun (o : OutWord) => o.id == id) with | some o => mmaWord o.instr | none => false
      let cl := s.cluster c
      if mma && decide (cl.govLimit < cl.govUsed + h.width) then
        s.modCluster c (fun cl => { cl with
          govDenied := true,
          mstall := (cl.mstall &&& 0xFFFFFFFF00000000) ||| BitVec.ofNat 64 (sat32 ((cl.mstall.extractLsb' 0 32).toNat + h.width)) })
      else
        let s : State := if mma then s.modCluster c (fun cl => { cl with govUsed := cl.govUsed + h.width }) else s
        if left ≤ 1 then (s.modHarness c b (fun h => { h with engCur := none })).engineFinish id
        else s.modHarness c b (fun h => { h with engCur := some (id, left - 1) })

/-- GOVERNOR_GRANT: the engines of a cluster ask for their next cycle, from the base that the window favours (12 R260). -/
def execGovernorGrant (s : State) : Host.Outcome State Fault Refusal :=
  match s.arg with
  | some (.governorGrant c) =>
    let w := s.now / 256
    .next (((List.range 8).map (fun i => 4 * ((w + i) % 8))).foldl (fun s b => s.engineCycle c b) s)
  | _ => .next s

/-- GOVERNOR_WINDOW_END (12 R260, R261). -/
def execGovernorWindowEnd (s : State) : Host.Outcome State Fault Refusal :=
  match s.arg with
  | some (.governorWindowEnd c) =>
    .next (s.modCluster c (fun cl => { cl with
      govUsed := 0, govDenied := false, govLimit := cl.effLimit,
      mstall := if cl.govDenied then (cl.mstall &&& 0xFFFFFFFF) ||| BitVec.ofNat 64 (sat32 ((cl.mstall.extractLsb' 32 32).toNat + 1) * 2 ^ 32) else cl.mstall }))
  | _ => .next s

/-- The steps of engines and governors in a core cycle. -/
def engineSteps (s : State) : List Ev :=
  (if s.now % 256 = 0 then
    ((List.range s.clusters.length).filter (fun c => (s.cluster c).govUsed != 0 || (s.cluster c).govDenied ||
      (s.cluster c).govLimit != (s.cluster c).effLimit)).map Ev.governorWindowEnd else []) ++
  (let idle := s.harnesses.filter (fun (h : Harness) => h.engCur.isNone && !h.engine.isEmpty)
   let leads := fun (h : Harness) => s.outw.any (fun (o : OutWord) => h.engine.head? == some o.id && (o.gang.map (·.2)) == some true)
   (idle.filter leads ++ idle.filter (fun h => !leads h)).map (fun (h : Harness) => Ev.engineStart h.cluster h.base)) ++
  ((s.harnesses.filter (fun (h : Harness) => h.engCur.isSome || !h.engine.isEmpty)).map (·.cluster)).eraseDups.map Ev.governorGrant

end Sys2Proof.Machine
end

