-- ==== Sys2Proof/Machine/Reliability.lean ====
section
/-! DEFINITION. Reliability.lean: the error budget, ERRB, RECLASS and the errors that strike stored bits (15 R324 to R336, 07 R132). -/

namespace Sys2Proof.Machine

/-! ### The error budget -/

/-- An agent that a charge has exhausted halts with cause 0x62 at its next word, or, of a team whose own word made the charge, as
that word's fault (15 R331). The fault stands beside the word while it is outstanding or waits, and is raised at once otherwise. -/
def State.exhausted (s : State) (u : HwUnit) (lane : Nat) (pc : Word) (widx : Nat) : State :=
  let f : LaneFault := ⟨0x62, lane, pc, widx, 0, [], 0, 0⟩
  if s.outw.any (fun (o : OutWord) => o.unit == u.id && o.pc == pc && o.widx == widx) then
    { s with outw := s.outw.map (fun (o : OutWord) => if o.unit == u.id && o.pc == pc && o.widx == widx then { o with post := o.post ++ [f] } else o) }
  else
    match u.wait with
    | some w =>
      if w.kind == .fe && u.pc == pc && u.widx == widx then s.setUnit { u with wait := some { w with faults := w.faults ++ [f] } }
      else s.raise u.id [f]
    | none => s.raise u.id [f]

/-- ERROR_CHARGE: the hub applies one charge. One made by a command is reported as an event, and its team parks at its next clause
boundary (15 R331). One made by an access that ends with it ends it with 0x62 in place of 0x60 where the budget is exhausted (R326).
(DEDUCED, log 29.) -/
def execErrorCharge (s : State) : Host.Outcome State Fault Refusal :=
  match s.arg with
  | some (.errorCharge ctx who lane pc widx cmd acc) =>
    let (s, ex) := s.charge ctx
    if acc != 0 then .next (s.accFault acc (if ex then 0x62 else 0x60))
    else if !ex then .next s
    else
      match who.bind s.unit? with
      | none => .next s
      | some u =>
        if cmd then .next ((s.setUnit { u with parkDue := u.team }).notify u 0x62 0 0)
        else .next (s.exhausted u lane pc widx)
  | _ => .next s

/-- ERRB.add: the old count is returned (15 R332). -/
def execErrbAdd (h : Hdr) (d a : Xr) (s : State) : Host.Outcome State Fault Refusal :=
  onceResult (.errbAdd h d a) s (fun u e s =>
    let v := (u.lane (topLane e u.n)).X a
    if v.extractLsb' 32 32 != 0 then (some 0x65, [], s)
    else
      let old := s.errbudget u.ctx
      let count := (old.extractLsb' 0 32).toNat
      let new := min (count + v.toNat) (2 ^ 32 - 1)
      (none, xAllOf u e d (BitVec.ofNat 64 count), s.setErrbudget u.ctx ((old &&& 0xFFFFFFFF00000000) ||| BitVec.ofNat 64 new)))

/-- ERRB.rep: one error is charged; where that exhausts the budget the issuer halts at the word, which has taken effect (15 R332). (DEDUCED, log 29.)
-/
def execErrbRep (h : Hdr) (a : Xr) (s : State) : Host.Outcome State Fault Refusal :=
  let i := Instr.errbRep h a
  word i s (fun u e s =>
    let (s, ex) := s.charge u.ctx
    let s : State := s.qDone u u i e []
    if ex then s.raise u.id ((mkFaults e u.n 0x62 u.pc u.widx).map (fun f => { f with ops := u.srcs i f.lane })) else s)

/-! ### Re-classing -/

/-- Numbers from which on `k` free values are drawn. -/
def State.drawN (s : State) (k : Nat) : Nat × State := (s.fresh, { s with fresh := s.fresh + k })

def granules : Nat := deviceBytes / granuleBytes

def State.granuleBusy (s : State) (g : Nat) : Bool := s.gbusy.any (fun q => q.1 == g || q.2 == g)

/-- RECLASS: the operands are checked, and busy is set for both granules (15 R334, steps 1 and 2). -/
def execReclass (h : Hdr) (a b : Xr) (c : RClass) (s : State) : Host.Outcome State Fault Refusal :=
  let i := Instr.reclass h a b c
  word i s (fun u e s =>
    let va := ((u.lane (topLane e u.n)).X a).toNat
    let vb := ((u.lane (topLane e u.n)).X b).toNat
    let g := va / granuleBytes
    let t := vb / granuleBytes
    if va % granuleBytes != 0 || vb % granuleBytes != 0 || decide (deviceBytes ≤ va) || decide (deviceBytes ≤ vb) || g == t ||
        s.granuleBusy g || s.granuleBusy t then s.raiseOp u i 0x65 e
    else
      let s' := s.issueAs u u i e
      let oid := s'.ids
      let s' : State := ({ s' with ids := oid + 1, gbusy := s'.gbusy ++ [(g, t)] } : State).addOut u.id
        { mkOut oid u i e with val := BitVec.ofNat 64 (classCode c), val2 := BitVec.ofNat 64 g }
      s'.post (.reclassComplete g t))

/-- RECLASS.rd; of an address outside device memory the result is open (15 R333). (DESIGN CHOICE, log 13.) -/
def execReclassRd (h : Hdr) (d a : Xr) (s : State) : Host.Outcome State Fault Refusal :=
  onceResult (.reclassRd h d a) s (fun u e s =>
    let g := ((u.lane (topLane e u.n)).X a).toNat / granuleBytes
    if g < granules then
      (none, xAllOf u e d (BitVec.ofNat 64 (classCode (s.cls g) + if s.granuleBusy g then 4 else 0)), s)
    else
      let (n, s) := s.draw
      (none, xAllOf u e d (BitVec.ofNat 64 (Config.choice n % 8)), s))

/-- Free bytes at an address on (log 13). (DESIGN CHOICE, log 13.) -/
def scramble (m : List Host.Cell) (a draw : Nat) : Nat → List Host.Cell
  | 0 => m
  | n + 1 => scramble (memSet m a (Config.staleByte (draw + n))) (a + 1) draw n

/-- Every block of a granule that would fail its code is met as it is read. -/
def State.detectAll (s : State) (g : Nat) : State :=
  ((s.errs.map (·.1)).filter (fun b => b * 64 / granuleBytes == g)).foldl (fun s b => s.detect b) s

/-- The upper half mebibyte of a granule becomes zero and unpoisoned. -/
def State.clearHole (s : State) (g : Nat) : State :=
  let lo := g * granuleBytes + 0x380000
  let hi := (g + 1) * granuleBytes
  { s with mem := s.mem.filter (fun q => !(decide (lo ≤ q.1) && decide (q.1 < hi))),
           poison := s.poison.filter (fun b => !(decide (lo ≤ b * 64) && decide (b * 64 < hi))),
           errs := s.errs.filter (fun b => !(decide (lo ≤ b.1 * 64) && decide (b.1 * 64 < hi))) }

/-- The staging granule is left with contents that the spec leaves open, and blocks of it may read as poisoned (15 R334). -/
def State.stage (s : State) (t : Nat) : State :=
  let (n, s) := s.drawN granuleBytes
  let blk := t * (granuleBytes / 64)
  let bad := (List.range (granuleBytes / 64)).filter (fun i => Config.choice (n + i) % 2 == 1)
  { s with mem := scramble s.mem (t * granuleBytes) n granuleBytes,
           errs := s.errs.filter (fun b => b.1 / (granuleBytes / 64) != t),
           poison := bad.foldl (fun p i => insertNat (blk + i) p) (s.poison.filter (fun b => b / (granuleBytes / 64) != t)) }

/-- A request to a granule that was accepted before it became busy has not completed: a transaction, a busy entry, words on their way. -/
def State.underWay (s : State) (inside : PAddr → Bool) : Bool :=
  s.txns.any (fun (x : Txn) => inside x.pf) || s.dir.any (fun (e : DirEnt) => e.busy && inside e.pf) ||
  s.future.any (fun q => match q.2 with | .dat _ pf .. => inside pf | .fwd _ pf .. => inside pf | _ => false)

/-- The frames of a granule that caches hold or that have an entry. -/
def State.framesOf (s : State) (g : Nat) : List PAddr :=
  ((s.l2.map (fun (l : L2Line) => l.pf) ++ s.dir.map (fun (e : DirEnt) => e.pf)).filter (fun pf =>
    pf.space == .dev && pf.addr * 128 / granuleBytes == g)).eraseDups

/-- The home of a frame has moved from a die with its granule's class: its entry names the new one, which is entered as an EXACT sharer of every
word (13 R275) and refills what it held otherwise; a frame that its old home alone cached gets an entry. No cached word is lost (15 R335).
(DEDUCED, log 16.) -/
def State.rehome (s : State) (old : Nat) (pf : PAddr) : State :=
  let h := s.home pf
  match s.entry? pf with
  | some e =>
    let r := e.sharer h
    let s : State := s.setEntry { e.setSharer h { r with mask := 0xFFFFFFFF, fmt := .exact, mode := false } with home := h }
    if r.fmt == .exact then s
    else
      let (ws, bad, s) := s.homeWords pf 0xFFFFFFFF
      s.dieLines h pf (fun s l => s.setL2 (l.refill (l.where_ (· == .c)) ws bad))
  | none =>
    let m := s.l2.foldl (fun (m : Mask) (l : L2Line) => if l.die == old && l.pf == pf then m ||| l.where_ WordState.valid else m) 0
    if m = 0 then s else { s with dir := s.dir ++ [(DirEnt.fresh pf h).setSharer old { Sharer.none with mask := m }] }

/-- RECLASS_COMPLETE: once the requests accepted before have ended, the media copy is made, the class entry is written and busy is
cleared (15 R334, steps 3 to 5). (DESIGN CHOICE, log 13.) -/
def execReclassComplete (s : State) : Host.Outcome State Fault Refusal :=
  match s.arg with
  | some (.reclassComplete g t) =>
    let inside := fun (pf : PAddr) => pf.space == .dev && (pf.addr * 128 / granuleBytes == g || pf.addr * 128 / granuleBytes == t)
    match s.outw.find? (fun (o : OutWord) => (match o.instr with | .reclass .. => o.val2.toNat == g | _ => false) && !o.due) with
    | none => .next { s with gbusy := s.gbusy.filter (· != (g, t)) }
    | some o =>
      if s.underWay inside then .next (s.post (.reclassComplete g t))
      else
        let new : RClass := match o.val.toNat with | 0 => .full | 1 => .detect | _ => .none
        let homes := (s.framesOf g).map (fun pf => (pf, s.home pf))
        let moves := homes.filter (fun q => ({ s with classes := (g, new) :: s.classes.filter (·.1 != g) } : State).home q.1 != q.2)
        let s : State := (moves.foldl (fun s q => if (s.entry? q.1).isNone then s.pull q.1 0xFFFFFFFF else s) s).detectAll g
        let s : State := if new == .full || s.cls g == .full then s.clearHole g else s
        let s : State := { s with classes := (g, new) :: s.classes.filter (·.1 != g), gbusy := s.gbusy.filter (· != (g, t)) }
        .next ((moves.foldl (fun s q => s.rehome q.2 q.1) (s.stage t)).finishOut o.id [])
  | _ => .next s

/-! ### Errors of stored bits -/

def freeWord (draw : Nat) : Word := BitVec.ofNat 64 (ofBytes ((List.range 8).map (fun i => Config.staleByte (draw + i))))
def freeW32 (draw : Nat) : W32 := (freeWord draw).setWidth 32
def freeVr (draw : Nat) : VReg := BitVec.ofNat 512 (ofBytes ((List.range 64).map (fun i => Config.staleByte (draw + i))))

/-- The words of the 64-bit unit of SECDED that holds a word (15 Table 15-6), in a frame. -/
def secdedPair (i : Nat) : List Nat := [i / 2 * 2, i / 2 * 2 + 1]

def corrupt (ws : Vector W32 32) (is : List Nat) (draw : Nat) : Vector W32 32 :=
  is.foldl (fun v i => v.setIfInBounds i (freeW32 (draw + 8 * i))) ws

/-- A register whose stored bits are struck: its value is open, and a word that reads it faults (07 R132). -/
def State.strike (s : State) (k : UKey) (b : BadReg) (f : Nat → HwUnit → HwUnit) : State :=
  let (n, s) := s.drawN 512
  s.modUnit k (fun u => { f n u with bad := b :: u.bad.filter (· != b) })

/-- An error corrupts a 64-byte block of device memory (15 R324): what FULL can rebuild keeps its value. -/
def State.strikeBlock (s : State) (blk : Nat) (rebuild : Bool) : State :=
  let (n, s) := s.drawN 512
  let lost : State := { s with mem := scramble s.mem (64 * blk) n 64 }
  let note := fun (s : State) (r : Bool) => ({ s with errs := (blk, r) :: s.errs.filter (·.1 != blk) } : State)
  if deviceBytes ≤ 64 * blk then s
  else match s.cls (64 * blk / granuleBytes), rebuild with
  | .none, _ => lost
  | .full, true => if s.errs.any (fun q => q.1 == blk && !q.2) then s else note s true
  | _, _ => note lost false

def State.strikeX (s : State) (k : UKey) (l : Nat) (r : Xr) : State :=
  if r = 0 then s else s.strike k ⟨.x, l, r.toNat⟩ (fun n u => u.mapLanes (lane1 l) (fun _ x => x.setX r (freeWord n)))

/-- One doubleword of a vector register is struck: each has a row, and so a parity, of its own. -/
def State.strikeV (s : State) (k : UKey) (r : Vr) (i : Nat) : State :=
  s.strike k ⟨.v, 0, 8 * r.toNat + i⟩ (fun n u => u.land (.ve r (8 * i) 8 (freeWord n).toNat))

/-- A row of the register SRAM of a pipeline is struck: the register of the thread, or of the lane of a team, that it holds (05 R82, R93). -/
def State.strikeRow (s : State) (c p row : Nat) : State :=
  match s.units.find? (fun (u : HwUnit) => u.cluster == c && decide (u.rowBase ≤ row) &&
      (if u.team then decide (u.pipe ≤ p) && decide (p < u.pipe + u.w) && decide (row < u.rowBase + u.n / max 1 u.w * u.k)
       else u.pipe == p && decide (row < u.rowBase + 320))) with
  | none => s
  | some u =>
    let o := row - u.rowBase
    if u.team then s.strikeX u.id (o / max 1 u.k * u.w + (p - u.pipe)) (BitVec.ofNat 6 (o % max 1 u.k))
    else if o < 64 then s.strikeX u.id 0 (BitVec.ofNat 6 o)
    else s.strikeV u.id (BitVec.ofNat 5 ((o - 64) / 8)) ((o - 64) % 8)

/-- The data of a frame on its way through the hub crossbar is struck: a word of it is poisoned in every message, write-back and inbound frame
that carries it to or from a die (15 R336). -/
def State.strikeFlits (s : State) (pf : PAddr) (die w : Nat) : State :=
  let m : Mask := BitVec.ofNat 32 (2 ^ (w % 32))
  let hit := fun (d : Nat) (f : PAddr) (k : Mask) => d == die && f == pf && k &&& m != 0
  let stores := s.future.filterMap (fun q => match q.2 with | .stw d f k _ a => if hit d f k then some a else none | _ => none)
  let backs := s.future.any (fun q => match q.2 with | .wbk d f k _ => hit d f k | _ => false)
  { s with
    future := s.future.map (fun q => match q.2 with
      | .dat d f k ws bad acc => if hit d f k then (q.1, .dat d f k ws (bad ||| m) acc) else q
      | .upd d f x v bad t => (q.1, .upd d f x v (bad || (d == die && f == pf && x == w)) t)
      | _ => q),
    accs := s.accs.map (fun (a : Acc) => if stores.contains a.id then
      { a with puts := a.puts.map (fun (p : Put) => if p.w == w then { p with bad := true } else p) } else a),
    wbufs := s.wbufs.map (fun (b : WbEnt) => if backs && hit b.die b.pf b.m then { b with poison := b.poison ||| m } else b),
    hub := { s.hub with frames := s.hub.frames.map (fun (f : InFrame) =>
      if f.sent && !f.done && s.dieOf f.dpa == die && pf == ⟨.dev, f.dpa / 128⟩ then { f with bad := f.bad ||| m } else f) } }

/-- BIT_ERROR (15 R324, R336; 07 R132): bits are struck at one place. A single bit in SRAM is corrected silently. -/
def State.bitError (s : State) : ErrSite → State
  | .block b r => s.strikeBlock b r
  | .sramSpad c a single =>
    if single then s
    else
      let (n, s) := s.drawN 512
      let w := a / 4 / 2 * 2
      s.modCluster c (fun cl => { cl with spad := scramble cl.spad (4 * w) n 8, spadBad := insertNat w (insertNat (w + 1) cl.spadBad) })
  | .sramTile c slot single =>
    if single then s
    else
      let (n, s) := s.drawN 512
      let at_ := Config.choice n % 2112 * 8
      s.modTile c slot (fun t =>
        let t : Tile := { t with bad := insertNat (at_ / 8) t.bad }
        if at_ < 16384 then { t with data := scramble t.data at_ n 8 } else { t with scale := scramble t.scale (at_ - 16384) n 8 })
  | .sramL1 c p vf asid w single =>
    if single then s
    else
      let (n, s) := s.drawN 512
      match s.l1At (32 * c + p) asid vf with
      | none => s
      | some l =>
        let is := (secdedPair w).filter (fun i => l.valid.getLsbD i)
        s.setL1 { l with words := corrupt l.words is n, poison := l.poison ||| maskWhere is.contains }
  | .sramL2 d vf asid w single =>
    if single then s
    else
      let (n, s) := s.drawN 512
      match s.l2At d asid vf with
      | none => s
      | some l =>
        let is := (secdedPair w).filter (fun i => (l.stAt i).valid)
        s.setL2 { l with words := corrupt l.words is n, poison := l.poison ||| maskWhere is.contains }
  | .regX k l r => s.strikeX k l r
  | .regP k l r => if r = 0 then s else s.strike k ⟨.p, l, r.toNat⟩ (fun n u => u.mapLanes (lane1 l) (fun _ x => x.setP r (Config.choice n % 2 == 1)))
  | .regV k r =>
    let (n, s) := s.draw
    s.strikeV k r (Config.choice n % 8)
  | .regSr k sri =>
    match s.unit? k with
    | none => s
    | some u =>
      let (n, s) := s.drawN 512
      let s : State := s.setSr u sri (freeWord n)
      match u.srCopy sri.toNat with
      | some c => { s with badSr := (sri.toNat, c) :: s.badSr.filter (· != (sri.toNat, c)) }
      | none => s.strike k ⟨.sr, 0, sri.toNat⟩ (fun _ u => u)
  | .regRow c p row => s.strikeRow c p row
  | .hubHeader =>
    let s : State := s.hubEvent 0x04 0x64 0 0
    match s.future.find? (fun q => (reqFrame q.2).isSome) with
    | some q => ({ s with future := s.future.erase q } : State).nak q.2
    | none => s
  | .hubData pf die w => s.strikeFlits pf die w

def execBitError (s : State) : Host.Outcome State Fault Refusal :=
  match s.arg with
  | some (.bitError site) => .next (s.bitError site)
  | _ => .next s

end Sys2Proof.Machine
end

