-- ==== Sys2Proof/Machine/Groups.lean ====
section
/-! DEFINITION. Groups.lean: the group table of a cluster and the group words (17 R369 to R373). -/

namespace Sys2Proof.Machine

/-- A unit's bit in a group-table entry (17 R369). -/
def HwUnit.bit (u : HwUnit) : Nat := 8 * u.pipe + u.slot

def State.group? (s : State) (c idx : Nat) : Option Group := (s.cluster c).groups.find? (fun (g : Group) => g.idx == idx)

def State.modGroup (s : State) (c idx : Nat) (f : Group → Group) : State :=
  s.modCluster c (fun cl => { cl with groups := cl.groups.map (fun (g : Group) => if g.idx == idx then f g else g) })

/-- What a group word does at the entry: its code, sub and type (17 Table 17-6). -/
def groupOp : Instr → Nat
  | .grpvoteAll .. => 1
  | .grpvoteAny .. => 2
  | .grpvoteCount .. => 3
  | .grpred _ op flt _ _ _ =>
    4 + (if flt then 8 else 0) + (match op with | .add => 0 | .min => 1 | .max => 2 | .minu => 3 | .maxu => 4 | .and => 5 | .or => 6 | .xor => 7)
  | _ => 0

def groupIdx : Instr → Nat
  | .grpsync _ gi => gi.toNat
  | .grpvoteAll _ _ _ gi => gi.toNat
  | .grpvoteAny _ _ _ gi => gi.toNat
  | .grpvoteCount _ _ _ gi => gi.toNat
  | .grpred _ _ _ _ _ gi => gi.toNat
  | _ => 0

/-- The contribution of one lane. -/
def contribution (i : Instr) (l : Lane) : Word :=
  match i with
  | .grpvoteAll _ _ pa _ => if l.P pa then 1 else 0
  | .grpvoteAny _ _ pa _ => if l.P pa then 1 else 0
  | .grpvoteCount _ _ pa _ => if l.P pa then 1 else 0
  | .grpred _ _ _ _ a _ => l.X a
  | _ => 0

/-- One fold of a phase's result (17 R373). (DEDUCED, log 30.) -/
def groupFold (op : Nat) (x y : Word) : Word :=
  let f := Ty.f32.fmt
  let a := x.toNat % 2 ^ 32
  let b := y.toNat % 2 ^ 32
  match op with
  | 1 => x &&& y
  | 2 => x ||| y
  | 3 | 4 => x + y
  | 5 => if x.toInt ≤ y.toInt then x else y
  | 6 => if x.toInt ≤ y.toInt then y else x
  | 7 => if x ≤ y then x else y
  | 8 => if x ≤ y then y else x
  | 9 => x &&& y
  | 10 => x ||| y
  | 11 => x ^^^ y
  | 12 => zext (f.round .rne false false 0 (fAdd false (f.widen a) (f.widen b)).1).1 32
  | 13 => zext (f.minMax false false a b) 32
  | 14 => zext (f.minMax true false a b) 32
  | _ => 0

/-- The result of a phase: contributions in ascending unit bit, and within a team in ascending lane. -/
def Group.fold (g : Group) : Word :=
  let all := (List.range 256).flatMap (fun b => (g.contrib.filter (fun (q : Nat × List Word) => q.1 == b)).flatMap (fun (q : Nat × List Word) => q.2))
  let all := if 12 ≤ g.op then all.map (fun v => v &&& 0xFFFFFFFF) else all
  match all with
  | [] => 0
  | x :: r => r.foldl (groupFold g.op) x

/-- The waiters of an entry learn that its phase has ended. -/
def State.groupWake (s : State) (c idx : Nat) : State :=
  ((s.cluster c).grpWaits.filter (fun (q : UKey × Nat × Nat) => q.2.2 == idx)).foldl (fun s q => s.modUnit q.1 (fun u =>
    { u with wait := u.wait.map (fun w => if w.id == q.2.1 then { w with poked := true } else w) })) s

/-- GROUP_PHASE_COMPLETE where every member has arrived (17 R372). -/
def State.groupCheck (s : State) (c idx : Nat) : State :=
  match s.group? c idx with
  | none => s
  | some g =>
    if g.due == 0 && !g.members.isEmpty && g.members.all g.arrived.contains then
      (s.modGroup c idx (fun g => { g with result := g.fold, phase := !g.phase, arrived := [], contrib := [] })).groupWake c idx
    else s

/-- A unit leaves an entry: its contribution is withdrawn, and an entry without members is freed (17 R370). -/
def State.leaveGroup (s : State) (c idx bit : Nat) : State :=
  let s : State := s.modGroup c idx (fun g => { g with
    members := g.members.filter (· != bit), arrived := g.arrived.filter (· != bit), contrib := g.contrib.filter (fun q => q.1 != bit) })
  match s.group? c idx with
  | some g =>
    if g.members.isEmpty && g.due == 0 then s.modCluster c (fun cl => { cl with groups := cl.groups.filter (fun (g : Group) => g.idx != idx) })
    else if g.arrived.isEmpty then s else s.groupCheck c idx
  | none => s

/-- A unit leaves all its groups. -/
def State.leaveGroups (s : State) (u : HwUnit) : State :=
  (u.groups.filterMap id).foldl (fun s idx => s.leaveGroup u.cluster idx u.bit)
    (s.modUnit u.id (fun u => { u with groups := [none, none, none, none], arr := none, clashed := false }))

/-- The arrivals of a phase disagree: every arrived unit faults, and the arriver does (17 R372); one that does not wait, because it is halted, saved
or held out, faults as its word issues again. (DEDUCED, log 30.) -/
def State.groupClash (s : State) (u : HwUnit) (i : Instr) (e : LaneSet) (idx : Nat) : State :=
  let bits := ((s.group? u.cluster idx).map (·.arrived)).getD []
  let s : State := s.modGroup u.cluster idx (fun g => { g with arrived := [], contrib := [] })
  let there := s.units.filter (fun (w : HwUnit) => w.cluster == u.cluster && w.id != u.id && bits.contains w.bit && (w.arr.map (·.1)) == some idx)
  let s : State := there.foldl (fun s w => match (if w.resident && w.wait.isSome then w.waitingWord else none) with
    | some j =>
      let w' := { w with wait := none, arr := none }
      (s.setUnit w').raiseOp w' j 0x81 (w.exec j.hdr)
    | none => s.setUnit { w with clashed := true }) s
  (s.setUnit u).raiseOp u i 0x81 e

/-- The unit blocks until the phase of its arrival has ended. -/
def State.groupBlock (s : State) (u : HwUnit) (idx : Nat) (phase : Bool) : State :=
  let s : State := (s.setUnit { u with arr := some (idx, phase), released := false }).block { u with arr := some (idx, phase), released := false } (.group phase)
  match (s.unit? u.id).bind (·.wait) with
  | some w =>
    let s : State := s.modUnit u.id (fun u => { u with wait := u.wait.map (fun w => { w with fails := 1 }) })
    s.modCluster u.cluster (fun cl => { cl with grpWaits := cl.grpWaits.filter (fun (q : UKey × Nat × Nat) => q.1 != u.id) ++ [(u.id, w.id, idx)] })
  | none => s

/-- A group word: a release at .cl, the arrival, the wait for the phase, and the acquire at .cl with the result (17 R372). (DEDUCED, log 30.) -/
def groupWord (i : Instr) (s : State) (ws : HwUnit → LaneSet → Word → List RegWrite) : Host.Outcome State Fault Refusal :=
  word i s (fun u e s =>
    match (u.groups.getD (groupIdx i) none).bind (fun idx => (s.group? u.cluster idx).map (fun g => (idx, g))) with
    | none => s.raiseOp u i 0x80 e
    | some (idx, g) =>
      match u.arr with
      | some (idx', ph) =>
        if idx' == idx && u.clashed then
          let u' := { u with arr := none, clashed := false, released := false }
          (s.setUnit u').raiseOp u' i 0x81 e
        else if idx' == idx && g.phase == ph then s.groupBlock u idx ph
        else if idx' == idx then
          let u' := { u with arr := none, released := false }
          let s : State := s.modCluster u.cluster (fun cl => { cl with grpWaits := cl.grpWaits.filter (fun (q : UKey × Nat × Nat) => q.1 != u.id) })
          ((s.setUnit u').qDone u' u' i e (ws u e g.result)).acquireUnit u .cl
        else (s.setUnit { u with arr := none, clashed := false })
      | none =>
        if !u.released then s.releaseFirst u e .cl
        else if g.arrived.contains u.bit then s.groupBlock u idx g.phase
        else if !g.arrived.isEmpty && g.op != groupOp i then
          s.groupClash { u with released := false } i e idx
        else
          let s : State := s.modGroup u.cluster idx (fun g => { g with
            op := groupOp i, arrived := g.arrived ++ [u.bit], contrib := g.contrib ++ [(u.bit, (lanesOf e u.n).map (fun l => contribution i (u.lane l)))] })
          (s.groupBlock u idx g.phase).groupCheck u.cluster idx)

/-- GRPSYNC. -/
def execGrpsync (h : Hdr) (gi : BitVec 2) (s : State) : Host.Outcome State Fault Refusal :=
  groupWord (.grpsync h gi) s (fun _ _ _ => [])
/-- GRPVOTE.all (17 R373). -/
def execGrpvoteAll (h : Hdr) (pd pa : Pr) (gi : BitVec 2) (s : State) : Host.Outcome State Fault Refusal :=
  groupWord (.grpvoteAll h pd pa gi) s (fun u e v => pAll u e pd (v != 0))
/-- GRPVOTE.any. -/
def execGrpvoteAny (h : Hdr) (pd pa : Pr) (gi : BitVec 2) (s : State) : Host.Outcome State Fault Refusal :=
  groupWord (.grpvoteAny h pd pa gi) s (fun u e v => pAll u e pd (v != 0))
/-- GRPVOTE.count. -/
def execGrpvoteCount (h : Hdr) (d : Xr) (pa : Pr) (gi : BitVec 2) (s : State) : Host.Outcome State Fault Refusal :=
  groupWord (.grpvoteCount h d pa gi) s (fun u e v => xAllOf u e d v)
/-- GRPRED. -/
def execGrpred (h : Hdr) (op : GrpOp) (flt : Bool) (d a : Xr) (gi : BitVec 2) (s : State) : Host.Outcome State Fault Refusal :=
  groupWord (.grpred h op flt d a gi) s (fun u e v => xAllOf u e d v)

/-- GROUP_WAIT_RETRY: a waiter tests its phase again, as it ends or as the interval passes, and traps at the limit (17 R372). -/
def execGroupWaitRetry (s : State) : Host.Outcome State Fault Refusal :=
  match s.arg with
  | some (.groupWaitRetry k id) =>
    match s.unit? k with
    | none => .next s
    | some u =>
      match u.wait, u.arr, u.waitingWord with
      | some w, some (idx, ph), some i =>
        if w.id != id || !s.testDue u w then .next s
        else
          let over_ := match s.group? u.cluster idx with | some g => g.phase != ph | none => true
          let leave := fun (s : State) => s.modCluster u.cluster (fun cl => { cl with grpWaits := cl.grpWaits.filter (fun (q : UKey × Nat × Nat) => q.1 != k) })
          if over_ then .next (s.setUnit u.unblock)
          else if s.waitLimit u.cluster ≤ w.fails then
            let u' := { u with wait := none }
            .next (((leave s).setUnit u').raiseOp u' i 0x82 (u.exec i.hdr))
          else .next (s.setUnit { u with wait := some { w with fails := w.fails + 1, last := s.now, poked := false } })
      | _, _, _ => .next s
  | _ => .next s

end Sys2Proof.Machine
end

