-- ==== Sys2Proof/Machine/Place.lean ====
section
/-! DEFINITION. Place.lean: units as they are created (05 R83, R90; 18 R382), and the placing of one word for the next step. -/

namespace Sys2Proof.Machine

/-- A unit at its creation: registers zero, counters zero, special registers at their reset values. (DESIGN CHOICE, log 6, 7.) -/
def HwUnit.fresh (id : UKey) (n k w rowBase : Nat) (pc : Word) (asid ctx : Nat) (super : Bool) (kclass : BitVec 2) : HwUnit where
  id := id
  cluster := id.cluster
  pipe := id.pipe
  slot := id.slot
  team := id.team
  n := n
  k := k
  w := w
  rowBase := if id.team then rowBase else 320 * id.slot
  lanes := List.replicate n Lane.zero
  v := Vector.replicate 32 0
  active := lanesWhere n (fun _ => true)
  exited := 0
  done := 0
  stack := []
  sb := Vector.replicate 6 0
  sbSeen := Vector.replicate 6 0
  seenIdle := true
  pc := pc
  widx := 1
  begun := false
  clause := none
  status := .running
  act := 0
  wait := none
  only := none
  after := none
  exiting := false
  killed := false
  split := none
  preempt := none
  awake := 0
  yielded := false
  yieldDue := false
  turned := false
  run := 0
  order := 0
  issued1 := false
  fpstat := 0x10000
  hwFlags := 0
  seed := 1
  splitpol := 16
  gang := 0
  asid := asid
  retired := 0
  super := super
  kclass := kclass
  ctx := ctx
  inst := List.replicate n none
  wexit := 0
  area := 0
  areaIdx := 0
  inbox := []
  pending := false
  msgs := 0
  faultW := none
  frec := List.replicate 32 0
  idem := none
  taint := false
  prog := 0
  prog0 := 0
  resid := 0
  sparse := 0
  groups := [none, none, none, none]
  q := Vector.replicate 16 QReg.reset
  awaiting := []
  released := false
  fetching := false
  fbuf := []
  logged := []
  parkDue := false
  drained := 0
  arr := none
  clashed := false
  stuck := 0
  bad := []

/-- A harness as it is formed. -/
def Harness.fresh (c base w : Nat) : Harness := ⟨c, base, w, none, 7, none, none, none, 0, none, 0, [], none⟩

/-- A clause that holds one word. Its engine class is not looked at again: fetching has checked it. (DESIGN CHOICE, log 3.) -/
def oneWord (pc w : Word) : Clause := ⟨pc, 0x0800000000000000, [w]⟩

/-- A thread in pipeline 0 of cluster 0, or a team of four lanes in a harness there, that issues `w` next. -/
def State.placeWord (s : State) (w : Word) : State :=
  let pc : Word := 0x10000
  let team := match decodeWord ⟨false, true, 64⟩ w with | .ok _ => false | .error _ => true
  let id : UKey := ⟨0, 0, 0, team, 0⟩
  let u := { HwUnit.fresh id (if team then 4 else 1) 64 (if team then 4 else 1) 0 pc 1 0 true 0 with
             clause := some (oneWord pc w), seenIdle := false }
  let h := { Harness.fresh 0 0 4 with holder := some id, cur := some id, curSlot := 0, created := 1 }
  { s with units := [u], harnesses := if team then [h] else [], agenda := [], lates := [], grants := [(id, none)], cur := none }

end Sys2Proof.Machine
end

