-- ==== Sys2Proof/Machine/Units.lean ====
section
/-! DEFINITION. Units.lean: how units come to be and cease: save areas and incarnations (18 R377, R378), CINCH and formation (05
R88 to R90, 23 R448, R449), splits (05 R102, R105), exits (10 R197, 11 R221, 12 R243) and the end of a harness (05 R92). -/

namespace Sys2Proof.Machine

/-! ### Memory as the hub reads and writes it -/

/-- One atomic store at the home of a datum; sharers hear of it. In a hole it is not performed (15 R322). -/
def State.homeWrite (s : State) (a : PAddr) (n v : Nat) : State :=
  let pf := a.frameOf
  if s.inHole pf then s
  else
    let off := a.addr % 128
    let m := datumMask off n
    let (old, _, s) := s.homeWords pf m
    let ps := putsOf off n v
    let s := (s.homePuts pf ps).storeClears pf m none 0
    (s.notifyStore pf none old (applyPuts old ps) 0 m .nothing).2

/-- A byte of device memory. -/
def State.byteAt (s : State) (dpa : Nat) : Nat × State :=
  let (v, s) := s.homeRead ⟨.dev, dpa / 4 * 4⟩ 4
  (v / 2 ^ (8 * (dpa % 4)) % 256, s)

def State.setByteAt (s : State) (dpa v : Nat) : State :=
  let (w, s) := s.homeRead ⟨.dev, dpa / 4 * 4⟩ 4
  let b := 2 ^ (8 * (dpa % 4))
  s.homeWrite ⟨.dev, dpa / 4 * 4⟩ 4 (w - w / b % 256 * b + v % 256 * b)

/-! ### Save areas (18 R378) -/

def areaBytes (team : Bool) : Nat := if team then 622592 else 8192

/-- The pool of a context: its base and the number of its areas. -/
def State.pool (s : State) (ctx : Nat) (team : Bool) : Nat × Nat × State :=
  let (b, s) := s.ctxDw ctx (if team then 4 else 2)
  let (c, s) := s.ctxDw ctx 3
  (b.toNat, min 65536 (if team then (c.extractLsb' 0 32).toNat else (c.extractLsb' 32 32).toNat), s)

/-- Free areas of a bitmap in ascending order, at most `k` of them: `n` bytes from byte j on. -/
def State.freeBits (s : State) (base count : Nat) : Nat → Nat → Nat → List Nat × State
  | 0, _, _ => ([], s)
  | n + 1, j, k =>
    if k = 0 then ([], s)
    else
      let (v, s) := s.byteAt (base + j)
      let here := (((List.range 8).filter (fun i => v / 2 ^ i % 2 == 0)).map (fun i => 8 * j + i)).filter (· < count)
      let (r, s) := State.freeBits s base count n (j + 1) (k - here.length)
      ((here ++ r).take k, s)

/-- The lowest free areas of a context's pool, at most `k` of them. -/
def State.freeAreas (s : State) (ctx : Nat) (team : Bool) (k : Nat) : List Nat × State :=
  let (base, count, s) := s.pool ctx team
  if deviceBytes ≤ base + 8192 then ([], s) else s.freeBits base count ((count + 7) / 8) 0 k

/-- Takes an area: its bit is set. Its address. -/
def State.takeArea (s : State) (ctx : Nat) (team : Bool) (i : Nat) : Nat × State :=
  let (base, _, s) := s.pool ctx team
  let (v, s) := s.byteAt (base + i / 8)
  let s := s.setByteAt (base + i / 8) (v ||| 2 ^ (i % 8))
  (base + 8192 + i * areaBytes team, s)

/-- A unit's area is freed; its header says so. -/
def State.giveArea (s : State) (u : HwUnit) : State :=
  if u.area = 0 then s
  else
    let s : State := s.w64 (u.area + 8) 0
    let base := u.area - 8192 - u.areaIdx * areaBytes u.team
    let (v, s) := s.byteAt (base + u.areaIdx / 8)
    let b := 2 ^ (u.areaIdx % 8)
    s.setByteAt (base + u.areaIdx / 8) (v - v / b % 2 * b)

/-! ### Incarnations (18 R377) -/

/-- The id of the next unit of a place; the count of the place grows. -/
def State.newKey (s : State) (c p sl : Nat) (team : Bool) : UKey × State :=
  let place : UKey := ⟨c, p, sl, team, 0⟩
  let n := ((s.incs.find? (·.1 == place)).map (·.2)).getD 0
  ({ place with inc := n % 2 ^ 16 }, { s with incs := (place, n + 1) :: s.incs.filter (·.1 != place) })

/-- A new unit, whose header stands in its area from then on. -/
def State.addUnit (s : State) (u : HwUnit) : State :=
  let s : State := { s with units := s.units ++ [u] }
  if u.area = 0 then s else s.w64s u.area (u.header s.devnum)

/-- Launch records note the units that belong to them (23 R449). -/
def State.belongs (s : State) (k : UKey) (inst : List (Option Inst)) : State :=
  { s with hub := { s.hub with recs := s.hub.recs.map (fun (r : Rec) =>
      if inst.any (fun x => match x with | some i => i.q == r.q && i.seq == r.seq | none => false) then { r with units := r.units ++ [k] } else r) } }

/-! ### The end of a harness (05 R92, R96) -/

def Harness.members (h : Harness) : List Nat := (List.range h.width).map (fun i => 32 * h.cluster + h.base + i)

/-- The members' L1s write back their dirty words; each pipeline looks up its own L1 from then on. -/
def State.dissolve (s : State) (h : Harness) : State :=
  let s : State := (s.flushL1s none 0 true h.members).2
  { s with harnesses := s.harnesses.filter (fun (x : Harness) => !(x.cluster == h.cluster && x.base == h.base)) }

/-- A harness whose last team has left dissolves, unless the dispatcher holds it. -/
def State.maybeDissolve (s : State) (c b : Nat) : State :=
  match s.harness? c b with
  | some h => if h.heldFor.isNone && (s.teamsOf c b).isEmpty then s.dissolve h else s
  | none => s

/-- The issue slot of a harness forgets a team that leaves. -/
def State.forget (s : State) (u : HwUnit) : State :=
  if u.team then s.modHarness u.cluster u.pipe (fun h =>
    { h with holder := if h.holder == some u.id then (if h.pair.isSome then h.pair else none) else h.holder,
             pair := if h.pair == some u.id || h.holder == some u.id then none else h.pair,
             cur := if h.cur == some u.id then none else h.cur,
             lastPair := h.lastPair.filter (fun q => q.1 != u.id && q.2 != u.id) })
  else s

/-- A unit gives up what it waits for: places in waiting lists, rendezvous and latches, and its part in accesses. -/
def State.unwait (s : State) (u : HwUnit) : State :=
  let s : State := s.abandon (.unit u.id)
  let s : State := { s with barWaits := s.barWaits.filter (fun (b : BarWait) => b.unit != u.id) }
  let s : State := s.modCluster u.cluster (fun cl => { cl with
    feWaits := cl.feWaits.filter (fun (f : FeWait) => f.unit != u.id || f.out),
    grpWaits := cl.grpWaits.filter (fun (q : UKey × Nat × Nat) => q.1 != u.id),
    rdv := (cl.rdv.map (fun (r : Rdv) => { r with parked := r.parked.filter (· != u.id) })).filter (fun (r : Rdv) => !r.parked.isEmpty) })
  (s.modUnit u.id (fun u => { u with wait := none, released := false })).sweepLatches

/-- A lane's accesses go on in the program order of the agent that continues it (14 R301). -/
def State.reown (s : State) (k : UKey) (l : Nat) (k' : UKey) (l' : Nat) : State :=
  { s with accs := s.accs.map (fun (a : Acc) => if a.unit == some k && a.lane == l then { a with unit := some k', lane := l' } else a) }

/-! ### CINCH (05 R88, R89) -/

def kOf (kc : BitVec 2) : Nat := 16 * (kc.toNat + 1)
def wOf (wc : BitVec 2) : Nat := 4 * 2 ^ wc.toNat

/-- Every participant of a rendezvous faults at its CINCH, and the entry is freed. -/
def State.breakRdv (s : State) (c : Nat) (r : Rdv) (cause : Nat) : State :=
  let s : State := s.modCluster c (fun cl => { cl with rdv := cl.rdv.filter (fun (x : Rdv) => x.id != r.id) })
  r.parked.foldl (fun s k => match s.unit? k with
    | some u => (match u.waitingWord with
      | some i =>
        let u' := { u with wait := none, released := false }
        (s.setUnit u').raiseOp u' i cause (lane1 0)
      | none => s)
    | none => s) s

/-- CINCH. -/
def execCinch (h : Hdr) (a b : Xr) (kc wc : BitVec 2) (entry : BitVec 24) (s : State) : Host.Outcome State Fault Refusal :=
  let i := Instr.cinch h a b kc wc entry
  word i s (fun u e s =>
    let n := ((u.lane 0).X a).toNat
    let x := (u.lane 0).X b
    let hid := (x.extractLsb' 0 8).toNat
    let base := (x.extractLsb' 8 5).toNat
    let w := wOf wc
    let k := kOf kc
    let tgt := u.pc + (sext entry.toNat 24) * 8
    if !u.sbZero then s.block u .counters
    else if x.extractLsb' 13 51 != 0 || base % w != 0 || n == 0 || n % w != 0 || decide (1024 < n) || decide (2240 < n / w * k) ||
        !(decide (base ≤ u.pipe) && decide (u.pipe < base + w)) then s.raiseOp u i 0x20 e
    else if !u.released then s.releaseFirst u e .cl
    else
      let u' := { u with released := false }
      let s : State := s.setUnit u'
      let c := u.cluster
      let inHarness := s.harnesses.any (fun (y : Harness) => y.cluster == c && decide (y.base < base + w) && decide (base < y.base + y.width))
      let arrive := fun (s : State) (r : Rdv) =>
        if inHarness then (s.breakRdv c r 0x22).raiseOp u' i 0x22 e
        else
          (s.modCluster c (fun cl => { cl with rdv := cl.rdv.map (fun (y : Rdv) => if y.id == r.id then { y with parked := y.parked ++ [u.id] } else y) })).block
            u' .rendezvous
      match (s.cluster c).rdv.find? (fun (r : Rdv) => r.hid == hid) with
      | none =>
        if 8 ≤ (s.cluster c).rdv.length then s.raiseOp u' i 0x26 e
        else if inHarness then s.raiseOp u' i 0x22 e
        else
          let lim := ((s.cluster c).cinchlim.extractLsb' 0 32).toNat
          let r : Rdv := ⟨s.ids, hid, w, n, k, base, tgt, u.asid, u.super, s.now, lim, []⟩
          let s : State := { s.modCluster c (fun cl => { cl with rdv := cl.rdv ++ [r] }) with ids := s.ids + 1 }
          arrive (s.at_ (s.now + lim) (.rendezvousTimeout c r.id)) r
      | some r =>
        if r.w != w || r.n != n || r.k != k || r.base != base || r.tgt != tgt || r.asid != u.asid || r.super != u.super ||
            r.parked.any (fun q => q.pipe == u.pipe) then (s.breakRdv c r 0x21).raiseOp u' i 0x21 e
        else arrive s r)

/-- RENDEZVOUS_TIMEOUT (05 R89). -/
def execRendezvousTimeout (s : State) : Host.Outcome State Fault Refusal :=
  match s.arg with
  | some (.rendezvousTimeout c id) =>
    match (s.cluster c).rdv.find? (fun (r : Rdv) => r.id == id) with
    | some r => if r.start + r.limit ≤ s.now then .next (s.breakRdv c r 0x23) else .next s
    | none => .next s
  | _ => .next s

/-! ### Formation (05 R90, R95; 23 R448, R449) -/

/-- The banking switch: dirty words are written back, owned spans surrendered, and a member keeps the clean lines of its own frames. -/
def State.bankSwitch (s : State) (h : Harness) : State :=
  (s.l1.filter (fun (l : L1Line) => h.members.contains l.p)).foldl (fun s l =>
    let s : State := (s.flushLine none 0 true l 0xFFFFFFFF).2
    let s : State := match s.l1At l.p l.asid l.vf with | some l => s.surrender l 0xFFFFFFFF | none => s
    if l.vf % h.width = l.p % 32 - h.base then s else { s with l1 := s.l1.filter (fun (x : L1Line) => !x.same l) }) s

/-- A rendezvous that may form its harness: it is full, and its members hold its participants alone. -/
def State.rdvReady (s : State) (c : Nat) (r : Rdv) : Bool :=
  r.parked.length == r.w &&
  !s.units.any (fun (u : HwUnit) => u.cluster == c && u.resident && !u.team && decide (r.base ≤ u.pipe) && decide (u.pipe < r.base + r.w) &&
    !r.parked.contains u.id)

/-- HARNESS_FORMATION: the team takes the lowest free area of its context's team pool, or formation waits for one. -/
def execHarnessFormation (s : State) : Host.Outcome State Fault Refusal :=
  match s.arg with
  | some (.harnessFormation c hid) =>
    match (s.cluster c).rdv.find? (fun (r : Rdv) => r.hid == hid) with
    | none => .next s
    | some r =>
      let of := fun (i : Nat) => s.units.find? (fun (u : HwUnit) => r.parked.contains u.id && u.pipe == r.base + i)
      match s.rdvReady c r, of 0 with
      | true, some lead =>
        match s.freeAreas lead.ctx true 1 with
        | ([], s) => .next s
        | (ix :: _, s) =>
          let parts := (List.range r.w).filterMap of
          let (dpa, s) := s.takeArea lead.ctx true ix
          let h := { Harness.fresh c r.base r.w with created := 1 }
          let (id, s) := s.newKey c r.base 0 true
          let inst := (List.range r.n).map (fun l => ((of (l % r.w)).bind (fun u => u.inst.headD none)))
          let lanes := (List.range r.n).map (fun l =>
            match (if l < r.w then of l else none) with
            | some u => { Lane.zero with x := ((List.range r.k).foldl (fun (v : Vector Word 64) j => v.setIfInBounds j ((u.lane 0).x.toList.getD j 0)) Lane.zero.x) }
            | none => Lane.zero)
          let t := { HwUnit.fresh id r.n r.k r.w 0 r.tgt r.asid lead.ctx r.super lead.kclass with
                     lanes := lanes, fpstat := lead.fpstat, seed := lead.seed, inst := inst, wexit := lead.wexit, area := dpa, areaIdx := ix,
                     bad := (List.range r.w).flatMap (fun l => match of l with
                       | some u => (u.bad.filter (fun b => b.file == .x && decide (b.idx < r.k) && decide (l < r.n))).map (fun b => { b with lane := l })
                       | none => []) ++ lead.bad.filter (fun b => b.file == .sr && (b.idx == 0x10 || b.idx == 0x11)) }
          let s : State := (List.range r.w).foldl (fun (s : State) l => match of l with | some u => s.reown u.id 0 id l | none => s) s
          let s : State := parts.foldl (fun s u => (s.leaveGroups u).giveArea u) s
          let s : State := s.modCluster c (fun cl => { cl with
            rdv := cl.rdv.filter (fun (x : Rdv) => x.id != r.id),
            allocs := cl.allocs.map (fun (x : Alloc) => if r.parked.contains x.owner then { x with owner := id } else x) })
          let s : State := { s with units := s.units.filter (fun (u : HwUnit) => !r.parked.contains u.id), harnesses := s.harnesses ++ [h] }
          .next (((s.bankSwitch h).belongs id inst).addUnit t)
      | _, _ => .next s
  | _ => .next s


/-! ### Answers to pre-emptions (18 R403, R415) -/

/-- The register in which a word that asks for a pre-emption takes its answer, and whether it is CTXSAVE. -/
def asks : Instr → Option (Xr × Bool)
  | .preempt _ d _ => some (d, false)
  | .preemptSave _ d _ => some (d, false)
  | .preemptKill _ d _ => some (d, false)
  | .ctxsave _ d _ => some (d, true)
  | _ => none

/-- The action taken is told to those who asked: in X(d) of a word, or as the event 0x99 of an ABORT (18 R413, R415). (DEDUCED, log 17.) -/
def State.answer (s : State) (u : HwUnit) (by_ : List Nat) (action : Nat) : State :=
  by_.foldl (fun (s : State) oid =>
    if oid = 0 then
      let seq := s.srcSeq 0
      (s.bumpSeq 0).sendTo (s.cluster u.cluster).faultdst (.num 0) (some u.id) 0x99 seq (msgDw0 0x99 u.asid true u.team false seq)
        u.pc (u.id.word s.devnum) (BitVec.ofNat 64 action)
    else
      match s.outw.find? (fun (o : OutWord) => o.id == oid) with
      | none => s
      | some o =>
        match asks o.instr with
        | some (d, save) => s.finishOut oid (o.xAll d (BitVec.ofNat 64 (if save then (if action = 4 then 2 else 0) else action)))
        | none => s) s

/-- The answer for a unit that has left. -/
def State.answerGone (s : State) (u : HwUnit) (action : Nat) : State :=
  match u.preempt with
  | some p => s.answer u p.by_ action
  | none => s

/-! ### Splits (05 R101, R102, R105) -/

/-- Slots, queues and allocations of a unit that leaves (10 R197, 11 R221, 12 R243). -/
def State.slotsOf (s : State) (u : HwUnit) : List Tile := (s.cluster u.cluster).tiles.filter (fun (t : Tile) => t.owner == u.id)
def State.allocsOf (s : State) (u : HwUnit) : List Alloc := (s.cluster u.cluster).allocs.filter (fun (x : Alloc) => x.owner == u.id)

/-- Slots that may be released as TREL releases them are. -/
def State.releaseSlots (s : State) (u : HwUnit) : State :=
  s.modCluster u.cluster (fun cl => { cl with tiles := cl.tiles.filter (fun (t : Tile) => t.owner != u.id || t.busy || t.inUse != 0) })

/-- The result queues that no command is to fill any more lose their entries, and take what commands still bring (11 R221). -/
def HwUnit.emptyResults (u : HwUnit) : HwUnit :=
  { u with q := u.q.map (fun (r : QReg) => if r.isRes && r.resvd = 0 then { r with ents := [] } else r) }

/-- Every bound queue is drained. -/
def HwUnit.queuesDrained (u : HwUnit) : Bool := u.q.toList.all (fun (r : QReg) => r.bound.isNone || r.holds .drained)

/-- The lanes that become threads: active, or pending or waiting under an entry. -/
def HwUnit.liveLanes (u : HwUnit) : List Nat := (lanesOf u.live u.n).filter (fun l => !u.exited.getLsbD l)

/-- Where the thread of a lane resumes: clause and word. -/
def HwUnit.standsAt (u : HwUnit) (l : Nat) : Word × Nat :=
  if u.active.getLsbD l then (u.pc, u.widx)
  else match u.stack.find? (fun (x : DivEntry) => x.m.getLsbD l) with
    | some x => if x.two then (x.hd, (x.pc - x.hd).toNat / 8) else (x.pc, 1)
    | none => (u.pc, u.widx)

/-- The thread made from a lane (05 Table 5-7a). -/
def HwUnit.threadOf (u : HwUnit) (l : Nat) (id : UKey) (area idx : Nat) : HwUnit :=
  let (pc, widx) := u.standsAt l
  { HwUnit.fresh id 1 64 1 0 pc u.asid u.ctx u.super u.kclass with
    widx := widx, lanes := [{ u.lane l with x := ((List.range 64).foldl (fun (v : Vector Word 64) j =>
      if j < u.k then v else v.setIfInBounds j 0) (u.lane l).x), resv := none }],
    fpstat := u.fpstat, seed := seedSteps (l + 1) u.seed, inst := [(u.inst.getD l none)], wexit := u.wexit, area := area, areaIdx := idx,
    bad := (u.bad.filter (fun b => match b.file with
      | .x => b.lane == l && decide (b.idx < u.k)
      | .p => b.lane == l
      | .v => false
      | .sr => b.idx == 0x10 || b.idx == 0x11)).map (fun b => { b with lane := 0 }) }

/-- The threads of a team's lanes take their places, and go on in the lanes' program order; those of the faulting lanes stand halted, of several
faults of one lane the last with its record (08 R154). -/
def State.makeThreads (s : State) (u : HwUnit) (fs : List LaneFault) : List Nat → List Nat → State
  | [], _ => s
  | _, [] => s
  | l :: ls, ix :: ixs =>
    let (dpa, s) := s.takeArea u.ctx false ix
    let (id, s) := s.newKey u.cluster (u.pipe + l % u.w) (l / u.w) false
    let t := u.threadOf l id dpa ix
    let s : State := ((s.belongs id t.inst).addUnit t).reown u.id l id 0
    let s : State := s.acquireUnit t .tm
    let s : State := (fs.filter (fun (f : LaneFault) => f.lane == l)).foldl (fun (s : State) f => s.halt id { f with lane := 0 } (lane1 0) true) s
    s.makeThreads u fs ls ixs

/-- TEAM_SPLIT: once the team's words have completed, its slots are released, its queues drained and its release at team scope is
performed, the live lanes become threads and the harness dissolves. Too few areas park the team instead (18 R378). -/
def State.teamSplit (s : State) (u : HwUnit) (fs : List LaneFault) : State :=
  let s : State := (s.releaseSlots u).modUnit u.id HwUnit.emptyResults
  if !(s.slotsOf u).isEmpty || !u.queuesDrained then s
  else if !u.released then s.releaseFirst u (lane1 0) .tm
  else
    let live := u.liveLanes
    let (ixs, s) := s.freeAreas u.ctx false live.length
    if ixs.length < live.length then
      let f : LaneFault := match leadFault fs with | some f => { f with cause := 0x97 } | none => ⟨0x97, 0, u.pc, 0, 0, [], 0, 0⟩
      let u' := { u with split := none, released := false }
      (s.setUnit u').halt u.id f (if fs.isEmpty then u.active else faultLanes fs) false
    else
      let first := s.units.length
      let s : State := s.makeThreads u fs live ixs
      let heirs := (s.units.drop first).map (fun (t : HwUnit) => t.id)
      let heir := heirs.head?
      let from_ := s.ids
      let s : State := s.modCluster u.cluster (fun cl => { cl with allocs := cl.allocs.map (fun (x : Alloc) =>
        if x.owner == u.id then { x with owner := heir.getD x.owner } else x) })
      let s : State := ((s.leaveGroups u).forget u).giveArea u
      let s : State := s.dropUnit u.id
      let s : State := match s.harness? u.cluster u.pipe with
        | some h => s.dissolve h
        | none => s
      -- what the members' L1s write back precedes in the order of every thread (14 R301)
      ({ s with accs := s.accs.map (fun (a : Acc) => if from_ ≤ a.id && a.kind == .through then { a with heirs := heirs } else a) } : State).answerGone u 4

def execTeamSplit (s : State) : Host.Outcome State Fault Refusal :=
  match s.arg with
  | some (.teamSplit k) =>
    match s.unit? k with
    | none => .next s
    | some u =>
      match u.split with
      | some fs => if (s.outOf k).isEmpty && u.wait.isNone then .next (s.teamSplit u fs) else .next s
      | none => .next s
  | _ => .next s

/-! ### Exits (10 R197, 11 R221, 12 R243; 18 R400) -/

/-- Launch records take note of instances of which a part has been killed (23 R449). -/
def State.noteKill (s : State) (u : HwUnit) : State :=
  let mine := (u.inst.mapIdx (fun l (i : Option Inst) => if u.exited.getLsbD l then none else i)).filterMap id
  { s with hub := { s.hub with recs := s.hub.recs.map (fun (r : Rec) =>
      let hit := ((mine.filter (fun (i : Inst) => i.q == r.q && i.seq == r.seq)).map (·.inst)).eraseDups
      { r with retired := r.retired ++ (hit.filter (fun i => !r.retired.contains (i, true))).map (fun i => (i, true)) }) } }

/-- UNIT_EXIT: the exiting unit's allocations drain, its queues are drained and its slots released; then its place is freed. Its
dirty words go to the slice, so that its launch's completion can be the release of R313. -/
def State.unitExit (s : State) (u : HwUnit) : State :=
  let s : State := (s.allocsOf u).foldl (fun s x => if x.live then s.drainAlloc u.cluster x.base else s) s
  let s : State := s.releaseSlots u
  let never := s.accs.filter (fun (a : Acc) => a.unit == some u.id && a.fault != 0)
  -- a command pushed after a store that is never performed is never accepted (14 R317)
  let s : State := s.modUnit u.id (fun u => { u.emptyResults with q := u.emptyResults.q.map (fun (r : QReg) =>
    if r.isRes then r else { r with ents := r.ents.takeWhile (fun e => never.all (fun (a : Acc) => decide (e.2 ≤ a.id))) }) })
  if !(s.allocsOf u).isEmpty || !(s.slotsOf u).isEmpty || !u.queuesDrained then s
  else
    let s : State := (s.flushL1s (some u.id) 0 u.super u.l1s).2
    let s : State := if u.killed then s.noteKill u else s
    let s : State := ((s.leaveGroups u).forget u).giveArea u
    let s : State := s.dropUnit u.id
    let s : State := { s with accs := s.accs.filter (fun (a : Acc) => !(a.unit == some u.id && a.fault != 0)) }
    (if u.team && u.resident then s.maybeDissolve u.cluster u.pipe else s).answerGone u (if u.killed then 3 else 4)

def execUnitExit (s : State) : Host.Outcome State Fault Refusal :=
  match s.arg with
  | some (.unitExit k) =>
    match s.unit? k with
    | some u => if u.exiting && u.sbZero then .next (s.unitExit u) else .next s
    | none => .next s
  | _ => .next s

/-- A request of a unit that a translation fault holds. -/
def Acc.heldOf (a : Acc) (k : UKey) : Bool := a.unit == some k && (a.stage == .replay || a.stage == .denied)

/-- The held requests of a unit that is killed are withdrawn and its log entries freed. A store among them is never performed, nor is any release that
follows it in its agent's program order (14 R317): that stands in the record that stays of it. (DEDUCED, log 31.) -/
def State.withdrawHeld (s : State) (u : HwUnit) : State :=
  let gone := (s.accs.filter (fun a => a.heldOf u.id)).map (·.id)
  let s : State := { s with
    accs := (s.accs.filter (fun a => !a.heldOf u.id || a.kind == .store)).map (fun a =>
      if a.heldOf u.id then { a with owner := .none, stage := .bound, fault := 0x71, perf := 0, told := true } else a),
    replays := s.replays.filter (fun (r : Replay) => !gone.contains r.acc) }
  let never := s.accs.filter (fun (a : Acc) => a.unit == some u.id && a.kind == .store && a.fault != 0)
  let s : State := { s with accs := s.accs.filter (fun b =>
    !(b.unit == some u.id && b.rel.isSome && b.stage == .held && b.fault == 0 && never.any (fun a => a.precedes b && a.ofAgent b))) }
  s.modUnit u.id (fun u => { u with logged := [], awaiting := [] })

/-- The words of a unit that is killed which wait for nothing any more end without effect. -/
def State.endIdle (s : State) (k : UKey) : State :=
  let idle := (s.outOf k).filter (fun (o : OutWord) => !o.due && !s.lates.contains o.id &&
    !s.accs.any (fun a => (a.owner == .out o.id || a.owner == .late o.id) && !a.complete && a.fault == 0) &&
    (match o.instr with | .sfree .. | .reclass .. => false | i => !(matrixDst i).isSome))
  idle.foldl (fun s o => s.finishOut o.id []) s

/-- A unit that is killed loses what is held of it, now and as more comes to be held. -/
def State.killHeld (s : State) (u : HwUnit) : State :=
  if s.accs.any (fun a => a.heldOf u.id) then (s.withdrawHeld u).endIdle u.id else s

/-- A kill: the unit issues no more and exits (18 R400, action 3). Words whose requests are held end without effect. -/
def State.kill (s : State) (k : UKey) : State :=
  match s.unit? k with
  | none => s
  | some u =>
    let s : State := (s.unwait u).withdrawHeld u
    let s : State := s.modUnit k (fun u => { u.dropResv with
      status := if u.resident then .running else u.status, exiting := true, killed := true, split := none, wait := none, clause := none, parkDue := false, drained := 0 })
    (s.forget u).endIdle k

end Sys2Proof.Machine
end

