-- ==== Sys2Proof/Machine/Preempt.lean ====
section
/-! DEFINITION. Preempt.lean: pre-emption, saving, reinstating and the words that ask for them (18 R398, R400 to R404, R413, R415, R450). -/

namespace Sys2Proof.Machine

/-- The unit that an id names (18 R377). -/
def State.named (s : State) (w : Word) : Option HwUnit := (UKey.ofWord w s.devnum).bind s.unit?

/-! ### Saving (18 R403) -/

/-- Its fault record has cause 0 and no faulting word (18 R450). (DEDUCED, log 36.) -/
def HwUnit.unfaulted (u : HwUnit) (devnum : Nat) : HwUnit :=
  { u with faultW := none, only := none, after := none,
           frec := [0, 0, u.id.word devnum, 0, resumeDw u.pc u.widx] ++ List.replicate 27 0 }

/-- What a unit that leaves its place gives up: its wait, its fetch, its reservations and the issue slot. -/
def State.unplace (s : State) (u : HwUnit) : State :=
  let s : State := (s.unwait u).abandon (.fetch u.id)
  let s : State := s.modUnit u.id (fun u => { u.dropResv with clause := none, begun := false, fetching := false, fbuf := [], exiting := false })
  s.forget u

/-- The unit is saved: its image is written and its place freed; it keeps its allocations and slots. (DEDUCED, log 36.) -/
def State.shelve (s : State) (k : UKey) (st : UStatus) : State :=
  let s : State := (s.modUnit k (fun u => { u with status := st, act := 0, preempt := none, drained := 0, stuck := 0 })).writeImage k
  match s.unit? k with
  | some u => if u.team then s.maybeDissolve u.cluster u.pipe else s
  | none => s

/-- A word of a unit that is to be saved is complete, or stays logged: some request of it is held and none is under way. -/
def State.mayStay (s : State) (o : OutWord) : Bool :=
  !o.due && s.accs.any (fun a => a.owner == .out o.id && a.stage == .replay) &&
  !s.accs.any (fun a => a.owner == .out o.id && a.fault == 0 && (a.stage == .sent || a.stage == .walk || a.stage == .held))

/-- SAVE, once every issued word has completed or stays logged; the words that await this very action are not waited for. -/
def State.trySave (s : State) (u : HwUnit) (p : Preempt) : State :=
  if u.awaiting.isEmpty && (s.outOf u.id).all (fun o => p.by_.contains o.id || s.mayStay o) then
    let s : State := (s.unplace u).modUnit u.id (fun u => u.unfaulted s.devnum)
    (s.shelve u.id .saved).answer u p.by_ 2
  else s.setUnit { u with preempt := some { p with saving := true } }

/-- An access that writes and may be performed before it could be cancelled. -/
def State.writing (s : State) (k : UKey) : Bool :=
  s.accs.any (fun a => a.unit == some k && (a.kind == .store || a.kind.atomic) && (a.stage == .sent || a.stage == .bound))

/-- A ganged word whose latch has released is in progress: it is drained before the team is flushed (12 R258). -/
def State.ganged (s : State) (u : HwUnit) : Bool := (s.outOf u.id).any (fun o => o.gang.isSome)

/-- FLUSH: every word of the team is cancelled, and the region's entry stands for the resumption point (18 R402, R403). A cancelled matrix word leaves
its engine queue and holds no slot in use any more. (DEDUCED, log 36.) -/
def State.flush (s : State) (u : HwUnit) (p : Preempt) (entry : Word) : State :=
  let mine := (s.outOf u.id).filter (fun o => !p.by_.contains o.id)
  let s : State := (s.unplace u).freeSlots (mine.flatMap (fun (o : OutWord) => o.uses))
  let s : State := s.modHarness u.cluster u.pipe (fun h => { h with
    engine := h.engine.filter (fun id => !mine.any (fun o => o.id == id)), engCur := h.engCur.filter (fun c => !mine.any (fun o => o.id == c.1)) })
  let s : State := mine.foldl (fun s o => (s.abandon (.out o.id)).abandon (.late o.id)) s
  let s : State := { s with outw := s.outw.filter (fun (o : OutWord) => !mine.any (fun x => x.id == o.id)),
                            replays := s.replays.filter (fun (r : Replay) => (s.acc? r.acc).isSome) }
  let s : State := s.modUnit u.id (fun u => ({ u with
    pc := entry, widx := 1, prog := u.prog0, sb := Vector.replicate 6 0, logged := [], awaiting := [], done := 0 } : HwUnit).unfaulted s.devnum)
  (s.shelve u.id .saved).answer u p.by_ 1

/-- DRAIN applies (18 R403): the cycles that the team still needs are within the limit. -/
def State.mayDrain (s : State) (u : HwUnit) : Bool :=
  let lim := ((s.cluster u.cluster).drainlim.extractLsb' 0 32).toNat
  let p := u.prog.toNat
  lim != 0 && p != 0 && decide (p < u.wexit) && decide (((u.wexit - p) * u.resid.toNat + p - 1) / p ≤ lim)

/-- The choice of R403, at the boundary at which issue has stopped. (DEDUCED, log 36.) -/
def State.choose (s : State) (u : HwUnit) (p : Preempt) : State :=
  if p.saving then s.trySave u p
  else if u.team && p.mode == .adaptive && u.status == .running then
    if !p.noDrain && s.mayDrain u then
      let lim := ((s.cluster u.cluster).drainlim.extractLsb' 0 32).toNat
      let u' := { u with preempt := some { p with by_ := [] }, drained := s.now + 2 * lim }
      ((s.setUnit u').answer u p.by_ 0).at_ (s.now + 2 * lim) (.drainTimeout u.id p.id)
    else
      match u.idem with
      | some entry => if u.taint || s.writing u.id then s.trySave u p else if s.ganged u then s else s.flush u p entry
      | none => s.trySave u p
  else s.trySave u p

/-- A pending pre-emption acts on its unit where it can: a saved unit is saved, one held out becomes so, a unit that leaves is
answered as it leaves. -/
def State.preemptStep (s : State) (k : UKey) : State :=
  match s.unit? k with
  | none => s
  | some u =>
    match u.preempt with
    | none => s
    | some p =>
      if u.exiting || u.split.isSome then s
      else if p.mode == .kill then s.kill k
      else
        match u.status with
        | .saved => (s.setUnit { u with preempt := none }).answer u p.by_ 2
        | .heldOut =>
          let s : State := { s with hub := { s.hub with returns := s.hub.returns.filter (fun (q : Nat × UKey) => q.2 != k) } }
          let s : State := (s.loadImage k).modUnit k (fun u => u.unfaulted s.devnum)
          (s.shelve k .saved).answer u p.by_ 2
        | .halted | .parked => s.trySave u p
        | .running => if u.drained == 0 && u.boundary then s.choose u p else s

/-- PREEMPTION_ARRIVAL: a pre-emption reaches its unit; it joins one that is pending (18 R403). (DEDUCED, log 36.) -/
def execPreemptionArrival (s : State) : Host.Outcome State Fault Refusal :=
  match s.arg with
  | some (.preemptionArrival k mode b) =>
    match s.unit? k with
    | none => .next (s.answer (HwUnit.fresh k 1 64 1 0 0 0 0 false 0) (if b = 0 then [] else [b]) 4)
    | some u =>
      let p := match u.preempt with
        | some p => { p with by_ := p.by_ ++ [b], mode := if mode == .kill || p.mode == .kill then .kill else if mode == .save then .save else p.mode }
        | none => ⟨mode, [b], s.ids, false, false⟩
      let again := decide (0 < u.drained) && mode == .adaptive
      if again && p.mode == .adaptive then .next (s.answer u [b] 0)
      else .next (({ s with ids := s.ids + 1 }.setUnit { u with preempt := some p, drained := 0 }).preemptStep k)
  | _ => .next s

/-- DRAIN_TIMEOUT: a team that has not exited is chosen for again, without DRAIN (18 R403). -/
def execDrainTimeout (s : State) : Host.Outcome State Fault Refusal :=
  match s.arg with
  | some (.drainTimeout k id) =>
    match s.unit? k with
    | none => .next s
    | some u =>
      match u.preempt with
      | some p => if p.id == id && u.drained != 0 then
          .next ((s.setUnit { u with drained := 0, preempt := some { p with noDrain := true } }).preemptStep k) else .next s
      | none => .next s
  | _ => .next s

/-! ### The words that ask -/

/-- A pre-emption sets out for a unit; it arrives within 512 core cycles (18 R403). -/
def State.preemptAt (s : State) (k : UKey) (mode : PreemptMode) (b : Nat) : State :=
  { s with fresh := s.fresh + 1 }.at_ (s.now + 1 + Config.latency s.fresh % 511) (.preemptionArrival k mode b)

/-- PREEMPT and CTXSAVE. -/
def preemptWord (i : Instr) (d a : Xr) (mode : PreemptMode) (s : State) : Host.Outcome State Fault Refusal :=
  word i s (fun u e s =>
    match s.named ((u.lane (topLane e u.n)).X a) with
    | none => s.qDone u u i e (xAllOf u e d (if mode == .save && (match asks i with | some (_, c) => c | none => false) then 2 else 4))
    | some t =>
      let oid := (s.issueAs u u i e).ids
      (s.issueOpen u u i e id (fun _ => [])).preemptAt t.id mode oid)

/-- PREEMPT (18 R415). -/
def execPreempt (h : Hdr) (d a : Xr) (s : State) : Host.Outcome State Fault Refusal := preemptWord (.preempt h d a) d a .adaptive s
/-- PREEMPT.save. -/
def execPreemptSave (h : Hdr) (d a : Xr) (s : State) : Host.Outcome State Fault Refusal := preemptWord (.preemptSave h d a) d a .save s
/-- PREEMPT.kill. -/
def execPreemptKill (h : Hdr) (d a : Xr) (s : State) : Host.Outcome State Fault Refusal := preemptWord (.preemptKill h d a) d a .kill s
/-- CTXSAVE (18 R413). -/
def execCtxsave (h : Hdr) (d a : Xr) (s : State) : Host.Outcome State Fault Refusal := preemptWord (.ctxsave h d a) d a .save s

/-- A unit is queued for its reinstatement, once. -/
def State.bringBack (s : State) (k : UKey) : State :=
  if s.hub.returns.any (fun (q : Nat × UKey) => q.2 == k) then s else { s with hub := { s.hub with returns := s.hub.returns ++ [(s.now, k)] } }

/-- CTXLOAD (18 R413). (DEDUCED, log 36.) -/
def execCtxload (h : Hdr) (d a : Xr) (s : State) : Host.Outcome State Fault Refusal :=
  onceResult (.ctxload h d a) s (fun u e s =>
    let v := (u.lane (topLane e u.n)).X a
    match s.units.find? (fun (t : HwUnit) => t.status == .saved && t.area != 0 && t.area == v.toNat) with
    | some t => (none, xAllOf u e d 0, s.bringBack t.id)
    | none => (none, xAllOf u e d 1, s))

/-! ### Resumption (18 R400, R409) -/

/-- Actions 0 to 3 on a unit that stands in its place: it resumes, as an acquire at .sy, or exits. Where it goes on past its faulting word, or
elsewhere, the stores that faulted are the supervisor's, and no later release waits for them. (DEDUCED, log 24.) -/
def State.resumeUnit (s : State) (k : UKey) (act : Nat) (at_ : Word) : State :=
  if act = 3 then s.kill k
  else
    let s : State := if act = 0 then s else { s with accs := s.accs.filter (fun (a : Acc) => !(a.unit == some k && a.fault != 0)) }
    let s : State := s.modUnit k (fun u => { u.resume act at_ with parkDue := false })
    match s.unit? k with
    | some u => (s.acquireUnit u .sy).writeArea k
    | none => s

/-- Renames a unit's bit in its groups, as it takes another place. -/
def State.moveBits (s : State) (u : HwUnit) (old new : Nat) : State :=
  (u.groups.filterMap id).foldl (fun s idx => s.modGroup u.cluster idx (fun g =>
    let m := fun (b : Nat) => if b = old then new else b
    { g with members := g.members.map m, arrived := g.arrived.map m, contrib := g.contrib.map (fun q => (m q.1, q.2)) })) s

/-- A saved or held-out unit takes a place again, with its id, and the recorded action takes effect (18 R377, R398, R413). -/
def State.reinstate (s : State) (k : UKey) (p sl row order : Nat) : State :=
  let s : State := { s with hub := { s.hub with returns := s.hub.returns.filter (fun (q : Nat × UKey) => q.2 != k) } }
  let s : State := s.loadImage k
  match s.unit? k with
  | none => s
  | some u =>
    let u' := { u with pipe := p, slot := sl, rowBase := if u.team then row else 320 * sl, order := order, status := .halted, seenIdle := true, wait := none,
                       pending := !u.inbox.isEmpty }
    ((s.setUnit u').moveBits u u.bit u'.bit).resumeUnit k u.act u.pc

/-- WAKE's record reaches a unit of this device: what X(d) takes (18 R409). -/
def State.wakeUnit (s : State) (w rec_ : Word) : Nat × State :=
  match s.named w with
  | none => (2, s)
  | some t =>
    let act := (rec_.extractLsb' 0 3).toNat
    let at_ := (rec_ >>> 3) <<< 3
    match t.status with
    | .running => (1, s)
    | .halted | .parked => (0, s.resumeUnit t.id act at_)
    | .saved | .heldOut =>
      let s : State := s.modUnit t.id (fun u =>
        if act = 2 then { u with act := 2, pc := at_, widx := 1, pending := true } else { u with act := act, pending := true })
      let s : State := s.writeArea t.id
      (0, if t.status == .heldOut then s.bringBack t.id else s)

/-- Holds a blocked thread out of its slot (18 R398). -/
def State.holdOut (s : State) (u : HwUnit) : State := (s.unplace u).shelve u.id .heldOut

end Sys2Proof.Machine
end

