-- ==== Sys2Proof/Machine/Context.lean ====
section
/-! DEFINITION. Context.lean: TRAP, ERET, WAKE, messages, and the window onto a stopped unit's registers (18 R390 to R396, R406 to
R412). -/

namespace Sys2Proof.Machine

/-- The top executing lane, whose x operands a word that executes once reads (18 R406). -/
def HwUnit.top (u : HwUnit) (e : LaneSet) : Lane := u.lane (topLane e u.n)

/-- TRAP (18 R407). -/
def execTrap (h : Hdr) (a : Xr) (code : BitVec 14) (s : State) : Host.Outcome State Fault Refusal :=
  let i := Instr.trap h a code
  word i s (fun u e s =>
    (s.passWord u.id).raise u.id ((mkFaults e u.n 0xE0 u.pc u.widx).map (fun f =>
      { f with ops := u.srcs i f.lane, detail := (u.top e).X a })))

/-- ERET (18 R408). (DEDUCED, log 40.) -/
def execEret (h : Hdr) (a : Xr) (s : State) : Host.Outcome State Fault Refusal :=
  let i := Instr.eret h a
  word i s (fun u e s =>
    let t := (u.top e).X a
    if !u.sbZero then s.block u .counters
    else if t &&& 7 != 0 then s.raiseOp u i 0x14 e
    else if !canonical t then s.raiseAddr u i 0x70 e t
    else s.issueFixed u u.eret i e (.to t))

/-! ### WAKE (18 R409) -/

/-- A source operand of a word that executes once, as it read it. -/
def OutWord.src (o : OutWord) (n : Nat) : Word :=
  (((o.srcs.find? (fun (q : Nat × List Word) => q.1 == topLane o.lanes 1024)).map (fun (q : Nat × List Word) => q.2)).getD []).getD n 0
def OutWord.srcA (o : OutWord) : Word := o.src 0

/-- The device that an id names. -/
def idDev (w : Word) : Nat := (w.extractLsb' 46 18).toNat

/-- The word of a step that brings a word to effect after its release. -/
def State.lateOut (s : State) : Option OutWord := s.late.bind (fun id => s.outw.find? (fun (o : OutWord) => o.id == id))

/-- WAKE. (DEDUCED, log 40.) -/
def execWake (h : Hdr) (d a b : Xr) (s : State) : Host.Outcome State Fault Refusal :=
  let i := Instr.wake h d a b
  match s.lateOut with
  | some o =>
    if idDev o.val == s.devnum % 2 ^ 18 then
      let (r, s) := s.wakeUnit o.val o.val2
      .next (s.finishOut o.id (o.xAll d (BitVec.ofNat 64 r)))
    else .next (s.soon (.linkMessage s.devnum (idDev o.val) 0 [3, BitVec.ofNat 64 o.id, o.val, o.val2] 0))
  | none =>
    word i s (fun u e s =>
      let v := (u.top e).X b
      if v.extractLsb' 2 1 != 0 then s.raiseOp u i 0x94 e
      else s.issueLate u i e .sy (fun o => { o with val := (u.top e).X a, val2 := v }))

/-! ### SENDM, WAITM (18 R390, R394, R410, R411) -/

/-- SENDM. -/
def execSendm (h : Hdr) (sc : Scope) (d a b : Xr) (s : State) : Host.Outcome State Fault Refusal :=
  let i := Instr.sendm h sc d a b
  match s.lateOut with
  | some o =>
    match s.unit? o.unit with
    | none => .next (s.finishOut o.id [])
    | some u =>
      let to_ := o.srcA
      let d0 := msgDw0 0xF0 u.asid false false false u.msgs
      let d1 := u.id.word s.devnum
      let s : State := s.modUnit u.id (fun u => { u with msgs := u.msgs + 1 })
      if idDev to_ != s.devnum % 2 ^ 18 then
        .next (s.wire (chanOf (.unit u.id)) (.linkMessage s.devnum (idDev to_) 0
          [4, BitVec.ofNat 64 o.id, to_, d0, d1, o.val, o.val2, if u.super then 1 else 0] 0))
      else
        match s.named to_ with
        | none => .next (s.finishOut o.id (o.xAll d 2))
        | some t => .next (s.wire (chanOf (.unit u.id)) (.messageDelivery (.unit u.id) t.id d0 d1 o.val o.val2 0 o.id))
  | none =>
    word i s (fun u e s =>
      let refused := match s.named ((u.top e).X a) with | some t => !u.super && t.asid != u.asid | none => false
      if refused then s.raiseOp u i 0x92 e
      else s.issueLate u i e sc (fun o => { o with val := (u.top e).X b, val2 := (u.top e).X (b + 1) }))

/-- The register in which a SENDM takes its result. -/
def sendDst : Instr → Xr
  | .sendm _ _ d _ _ => d
  | .wake _ d _ _ => d
  | _ => 0

/-- The result of a SENDM, or of a WAKE of another device. -/
def State.sent (s : State) (oid : Nat) (v : Nat) : State :=
  match s.outw.find? (fun (o : OutWord) => o.id == oid) with
  | some o => s.finishOut oid (o.xAll (sendDst o.instr) (BitVec.ofNat 64 v))
  | none => s

/-- The oldest message, which a wait finds by the pending bit (18 R394). -/
def HwUnit.oldest (u : HwUnit) : Option Msg := if u.pending then u.inbox.head? else none

/-- A message enters an inbox: the pending bit is set, and a WAITM that waits learns of it. -/
def HwUnit.receive (u : HwUnit) (m : Msg) : HwUnit :=
  { u with inbox := u.inbox ++ [m], pending := true, wait := u.wait.map (fun w => if w.kind == .inbox then { w with poked := true } else w) }

/-- An earlier message of a source to the same target is yet to be delivered. -/
def State.behind (s : State) (src : Source) (dst : UKey) (seq : Nat) : Bool :=
  s.future.any (fun (q : Nat × Ev) => match q.2 with
    | .messageDelivery src' dst' d0 _ _ _ _ _ =>
      src' == src && dst' == dst && decide ((seq + 2 ^ 32 - d0.toNat % 2 ^ 32) % 2 ^ 32 < 2 ^ 31) && d0.toNat % 2 ^ 32 != seq
    | _ => false)

/-- MESSAGE_DELIVERY: an inbox takes a message, or refuses it with NAK; a fault message or event that is refused 256 times goes to
the host event queue (18 R390, R391). -/
def execMessageDelivery (s : State) : Host.Outcome State Fault Refusal :=
  match s.arg with
  | some (.messageDelivery src dst d0 d1 d2 d3 tries oid) =>
    let seq := d0.toNat % 2 ^ 32
    match s.unit? dst with
    | none =>
      if oid != 0 then .next (s.sent oid 2)
      else .next (s.wire (chanOf src) (.eventRecordWrite src seq d0 d1 d2 d3 (d0.extractLsb' 56 8).toNat))
    | some u =>
      if s.behind src dst seq then .next (s.at_ (s.now + 2) (.messageDelivery src dst d0 d1 d2 d3 tries oid))
      else if u.inbox.length < 4 then
        let s : State := s.touch dst (fun u => u.receive ⟨d0, d1, d2, d3⟩)
        .next (if oid != 0 then s.sent oid 0 else s)
      else if oid = 0 ∧ 255 ≤ tries then .next (s.wire (chanOf src) (.eventRecordWrite src seq d0 d1 d2 d3 (d0.extractLsb' 56 8).toNat))
      else .next (s.at_ (s.now + 32 * 2 ^ min (tries + 1) 8) (.messageDelivery src dst d0 d1 d2 d3 (tries + 1) oid))
  | _ => .next s

/-- The oldest message is taken and written to four registers, as an acquire. -/
def State.takeMsg (s : State) (u : HwUnit) (i : Instr) (e : LaneSet) (sc : Scope) (d : Xr) (m : Msg) : State :=
  let u' := { u with inbox := u.inbox.drop 1, pending := decide (1 < u.inbox.length) }
  let ws := [m.dw0, m.dw1, m.dw2, m.dw3].zipIdx.flatMap (fun (q : Word × Nat) => xAllOf u e (d + BitVec.ofNat 6 q.2) q.1)
  (s.qDone u u' i e ws).acquireUnit u sc

/-- WAITM. -/
def execWaitm (h : Hdr) (sc : Scope) (d : Xr) (s : State) : Host.Outcome State Fault Refusal :=
  let i := Instr.waitm h sc d
  word i s (fun u e s =>
    match u.oldest with
    | some m => s.takeMsg u i e sc d m
    | none => (s.block u .inbox).modUnit u.id (fun u => { u with wait := u.wait.map (fun w => { w with fails := max 1 w.fails }) }))

/-- WAITM.nb: an empty inbox gives zeros. (DEDUCED, log 40.) -/
def execWaitmNb (h : Hdr) (sc : Scope) (d : Xr) (s : State) : Host.Outcome State Fault Refusal :=
  let i := Instr.waitmNb h sc d
  word i s (fun u e s =>
    match u.oldest with
    | some m => s.takeMsg u i e sc d m
    | none => s.qDone u u i e ([0, 1, 2, 3].flatMap (fun (j : Nat) => xAllOf u e (d + BitVec.ofNat 6 j) 0)))

/-- WAITM_TIMED_RETRY: a WAITM whose inbox holds a message goes on; one that still waits has failed once more, and traps at the limit (18 R411,
10 R206). -/
def execWaitmTimedRetry (s : State) : Host.Outcome State Fault Refusal :=
  match s.arg with
  | some (.waitmTimedRetry k id) =>
    match s.unit? k with
    | none => .next s
    | some u =>
      match u.wait, u.waitingWord with
      | some w, some i =>
        if w.kind != .inbox || w.id != id || !s.testDue u w then .next s
        else if u.oldest.isSome then .next (s.setUnit u.unblock)
        else if s.waitLimit u.cluster ≤ w.fails then
          let u' := { u with wait := none }
          .next ((s.setUnit u').raiseOp u' i 0x95 (u.exec i.hdr))
        else .next (s.setUnit { u with wait := some { w with fails := w.fails + 1, last := s.now, poked := false } })
      | _, _ => .next s
  | _ => .next s

/-! ### The window (18 R412) -/

def selFile (sel : BitVec 14) : Nat := (sel.extractLsb' 11 3).toNat
def selIdx (sel : BitVec 14) : Nat := (sel.extractLsb' 0 11).toNat

/-- A valid selector and lane for a target. -/
def selOk (t : HwUnit) (sel : BitVec 14) (lane : Nat) (write : Bool) : Bool :=
  let j := selIdx sel
  (!t.team || decide (lane < t.n)) &&
  (match selFile sel with
  | 0 => decide (j < if t.team then t.k else 64)
  | 1 => decide (j < 16)
  | 2 => !t.team && decide (j < 256)
  | 3 => (srPriv (BitVec.ofNat 12 j)).isSome
  | 4 => j == 0
  | 5 => decide (j ≤ 1)
  | 6 => !write && decide (j < 32)
  | _ => false)

/-- The doubleword that a selector names in a unit. -/
def State.winRead (s : State) (t : HwUnit) (sel : BitVec 14) (lane : Nat) : Word :=
  let j := selIdx sel
  let l := t.lane lane
  match selFile sel with
  | 0 => l.X (BitVec.ofNat 6 j)
  | 1 => if l.P (BitVec.ofNat 4 j) then 1 else 0
  | 2 => (t.V (BitVec.ofNat 5 (j / 8))).extractLsb' (64 * (j % 8)) 64
  | 3 => s.sr t lane (BitVec.ofNat 12 j)
  | 4 => t.packSb
  | 5 => if j = 0 then t.pc else BitVec.ofNat 64 t.widx
  | _ => if t.area = 0 then t.frec.getD j 0 else s.r64 (t.area + 0x80 + 8 * j)

/-- The register that a selector names takes a value; parity is written with it (07 R132). -/
def State.winWrite (s : State) (t : HwUnit) (sel : BitVec 14) (lane : Nat) (v : Word) : State :=
  let j := selIdx sel
  let upd := fun (f : HwUnit → HwUnit) => s.touch t.id f
  match selFile sel with
  | 0 => upd (fun u => { u.mapLanes (lane1 lane) (fun _ l => l.setX (BitVec.ofNat 6 j) v) with bad := u.bad.filter (fun b => !(b.file == .x && b.lane == lane && b.idx == j)) })
  | 1 => upd (fun u => { u.mapLanes (lane1 lane) (fun _ l => l.setP (BitVec.ofNat 4 j) (v.getLsbD 0)) with bad := u.bad.filter (fun b => !(b.file == .p && b.lane == lane && b.idx == j)) })
  | 2 => upd (fun u =>
      let r := BitVec.ofNat 5 (j / 8)
      let m : VReg := BitVec.ofNat 512 ((2 ^ 64 - 1) * 2 ^ (64 * (j % 8)))
      { u.setVr r ((u.V r &&& ~~~m) ||| BitVec.ofNat 512 (v.toNat * 2 ^ (64 * (j % 8)))) with bad := u.bad.filter (fun b => !(b.file == .v && b.idx == j)) })
  | 3 =>
    let s : State := (s.touch t.id (fun u => { u with bad := u.bad.filter (fun b => !(b.file == .sr && b.idx == j)) })).setSr t (BitVec.ofNat 12 j) v
    if t.resident then s else s.writeImage t.id
  | 4 => upd (fun u => { u with sb := unpackSb v })
  | _ =>
    let s : State := s.modUnit t.id (fun u =>
      let u := if j = 0 then { u with pc := v &&& ~~~(7 : Word) } else { u with widx := (v.extractLsb' 0 5).toNat }
      { u with frec := u.frec.set 4 (resumeDw u.pc u.widx) })
    s.writeArea t.id

/-- The target of a window word, or the cause with which it is refused. -/
def State.winTarget (s : State) (id lane : Word) (sel : BitVec 14) (write : Bool) : Except Nat HwUnit :=
  match s.named id with
  | none => .error 0x90
  | some t =>
    if t.status == .running then .error 0x90
    else if selOk t sel (if t.team then (lane.extractLsb' 0 10).toNat else 0) write then .ok t else .error 0x91

/-- A window word: a release, the access, an acquire, all at .sy. -/
def windowWord (i : Instr) (a b : Xr) (sel : BitVec 14) (write : Bool) (s : State) (val : HwUnit → LaneSet → Word)
    (act : OutWord → HwUnit → Nat → State → List RegWrite × State) : Host.Outcome State Fault Refusal :=
  match s.lateOut with
  | some o =>
    match s.winTarget (o.src (if write then 1 else 0)) o.val sel write with
    | .error c => .next (s.failOut o.id c)
    | .ok t =>
      let s : State := s.loadImage t.id
      let s : State := s.pullArea t.area 0x200
      let (ws, s) := act o ((s.unit? t.id).getD t) (if t.team then (o.val.extractLsb' 0 10).toNat else 0) s
      let s : State := s.finishOut o.id ws
      match s.unit? o.unit with
      | some u => .next (s.acquireUnit u .sy)
      | none => .next s
  | none =>
    word i s (fun u e s =>
      match s.winTarget ((u.top e).X a) ((u.top e).X b) sel write with
      | .error c => s.raiseOp u i c e
      | .ok _ => s.issueLate u i e .sy (fun o => { o with val := (u.top e).X b, val2 := val u e }))

/-- WINRD. (DEDUCED, log 40.) -/
def execWinrd (h : Hdr) (d a b : Xr) (sel : BitVec 14) (s : State) : Host.Outcome State Fault Refusal :=
  windowWord (.winrd h d a b sel) a b sel false s (fun _ _ => 0) (fun o t lane s => (o.xAll d (s.winRead t sel lane), s))

/-- WINWR. -/
def execWinwr (h : Hdr) (d a b : Xr) (sel : BitVec 14) (s : State) : Host.Outcome State Fault Refusal :=
  windowWord (.winwr h d a b sel) a b sel true s (fun u e => (u.top e).X d) (fun o t lane s => ([], s.winWrite t sel lane o.val2))

/-! ### The host event queue (18 R396, 19 R426) -/

/-- The source field of an event record. -/
def Source.field (src : Source) (devnum : Nat) : Nat :=
  match src with
  | .unit u => (u.word devnum).toNat / 2 ^ 29 * 2 ^ 20 + u.inc % 2 ^ 16
  | .num n => 2 ^ 55 + n % 256
  | .farUnit dev u => (u.word dev).toNat / 2 ^ 29 * 2 ^ 20 + u.inc % 2 ^ 16
  | .farNum _ n => 2 ^ 55 + n % 256

/-- EVENT_RECORD_WRITE: the record is written, the produce count advanced, and then the vector sent; a full ring refuses it. (DEDUCED, log 17.) -/
def execEventRecordWrite (s : State) : Host.Outcome State Fault Refusal :=
  match s.arg with
  | some (.eventRecordWrite src seq d0 d1 d2 d3 cause) =>
    let ev : Ev := .eventRecordWrite src seq d0 d1 d2 d3 cause
    let size := (s.hub.eqCtl.extractLsb' 0 5).toNat
    if 2 ^ size ≤ (s.hub.eqProd + 2 ^ 32 - s.hub.eqCons) % 2 ^ 32 then .next (s.nak ev)
    else
      let s : State := s.nakDone ev
      let at_ := s.hub.eqBase.toNat / 4096 * 4096 % 2 ^ 52 + 64 * (s.hub.eqProd % 2 ^ size)
      let dws := [BitVec.ofNat 64 (s.hub.eqProd % 2 ^ 32 * 2 ^ 32 + seq % 2 ^ 32), BitVec.ofNat 64 (cause % 256 * 2 ^ 56 + Source.field src s.devnum),
        d0, d1, d2, d3, 0, 0]
      let s : State := s.hostWrite at_ 64 (dws.foldr (fun (w : Word) acc => acc * 2 ^ 64 + w.toNat) 0)
      let s : State := { s with hub := { s.hub with eqProd := (s.hub.eqProd + 1) % 2 ^ 32 } }
      .next (if s.hub.eqCtl.getLsbD 63 then { s with msix := (s.hub.eqCtl.extractLsb' 32 11).toNat :: s.msix } else s)
  | _ => .next s

end Sys2Proof.Machine
end

