-- ==== Sys2Proof/Machine/Launch.lean ====
section
/-! DEFINITION. Launch.lean: launch queues and their commands, the dispatcher, and the completion of records (18 R380 to R389, R398,
R413, R414; 23 R449). -/

namespace Sys2Proof.Machine

/-! ### Launch records (18 Table 18-6) -/

def Rec.dw (r : Rec) (i : Nat) : Word := r.dws.getD i 0
def Rec.fld (r : Rec) (i lo n : Nat) : Nat := ((r.dw i).extractLsb' lo n).toNat
def Rec.entry (r : Rec) : Word := r.dw 0
def Rec.ctx (r : Rec) : Nat := r.fld 1 20 12
def Rec.kclass (r : Rec) : BitVec 2 := (r.dw 1).extractLsb' 18 2
def Rec.csc (r : Rec) : Nat := r.fld 1 15 3
def Rec.urgent (r : Rec) : Bool := (r.dw 1).getLsbD 14
def Rec.team (r : Rec) : Bool := (r.dw 1).getLsbD 13
def Rec.w (r : Rec) : Nat := if r.team then 4 * 2 ^ r.fld 1 11 2 else 1
def Rec.k (r : Rec) : Nat := if r.team then 16 * (r.fld 1 9 2 + 1) else 64
def Rec.n (r : Rec) : Nat := r.fld 6 0 10 + 1
def Rec.irq (r : Rec) : Bool := (r.dw 1).getLsbD 8
def Rec.super (r : Rec) : Bool := (r.dw 1).getLsbD 7
def Rec.count (r : Rec) : Nat := r.fld 2 32 32
def Rec.wexit (r : Rec) : Nat := r.fld 2 0 32
def Rec.cmp (r : Rec) : Word := r.dw 4
def Rec.flags (r : Rec) : Word := r.dw 5
def Rec.relval (r : Rec) : Nat := r.fld 6 32 32
def Rec.tper (r : Rec) : Nat := r.fld 6 16 16
def Rec.dep (r : Rec) : Option (Nat × Nat) := if (r.dw 7).getLsbD 25 then some (r.fld 7 26 6, r.fld 7 32 32) else none
def Rec.gsz (r : Rec) : Nat := r.fld 7 16 9
def Rec.onDie (r : Rec) (d : Nat) : Bool := r.fld 7 0 4 == 0 || (r.dw 7).getLsbD d
def Rec.is (r : Rec) (q seq : Nat) : Bool := r.q == q && r.seq == seq

/-- The fields of a record are valid (18 R381); `super`: the announcement that made it visible had supervisor privilege. -/
def Rec.valid (r : Rec) (next : Nat) (super : Bool) : Bool :=
  r.fld 1 32 32 == next && r.fld 1 0 7 == 0 && r.fld 6 10 6 == 0 && r.fld 7 4 12 == 0 && r.kclass != 3 && decide (r.csc ≤ 5) && r.count != 0 &&
  (if r.team then r.n % r.w == 0 else r.n == 1) && (r.flags == 0 || r.tper != 0) && r.entry &&& 7 == 0 && decide (r.gsz ≤ 256) &&
  r.cmp &&& 15 == 0 && r.flags &&& 3 == 0 && (!r.super || super)

def State.modRec (s : State) (q seq : Nat) (f : Rec → Rec) : State :=
  { s with hub := { s.hub with recs := s.hub.recs.map (fun (r : Rec) => if r.is q seq then f r else r) } }

def State.rec? (s : State) (q seq : Nat) : Option Rec := s.hub.recs.find? (fun (r : Rec) => r.is q seq)
def State.current (s : State) (q : Nat) : Option Rec := s.hub.recs.find? (fun (r : Rec) => r.q == q && r.current)

/-! ### Control blocks (18 R380) -/

def State.lq (s : State) (q : Nat) : LQueue := s.hub.queues.toList.getD q LQueue.reset
def State.modLq (s : State) (q : Nat) (f : LQueue → LQueue) : State :=
  { s with hub := { s.hub with queues := s.hub.queues.setIfInBounds q (f (s.lq q)) } }

def QState.code : QState → Nat
  | .stop => 0 | .run => 1 | .drain => 2 | .abort => 3

def State.blockOf (s : State) (q : Nat) : Nat := s.hub.lqbase.toNat + 64 * q

/-- dw2 of a control block. -/
def LQueue.dw2 (l : LQueue) : Word := BitVec.ofNat 64 (l.lastacc % 2 ^ 32 * 2 ^ 32 + l.lastcmp % 2 ^ 32)
def LQueue.dw3 (l : LQueue) : Word := BitVec.ofNat 64 (l.st.code * 2 ^ 62 + l.next % 2 ^ 32)

/-- The hub writes the read-only fields into a queue's block. -/
def State.syncQ (s : State) (q : Nat) : State :=
  let a := s.blockOf q + 16
  if deviceBytes ≤ a then s else s.homeWrite ⟨.dev, a⟩ 16 ((s.lq q).dw2.toNat + 2 ^ 64 * (s.lq q).dw3.toNat)

/-- dw0 and dw1 of a block, where the block is valid. -/
def State.lqBlock (s : State) (q : Nat) : Option (Word × Word) × State :=
  let a := s.blockOf q
  if deviceBytes ≤ a + 16 then (none, s)
  else
    let (v, s) := s.homeRead ⟨.dev, a⟩ 16
    let d0 : Word := BitVec.ofNat 64 v
    let d1 : Word := BitVec.ofNat 64 (v / 2 ^ 64)
    let size := (d0.extractLsb' 0 6).toNat
    if size < 4 ∨ 20 < size ∨ d0.extractLsb' 52 12 != 0 ∨ d1.extractLsb' 2 14 != 0 then (none, s) else (some (d0, d1), s)

/-! ### Holds and groups of records (18 R384) -/

/-- A record holds its harnesses no more; those without a team dissolve. -/
def State.unhold (s : State) (q seq : Nat) : State :=
  let mine := s.harnesses.filter (fun (h : Harness) => h.heldFor == some (q, seq))
  mine.foldl (fun s h => (s.modHarness h.cluster h.base (fun h => { h with heldFor := none })).maybeDissolve h.cluster h.base) s

/-- A record places no further instance: its hold ends, and its groups await no member. -/
def State.stopPlacing (s : State) (q seq : Nat) : State :=
  match s.rec? q seq with
  | none => s
  | some r =>
    let s : State := (s.modRec q seq (fun r => { r with current := false })).unhold q seq
    r.groups.foldl (fun s g =>
      let s : State := s.modGroup g.2.1 g.2.2 (fun x => { x with due := 0 })
      match s.group? g.2.1 g.2.2 with
      | some x => if x.members.isEmpty then s.modCluster g.2.1 (fun cl => { cl with groups := cl.groups.filter (fun (y : Group) => y.idx != g.2.2) })
                  else s.groupCheck g.2.1 g.2.2
      | none => s) s

/-! ### Commands (18 R386) -/

/-- A queue whose accepted records have all completed stops. -/
def State.settleQ (s : State) (q : Nat) : State :=
  let st := (s.lq q).st
  if (st == .drain || st == .abort) && !s.hub.recs.any (fun (r : Rec) => r.q == q) then s.modLq q (fun l => { l with st := .stop }) else s

/-- The producer of a record completed ABORTED or ABORTED-DEPENDENCY. -/
def State.depAborted (s : State) (r : Rec) : Bool :=
  match r.dep with
  | none => false
  | some (dq, ds) => s.hub.ended.any (fun (e : Ended) => e.q == dq && e.seq == ds && (e.st == 2 || e.st == 3))

/-- A unit to which an instance of a record belongs. -/
def HwUnit.of (u : HwUnit) (q seq : Nat) : Bool :=
  (List.range u.n).any (fun l => !u.exited.getLsbD l && (match u.inst.getD l none with | some i => i.q == q && i.seq == seq | none => false))

/-- A kill is on its way to a unit, or has reached it. -/
def State.dying (s : State) (u : HwUnit) : Bool :=
  u.killed || (match u.preempt with | some p => p.mode == .kill | none => false) ||
  s.future.any (fun q => match q.2 with | .preemptionArrival k .kill _ => k == u.id | _ => false)

/-- Every unit in which an instance of a record of an aborted queue lives is killed: those that stand as it is aborted, and those that come of them
by CINCH or a split (18 R386). -/
def State.killAborted (s : State) : State :=
  (s.hub.recs.filter (fun (r : Rec) => (s.lq r.q).st == .abort)).foldl (fun (s : State) r =>
    (s.units.filter (fun (u : HwUnit) => u.of r.q r.seq && !s.dying u)).foldl (fun s u => s.preemptAt u.id .kill 0) s) s

/-- ABORT (18 R386, R387). What a record completes with is settled as it completes. -/
def State.abortQ (s : State) (q : Nat) : State :=
  let s : State := s.modLq q (fun l => if l.st == .stop then l else { l with st := .abort })
  let s : State := (s.hub.recs.filter (fun (r : Rec) => r.q == q)).foldl (fun s r =>
    (s.modRec q r.seq (fun r => { r with abort := if r.abort = 0 then 2 else r.abort })).stopPlacing q r.seq) s
  s.killAborted.settleQ q

/-- A command on a queue whose block is valid: 0 advance, 1 drain, 2 abort, 3 reset, 4 run. -/
def State.lqApply (s : State) (q cmd value : Nat) (super : Bool) (d0 d1 : Word) : State :=
  let s : State := s.modLq q (fun l => { l with
    base := (d0.extractLsb' 6 46).toNat * 64, size := (d0.extractLsb' 0 6).toNat, asid := (d1.extractLsb' 16 16).toNat, prio := (d1.extractLsb' 0 2).toNat })
  let s : State := match cmd with
    | 0 =>
      let s : State := s.modLq q (fun l => { l with prod := value, ann := l.ann ++ [(value, super)] })
      s.homeWrite ⟨.dev, s.blockOf q + 8⟩ 8 (value % 2 ^ 32 * 2 ^ 32 + d1.toNat % 2 ^ 32)
    | 1 => (s.modLq q (fun l => if l.st == .run then { l with st := .drain } else l)).settleQ q
    | 2 => s.abortQ q
    | 3 =>
      -- records from that one on have yet to run, whatever became of earlier ones of their numbers
      let s : State := if (s.lq q).st == .stop then { s with hub := { s.hub with ended := s.hub.ended.filter (fun (e : Ended) =>
        !(e.q == q && decide ((e.seq + 2 ^ 32 - value % 2 ^ 32) % 2 ^ 32 < 2 ^ 31))) } } else s
      s.modLq q (fun l => if l.st == .stop then { l with next := value, lastacc := (value + 2 ^ 32 - 1) % 2 ^ 32, lastcmp := (value + 2 ^ 32 - 1) % 2 ^ 32, done := [] } else l)
    | _ => s.modLq q (fun l => if l.st == .stop then { l with st := .run } else l)
  s.syncQ q

/-- LAUNCH (18 R414). -/
def launchWord (i : Instr) (d a : Xr) (cmd : Nat) (s : State) : Host.Outcome State Fault Refusal :=
  match s.late.bind (fun id => s.outw.find? (fun (o : OutWord) => o.id == id)) with
  | some o =>
    let q := (o.val.extractLsb' 0 6).toNat
    match s.lqBlock q with
    | (none, s) => .next (s.failOut o.id 0x93)
    | (some (d0, d1), s) =>
      if !o.val2.getLsbD 16 && d1.extractLsb' 16 16 != o.val2.extractLsb' 0 16 then .next (s.failOut o.id 0x93)
      else
        let s : State := s.lqApply q 0 (o.val.extractLsb' 32 32).toNat (o.val2.getLsbD 16) d0 d1
        .next (s.finishOut o.id (o.xAll d (s.lq q).dw2))
  | none =>
    word i s (fun u e s =>
      let v := (u.lane (topLane e u.n)).X a
      let q := (v.extractLsb' 0 6).toNat
      if v.extractLsb' 6 26 != 0 then s.raiseOp u i 0x93 e
      else if cmd = 0 then s.issueLate u i e .dv (fun o => { o with val := v, val2 := BitVec.ofNat 64 (u.asid % 2 ^ 16 + if u.super then 2 ^ 16 else 0) })
      else
        match s.lqBlock q with
        | (none, s) => s.raiseOp u i 0x93 e
        | (some (d0, d1), s) =>
          let dw := ((s.lqApply q cmd (v.extractLsb' 32 32).toNat true d0 d1).lq q).dw2
          (s.qDone u u i e (xAllOf u e d dw)).lqApply q cmd (v.extractLsb' 32 32).toNat true d0 d1)

/-- LAUNCH. -/
def execLaunch (h : Hdr) (d a : Xr) (s : State) : Host.Outcome State Fault Refusal := launchWord (.launch h d a) d a 0 s
/-- LAUNCH.drain. -/
def execLaunchDrain (h : Hdr) (d a : Xr) (s : State) : Host.Outcome State Fault Refusal := launchWord (.launchDrain h d a) d a 1 s
/-- LAUNCH.abort. -/
def execLaunchAbort (h : Hdr) (d a : Xr) (s : State) : Host.Outcome State Fault Refusal := launchWord (.launchAbort h d a) d a 2 s
/-- LAUNCH.reset. -/
def execLaunchReset (h : Hdr) (d a : Xr) (s : State) : Host.Outcome State Fault Refusal := launchWord (.launchReset h d a) d a 3 s
/-- LAUNCH.run. -/
def execLaunchRun (h : Hdr) (d a : Xr) (s : State) : Host.Outcome State Fault Refusal := launchWord (.launchRun h d a) d a 4 s

/-- A doorbell, once bring-up is over (20 R439): the host counts as supervisor; an invalid block discards it, with the event 0xA3 (18 R380, 19 R419). -/
def State.doorbell (s : State) (q cmd value : Nat) : State :=
  if !s.hub.ready || s.hub.trip then s
  else match s.lqBlock q with
  | (none, s) => s.hubEvent 3 0xA3 0x40 (BitVec.ofNat 64 (value % 2 ^ 32 * 2 ^ 32 + cmd * 2 ^ 8 + q))
  | (some (d0, d1), s) => s.lqApply q cmd value true d0 d1

/-- DOORBELL_ADVANCE. -/
def execDoorbellAdvance (s : State) : Host.Outcome State Fault Refusal :=
  match s.arg with
  | some (.doorbellAdvance q v) => .next (s.doorbell (q % 64) 0 v)
  | _ => .next s
/-- DOORBELL_DRAIN. -/
def execDoorbellDrain (s : State) : Host.Outcome State Fault Refusal :=
  match s.arg with
  | some (.doorbellDrain q) => .next (s.doorbell (q % 64) 1 0)
  | _ => .next s
/-- DOORBELL_ABORT. -/
def execDoorbellAbort (s : State) : Host.Outcome State Fault Refusal :=
  match s.arg with
  | some (.doorbellAbort q) => .next (s.doorbell (q % 64) 2 0)
  | _ => .next s
/-- DOORBELL_RESET. -/
def execDoorbellReset (s : State) : Host.Outcome State Fault Refusal :=
  match s.arg with
  | some (.doorbellReset q v) => .next (s.doorbell (q % 64) 3 v)
  | _ => .next s
/-- DOORBELL_RUN. -/
def execDoorbellRun (s : State) : Host.Outcome State Fault Refusal :=
  match s.arg with
  | some (.doorbellRun q) => .next (s.doorbell (q % 64) 4 0)
  | _ => .next s

/-! ### Tile flags (18 R383) -/

/-- The value of a tile's flag, through the record's address space, and its frame; an unreadable flag is unmet. (DEDUCED, log 37.) -/
def State.flagOf (s : State) (r : Rec) (t : Nat) : Option (Nat × PAddr) × State :=
  let va := r.flags + BitVec.ofNat 64 (4 * t)
  if !canonical va then (none, s)
  else
    match s.walk r.asid (va.toNat % 2 ^ 57) .read true with
    | (.ok x .., s) =>
      let (v, s) := s.homeRead ⟨x.pf.space, x.pf.addr * 128 + va.toNat % 128⟩ 4
      (some (v, x.pf), s)
    | (_, s) => (none, s)

/-- A frame among others, once. -/
def insertFrame (pf : PAddr) (l : List PAddr) : List PAddr := if l.contains pf then l else l ++ [pf]

def Rec.tiles (r : Rec) : Nat := if r.tper = 0 then 0 else (r.count + r.tper - 1) / r.tper

/-- Reads the flags of a record that are unmet, and notes where those that stay so lie. -/
def State.rereadFlags (s : State) (q : Nat) : State :=
  match s.current q with
  | none => s
  | some r =>
    if r.flags = 0 then s
    else ((List.range r.tiles).filter (fun t => !r.released.contains t)).foldl (fun s t =>
      match s.flagOf r t with
      | (some (v, pf), s) => s.modRec q r.seq (fun r =>
        if r.relval ≤ v then { r with released := r.released ++ [t] } else { r with flagFrames := insertFrame pf r.flagFrames })
      | (none, s) => s) (s.modRec q r.seq (fun r => { r with flagFrames := [] }))

/-- The next reading falls within 1,024 fabric cycles, while a flag of the current record is unmet. -/
def State.flagsAgain (s : State) (q : Nat) : State :=
  match s.current q with
  | none => s
  | some r =>
    if r.flags != 0 && decide (r.released.length < r.tiles) && !s.future.any (fun (e : Nat × Ev) => e.2 == .tileFlagReread q) then
      { s with fresh := s.fresh + 1 }.at_ (s.now + 1 + Config.latency s.fresh % 2047) (.tileFlagReread q)
    else s

/-- TILE_FLAG_REREAD. (DEDUCED, log 37.) -/
def execTileFlagReread (s : State) : Host.Outcome State Fault Refusal :=
  match s.arg with
  | some (.tileFlagReread q) => .next ((s.rereadFlags q).flagsAgain q)
  | _ => .next s

/-! ### Acceptance (18 R376, R381, R384) -/

/-- A context's descriptor names a new generation: its error budget starts anew and its stopes end (18 R376). (DEDUCED, log 23.) -/
def State.newGen (s : State) (ctx gen budget : Nat) : State :=
  if s.hub.gens.any (fun g => g.1 == ctx && g.2 == gen) then s
  else
    { s.setErrbudget ctx (BitVec.ofNat 64 (budget % 2 ^ 32)) with
      stopes := s.stopes.filter (fun (t : Stope) => t.ctx != ctx),
      hub := { s.hub with gens := (ctx, gen) :: s.hub.gens.filter (fun g => g.1 != ctx) } }

/-- The hub reads a descriptor: its dw0 (18 R376). (DEDUCED, log 23.) -/
def State.readDesc (s : State) (ctx : Nat) : Word × State :=
  let (c0, s) := s.ctxDw ctx 0
  let (c1, s) := s.ctxDw ctx 1
  (c0, s.newGen ctx (c0.extractLsb' 32 16).toNat (c1.extractLsb' 32 32).toNat)

/-- A record of the ring; one that lies outside device memory reads as zeros, which is no valid record. -/
def State.readRec (s : State) (a : Nat) : List Word × State :=
  if deviceBytes ≤ a + 64 then (List.replicate 8 0, s)
  else
    let (v, s) := s.homeRead ⟨.dev, a⟩ 64
    ((List.range 8).map (fun i => BitVec.ofNat 64 (v / 2 ^ (64 * i))), s)

/-- Announcements that do not reach the record at `seq` are passed, but for the latest: what it has made visible stays so. -/
def passed (seq : Nat) : List (Nat × Bool) → List (Nat × Bool)
  | [] => []
  | [x] => [x]
  | (p, b) :: x :: r => let d := (p + 2 ^ 32 - seq % 2 ^ 32) % 2 ^ 32
                        if 0 < d ∧ d < 2 ^ 31 then (p, b) :: x :: r else passed seq (x :: r)

/-- The record at index next of a queue is accepted, or completes BADREC. (DEDUCED, log 23, 37.) -/
def State.acceptRec (s : State) (q : Nat) : State :=
  let l := s.lq q
  let (dws, s) := s.readRec (l.base + 64 * (l.next % 2 ^ l.size))
  let r : Rec := { q := q, seq := l.next, dws := dws, asid := 0, since := s.now, placed := [], next := 0, retired := [], released := [],
                   groups := [], any := false, abort := 0, current := true, flagFrames := [], units := [] }
  let (c0, s) := s.readDesc r.ctx
  let ann := passed l.next l.ann
  let super := match ann with | (_, b) :: _ => b | [] => true
  let ok := r.valid l.next super && c0.getLsbD 63
  let r := { r with asid := (c0.extractLsb' 0 16).toNat }
  let r := if !ok then { r with abort := 4, current := false } else if s.depAborted r then { r with abort := 3, current := false } else r
  let s : State := s.modLq q (fun l => { l with next := (l.next + 1) % 2 ^ 32, ann := ann, lastacc := if ok then r.seq else l.lastacc })
  let s : State := { s with hub := { s.hub with recs := s.hub.recs ++ [r] } }
  ((s.rereadFlags q).flagsAgain q).syncQ q

/-- Every queue in RUN without a current record accepts its next. -/
def State.acceptAll (s : State) : State :=
  (List.range 64).foldl (fun s q =>
    if (s.lq q).st == .run && (s.current q).isNone && (s.lq q).prod != (s.lq q).next then s.acceptRec q else s) s

/-! ### Places (05 R84, R94; 18 R384) -/

/-- A place for a unit: the pipeline or the base of the harness, the slot, the row, and whether the harness is yet to be formed. -/
structure Spot where
  cluster : Nat
  pipe : Nat
  slot : Nat
  row  : Nat
  form : Bool
deriving DecidableEq, Repr

def State.inHarness (s : State) (c p : Nat) : Bool :=
  s.harnesses.any (fun (h : Harness) => h.cluster == c && decide (h.base ≤ p) && decide (p < h.base + h.width))

def State.inRdv (s : State) (c p : Nat) : Bool :=
  (s.cluster c).rdv.any (fun (r : Rdv) => decide (r.base ≤ p) && decide (p < r.base + r.w))

/-- A pipeline that takes ordinary threads. -/
def State.openPipe (s : State) (c p : Nat) : Bool := !s.inHarness c p && !s.inRdv c p

def State.threadSpots (s : State) (c : Nat) (urgent : Bool) : List Spot :=
  (List.range 32).flatMap (fun p =>
    if urgent then (if !s.inHarness c p && (s.at? c p 7 false).isNone then [⟨c, p, 7, 0, false⟩] else [])
    else if s.openPipe c p then ((List.range 7).filter (fun sl => (s.at? c p sl false).isNone)).map (fun sl => ⟨c, p, sl, 0, false⟩) else [])

def HwUnit.rows (u : HwUnit) : Nat := u.n / max 1 u.w * u.k

/-- The lowest base of a run of rows that no ordinary team of a harness uses (05 R94). -/
def freeRow (ts : List HwUnit) (rows : Nat) : Option Nat :=
  let ts := ts.filter (fun (u : HwUnit) => u.slot != 7)
  let starts := 0 :: ts.map (fun (u : HwUnit) => u.rowBase + u.rows)
  let ok := starts.filter (fun b => decide (b + rows ≤ Config.ordinaryRows) &&
    ts.all (fun (u : HwUnit) => decide (b + rows ≤ u.rowBase) || decide (u.rowBase + u.rows ≤ b)))
  ok.foldl (fun m b => match m with | some x => some (min x b) | none => some b) none

/-- Places for a team in harnesses of a cluster that a test admits. -/
def State.harnessSpots (s : State) (c w n k : Nat) (urgent : Bool) (fits : Harness → Bool) : List Spot :=
  let rows := n / max 1 w * k
  (s.harnesses.filter (fun (h : Harness) => h.cluster == c && h.width == w && fits h)).flatMap (fun (h : Harness) =>
    let ts := s.teamsOf c h.base
    if urgent then (if decide (rows ≤ 320) && !ts.any (fun (u : HwUnit) => u.slot == 7) then [⟨c, h.base, 7, Config.ordinaryRows, false⟩] else [])
    else match freeRow ts rows with
      | some b => ((List.range 7).filter (fun sl => !ts.any (fun (u : HwUnit) => u.slot == sl))).map (fun sl => ⟨c, h.base, sl, b, false⟩)
      | none => [])

/-- Bases at which a harness may be formed for a team. -/
def State.formSpots (s : State) (c w n k : Nat) : List Spot :=
  if n / max 1 w * k ≤ Config.ordinaryRows then
    ((List.range (32 / max 1 w)).map (· * w)).filterMap (fun b =>
      if (List.range w).all (fun i => s.openPipe c (b + i) && (List.range 8).all (fun sl => (s.at? c (b + i) sl false).isNone)) then
        some ⟨c, b, 0, 0, true⟩
      else none)
  else []

/-- Places for an instance of a record in a cluster; a harness held for it comes first. An urgent team takes slot 7 of any harness of its width,
held or not (05 R106). -/
def State.spots (s : State) (r : Rec) (c : Nat) : List Spot :=
  if r.team then
    let held := s.harnessSpots c r.w r.n r.k r.urgent (fun h => h.heldFor == some (r.q, r.seq))
    if !held.isEmpty then held
    else if r.urgent then s.harnessSpots c r.w r.n r.k true (fun _ => true)
    else s.harnessSpots c r.w r.n r.k false (fun h => h.heldFor.isNone) ++ s.formSpots c r.w r.n r.k
  else s.threadSpots c r.urgent

/-- One of several places; the spec does not say which (log 12). (DESIGN CHOICE, log 12.) -/
def State.pick (s : State) (l : List Spot) : Option Spot := l[Config.choice s.fresh % l.length]?

/-- Clusters in the order in which they are tried. -/
def State.clusterOrder (s : State) : List Nat := (List.range Config.clusters).map (fun i => (s.hub.lastCl + 1 + i) % Config.clusters)

/-! ### Instances -/

/-- The lowest number from `lo` up to `hi` that a test does not take; `n` bounds how many it takes. -/
def lowestFree (gone : Nat → Bool) (hi : Nat) : Nat → Nat → Option Nat
  | _, 0 => none
  | lo, n + 1 => if hi ≤ lo then none else if gone lo then lowestFree gone hi (lo + 1) n else some lo

/-- Released instances of a record that are not placed, ascending: of each of its groups that has an entry the lowest, and the lowest whose group has
none, tile by tile; the others of a group fit where that one does. -/
def Rec.waiting (r : Rec) : List Nat :=
  let gone := fun (i : Nat) => r.placed.contains i || r.retired.any (fun q => q.1 == i)
  let fuel := r.placed.length + r.retired.length + 1
  let ranges := if r.flags = 0 then [(0, r.count)] else r.released.map (fun t => (t * r.tper, min r.count ((t + 1) * r.tper)))
  if r.count ≤ r.next then []
  else
    let all := ranges.flatMap (fun ab =>
      if r.gsz = 0 then (lowestFree gone ab.2 ab.1 fuel).toList
      else
        r.groups.filterMap (fun g => lowestFree gone (min ab.2 ((g.1 + 1) * r.gsz)) (max ab.1 (g.1 * r.gsz)) fuel) ++
        ((lowestFree (fun g => r.groups.any (fun q => q.1 == g)) ((ab.2 + r.gsz - 1) / r.gsz) (ab.1 / r.gsz) (r.groups.length + 1)).map
          (fun g => max ab.1 (g * r.gsz))).toList)
    all.foldl (fun l i => insertNat i l) []

/-- The group of an instance, and its entry if it has one. -/
def Rec.groupOf (r : Rec) (i : Nat) : Option (Nat × Option (Nat × Nat)) :=
  if r.gsz = 0 then none else some (i / r.gsz, (r.groups.find? (fun g => g.1 == i / r.gsz)).map (·.2))

/-- Whether a place in a cluster can hold an instance's group membership (17 R369). -/
def State.groupFits (s : State) (r : Rec) (i : Nat) (sp : Spot) : Bool :=
  match r.groupOf i with
  | none => true
  | some (_, some (c, idx)) => c == sp.cluster && (match s.group? c idx with | some g => !g.members.contains (8 * sp.pipe + sp.slot) | none => true)
  | some (_, none) => decide ((s.cluster sp.cluster).groups.length < 256)

/-- A place for an instance: of the first cluster that has one. -/
def State.spotFor (s : State) (r : Rec) (i : Nat) : Option Spot :=
  s.clusterOrder.findSome? (fun c =>
    if r.onDie (c / Config.clustersPerDie) then s.pick ((s.spots r c).filter (s.groupFits r i)) else none)

/-- The harness of a place, formed if need be (05 R95); `q`, `seq`: the record for which it is then held. -/
def State.formAt (s : State) (sp : Spot) (w : Nat) (hold : Option (Nat × Nat)) : State :=
  if sp.form then
    let h := { Harness.fresh sp.cluster sp.pipe w with heldFor := hold }
    ({ s with harnesses := s.harnesses ++ [h] } : State).bankSwitch h
  else s

/-- The creation number of the next team of a harness; the count grows. -/
def State.nextOrder (s : State) (c b : Nat) : Nat × State :=
  (((s.harness? c b).map (·.created)).getD 0, s.modHarness c b (fun h => { h with created := h.created + 1 }))

/-- An instance joins its group as index 0 of its unit (18 R382). -/
def State.joinGroup (s : State) (r : Rec) (i : Nat) (k : UKey) (asid : Nat) (sp : Spot) : State :=
  let bit := 8 * sp.pipe + sp.slot
  match r.groupOf i with
  | none => s
  | some (_, some (c, idx)) =>
    (s.modGroup c idx (fun g => { g with members := g.members ++ [bit], due := g.due - 1 })).modUnit k (fun u => { u with groups := u.groups.set 0 (some idx) })
  | some (g, none) =>
    let idx := ((List.range 256).find? (fun j => (s.group? sp.cluster j).isNone)).getD 0
    let size := min r.gsz (r.count - g * r.gsz)
    let s : State := s.modCluster sp.cluster (fun cl => { cl with groups := cl.groups ++ [⟨idx, asid, [bit], size - 1, [], false, 0, [], 0⟩] })
    (s.modRec r.q r.seq (fun r => { r with groups := r.groups ++ [(g, sp.cluster, idx)] })).modUnit k (fun u => { u with groups := u.groups.set 0 (some idx) })

/-- Places an instance of a record (18 R382). -/
def State.placeInst (s : State) (r : Rec) (i : Nat) (sp : Spot) (ix : Nat) : State :=
  let s : State := { s with fresh := s.fresh + 1 }
  let s : State := s.formAt sp r.w (some (r.q, r.seq))
  let (dpa, s) := s.takeArea r.ctx r.team ix
  let (id, s) := s.newKey sp.cluster sp.pipe sp.slot r.team
  let (ord, s) := if r.team then s.nextOrder sp.cluster sp.pipe else (0, s)
  let inst := List.replicate r.n (some (⟨r.q, r.seq, i⟩ : Inst))
  let u := HwUnit.fresh id r.n r.k r.w sp.row r.entry r.asid r.ctx r.super r.kclass
  let lanes := u.lanes.mapIdx (fun (l : Nat) (x : Lane) =>
    let x := (x.setX 1 (BitVec.ofNat 64 i)).setX 2 (r.dw 3)
    if r.team then x.setX 3 (BitVec.ofNat 64 l) else x)
  let u := { u with lanes := lanes, inst := inst, wexit := r.wexit, area := dpa, areaIdx := ix, order := ord }
  let s : State := (s.addUnit u).joinGroup r i id r.asid sp
  let s : State := s.modRec r.q r.seq (fun r => { r with placed := r.placed ++ [i], next := r.next + 1, any := true, units := r.units ++ [id] })
  let s : State := { s with hub := { s.hub with lastCl := sp.cluster } }
  let s : State := s.acquireUnit u .dv
  if r.next + 1 = r.count then (s.modRec r.q r.seq (fun r => { r with current := false })).unhold r.q r.seq else s

/-! ### Returning units (18 R398, R413) -/

/-- A place for a unit that returns. -/
def State.spotBack (s : State) (u : HwUnit) : Option Spot :=
  if u.status == .heldOut then
    s.pick (if !s.openPipe u.cluster u.pipe then [] else
      ((List.range 7).filter (fun sl => (s.at? u.cluster u.pipe sl false).isNone)).map (fun sl => ⟨u.cluster, u.pipe, sl, 0, false⟩))
  else if u.team then
    s.pick (s.harnessSpots u.cluster u.w u.n u.k (u.slot == 7) (fun h => h.heldFor.isNone) ++
      (if u.slot = 7 then [] else s.formSpots u.cluster u.w u.n u.k))
  else s.pick (s.threadSpots u.cluster (u.slot == 7))

/-- The unit takes the place. -/
def State.putBack (s : State) (u : HwUnit) (sp : Spot) : State :=
  let s : State := { s with fresh := s.fresh + 1 }
  let s : State := s.formAt sp u.w none
  let (ord, s) := if u.team then s.nextOrder sp.cluster sp.pipe else (0, s)
  s.reinstate u.id sp.pipe sp.slot sp.row ord

/-! ### One fabric cycle (18 R384) -/

/-- What the dispatcher may place: priority, since when, number; the record's instance and place, or the returning unit. -/
structure Cand where
  eff   : Nat
  since : Nat
  num   : Nat
  what  : (Rec × Nat × Nat) ⊕ HwUnit
  spot  : Spot
deriving DecidableEq, Repr

/-- The first of two candidates. -/
def Cand.better (a b : Cand) : Cand :=
  if a.eff != b.eff then (if b.eff < a.eff then a else b)
  else if a.since != b.since then (if a.since < b.since then a else b)
  else if a.num ≤ b.num then a else b

def bestOf (l : List Cand) : Option Cand := l.foldl (fun m c => match m with | some x => some (x.better c) | none => some c) none

/-- The first of some instances of a record that fits, and its place. -/
def State.firstFit (s : State) (r : Rec) (l : List Nat) : Option (Nat × Spot) :=
  l.findSome? (fun i => (s.spotFor r i).map (fun sp => (i, sp)))

/-- The candidate of a queue: of its current record the lowest-numbered instance that fits. An urgent one goes before every other; a thread that
returns to its own pipeline before the ordinary ones (R398). -/
def State.candOf (s : State) (q : Nat) : Option Cand × State :=
  match s.current q with
  | none => (none, s)
  | some r =>
    if !((s.lq q).st == .run || (s.lq q).st == .drain) then (none, s)
    else
      if r.waiting.isEmpty then (none, s)
      else
        match s.freeAreas r.ctx r.team 1 with
        | ([], s) => (none, s)
        | (ix :: _, s) =>
          match s.firstFit r r.waiting with
          | none => (none, s)
          | some (i, sp) =>
            let eff := if r.urgent then 7 else if 4096 ≤ s.now - r.since then 4 else (s.lq q).prio
            (some ⟨eff, r.since, q, .inl (r, i, ix), sp⟩, s)

/-- Every candidate. -/
def State.cands (s : State) : List Cand × State :=
  let (l, s) := (List.range 64).foldl (fun (p : List Cand × State) q =>
    match p.2.candOf q with
    | (some c, s) => (p.1 ++ [c], s)
    | (none, s) => (p.1, s)) ([], s)
  let back := s.hub.returns.filterMap (fun (x : Nat × UKey) => (s.unit? x.2).bind (fun u => (s.spotBack u).map (fun sp =>
    (⟨if u.status == .heldOut then 6 else 4, x.1, 64 + u.slot, .inr u, sp⟩ : Cand))))
  (back ++ l, s)

/-- A thread whose slot may be lent (18 R398). -/
def State.lendable (s : State) (u : HwUnit) : Bool :=
  !u.team && u.resident && decide (u.slot ≤ 6) && u.stuck != 0 && decide (4096 ≤ s.now - u.stuck) && s.openPipe u.cluster u.pipe && !u.exiting

/-- The thread whose slot is lent for an instance of a queue's record that fits nowhere: of its pipeline the one blocked longest. (DEDUCED, log 32.)
-/
def State.lentFor (s : State) (q : Nat) : Option HwUnit × State :=
  match s.current q with
  | none => (none, s)
  | some r =>
    if r.team || r.urgent || !((s.lq q).st == .run || (s.lq q).st == .drain) || r.waiting.isEmpty || (s.firstFit r r.waiting).isSome then (none, s)
    else
      match s.freeAreas r.ctx false 1 with
      | ([], s) => (none, s)
      | (_, s) =>
        let ok := s.units.filter s.lendable
        let mine := ok.filter (fun (u : HwUnit) => r.onDie (u.cluster / Config.clustersPerDie) &&
          r.waiting.any (fun i => s.groupFits r i ⟨u.cluster, u.pipe, u.slot, 0, false⟩) &&
          !ok.any (fun (w : HwUnit) => w.cluster == u.cluster && w.pipe == u.pipe && decide (w.stuck < u.stuck)))
        (s.clusterOrder.findSome? (fun c => mine.find? (fun (u : HwUnit) => u.cluster == c)), s)

/-- The thread whose slot the dispatcher lends in this fabric cycle. (DEDUCED, log 32.) -/
def State.lent (s : State) : Option HwUnit × State :=
  if !s.units.any s.lendable then (none, s)
  else (List.range 64).foldl (fun (p : Option HwUnit × State) q => if p.1.isSome then p else p.2.lentFor q) (none, s)

/-- DISPATCH_CYCLE. (DEDUCED, log 23, 32.) -/
def execDispatchCycle (s : State) : Host.Outcome State Fault Refusal :=
  match s.arg with
  | some .dispatchCycle =>
    let s : State := s.acceptAll
    let (l, s) := s.cands
    let (lend, s) := s.lent
    let s : State := match bestOf l with
      | none => s
      | some c => (match c.what with
        | .inl (r, i, ix) => s.placeInst r i c.spot ix
        | .inr u => s.putBack u c.spot)
    .next (match lend with | some u => s.holdOut u | none => s)
  | _ => .next s

/-! ### Completion (18 R385, R387; 23 R449) -/

/-- An instance some part of which lives. -/
def State.lives (s : State) (r : Rec) (i : Nat) : Bool :=
  s.units.any (fun (u : HwUnit) => (List.range u.n).any (fun l => !u.exited.getLsbD l && u.inst.getD l none == some ⟨r.q, r.seq, i⟩))

/-- Instances that have ended are noted in their records. -/
def State.settleRecs (s : State) : State :=
  { s with hub := { s.hub with recs := s.hub.recs.map (fun (r : Rec) =>
      let gone := r.placed.filter (fun i => !s.lives r i)
      { r with placed := r.placed.filter (fun i => !gone.contains i),
               retired := r.retired ++ (gone.filter (fun i => !r.retired.contains (i, true))).map (fun i => (i, false)) }) } }

/-- Every access of a record's instances is performed at a scope, and what the L1s of their clusters are writing back of them. -/
def State.performed (s : State) (r : Rec) : Bool :=
  s.accs.all (fun a =>
    if a.kind == .through && r.units.any (fun k => k.cluster == a.p / 32) then decide (rank (scopeOfCode r.csc) < a.perf)
    else match a.unit with
    | some k => !r.units.contains k || a.fault != 0 || decide (rank (scopeOfCode r.csc) < a.perf) ||
        (match s.unit? k with | some u => !u.exited.getLsbD a.lane | none => false)
    | none => true)

/-- A record that completes. -/
def State.recOver (s : State) (r : Rec) : Bool :=
  r.placed.isEmpty && (r.abort != 0 || decide (r.count ≤ r.next)) && s.performed r

/-- How the writing of a completion record ends. -/
inductive CmpRes where
  | done | failed | later
deriving DecidableEq, Repr

/-- Writes the completion record through the record's address space, in one 16-byte step (18 R385). (DEDUCED, log 37.) -/
def State.writeCmp (s : State) (r : Rec) (d0 d1 : Word) : CmpRes × State :=
  if r.cmp = 0 then (.done, s)
  else if !canonical r.cmp || r.cmp &&& 15 != 0 then (.failed, s)
  else
    match s.walk r.asid (r.cmp.toNat % 2 ^ 57) .write true with
    | (.ok x .., s) =>
      let a : PAddr := ⟨x.pf.space, x.pf.addr * 128 + r.cmp.toNat % 128⟩
      if s.reclassing x.pf then (.later, s)
      else if classViolation r.kclass x.cls || (x.pf.space == .dev && s.hole a.addr) || s.unreachable x.pf then (.failed, s)
      else (.done, s.homeWrite a 16 (d0.toNat + 2 ^ 64 * d1.toNat))
    | (.fault _ _, s) => (.failed, s)
    | (_, s) => (.later, s)

/-- lastcmp passes every record that has completed in sequence. -/
def advanceCmp : Nat → LQueue → LQueue
  | 0, l => l
  | n + 1, l =>
    let x := (l.lastcmp + 1) % 2 ^ 32
    if l.done.contains x then advanceCmp n { l with lastcmp := x, done := l.done.filter (· != x) } else l

/-- RECORD_COMPLETE. -/
def State.recordComplete (s : State) (r : Rec) : State :=
  let exited := (r.retired.filter (fun q => !q.2)).length
  let killed := r.count - exited
  let st := if r.abort = 2 ∧ !r.any ∧ s.depAborted r then 3 else if r.abort != 0 then r.abort else if killed != 0 then 1 else 0
  let d0 : Word := BitVec.ofNat 64 (r.seq % 2 ^ 32 * 2 ^ 32 + r.q % 64 * 2 ^ 26 + st)
  let d1 : Word := BitVec.ofNat 64 (killed * 2 ^ 32 + exited)
  match s.writeCmp r d0 d1 with
  | (.later, s) => s
  | (res, s) =>
    let s : State := s.stopPlacing r.q r.seq
    let recs := s.hub.recs.filter (fun (x : Rec) => !x.is r.q r.seq)
    let ended := s.hub.ended.filter (fun (e : Ended) => !(e.q == r.q && e.seq == r.seq)) ++ [⟨r.q, r.seq, st⟩]
    let s : State := { s with hub := { s.hub with recs, ended } }
    let s : State := s.modLq r.q (fun l => let l := { l with done := r.seq :: l.done }; advanceCmp l.done.length l)
    let s : State := if res == .failed then s.hubRecord 0 0x9A d0 d1 0 0 else s
    let s : State := if r.irq then s.hubRecord 0 0x96 d0 d1 0 0 else s
    let s : State := if st = 2 ∨ st = 3 then
        (s.hub.recs.filter (fun (x : Rec) => x.dep == some (r.q, r.seq) && x.abort == 0)).foldl (fun s x =>
          (s.modRec x.q x.seq (fun x => { x with abort := 3 })).stopPlacing x.q x.seq) s
      else s
    (s.settleQ r.q).syncQ r.q

def execRecordComplete (s : State) : Host.Outcome State Fault Refusal :=
  match s.arg with
  | some (.recordComplete q seq) =>
    match s.rec? q seq with
    | some r => if s.recOver r then .next (s.recordComplete r) else .next s
    | none => .next s
  | _ => .next s

/-- Records that are over. -/
def recordSteps (s : State) : List Ev := (s.hub.recs.filter s.recOver).map (fun (r : Rec) => Ev.recordComplete r.q r.seq)

/-! ### Late completions (18 R389) -/

/-- LATE_COMPLETION_CHECK: a completion at a port whose tag names a context that is gone is dropped; another lands as the port's inbound write of its
bytes (19 R421). (DEDUCED, log 23, 38.) -/
def execLateCompletionCheck (s : State) : Host.Outcome State Fault Refusal :=
  match s.arg with
  | some (.lateCompletionCheck port ctx gen tag addr data) =>
    let (c0, s) := s.readDesc ctx
    if !c0.getLsbD 63 || (c0.extractLsb' 32 16).toNat != gen then
      let n := s.staledrop.toNat % 2 ^ 32
      .next (({ s with staledrop := BitVec.ofNat 64 (min (n + 1) (2 ^ 32 - 1)) } : State).hubEvent (if port = 0 then 1 else 2) 0x98 0 tag)
    else .next (s.soon (.inboundPostedWrite port addr data false))
  | _ => .next s

end Sys2Proof.Machine
end

