-- ==== Sys2Proof/Machine/Ports.lean ====
section
/-! DEFINITION. Ports.lean: the hub's registers, windows, the inbound ordering point and the requests of the ports (19 R418 to R426,
R451 to R453; 16 R359). Port 0 is A, 1 is B; requests to BAR0 stand as port 2. -/

namespace Sys2Proof.Machine

/-- The bits hi down to lo. -/
def bits (hi lo : Nat) : Word := BitVec.ofNat 64 (2 ^ (hi + 1) - 2 ^ lo)

/-- BAR0 writes take effect: bring-up is over and the module has not tripped (20 R438, R439). -/
def State.barOpen (s : State) : Bool := s.hub.ready && !s.hub.trip

def State.modHub (s : State) (f : Hub → Hub) : State := { s with hub := f s.hub }

/-! ### Registers (19 Table 19-3) -/

/-- HUB_LQBASE_WRITE: the read-only fields go into all 64 blocks (18 R380). -/
def execHubLqbaseWrite (s : State) : Host.Outcome State Fault Refusal :=
  match s.arg with
  | some (.hubLqbaseWrite v) =>
    if s.barOpen then .next ((List.range 64).foldl (fun s q => s.syncQ q) (s.modHub (fun h => { h with lqbase := v &&& bits 51 12 }))) else .next s
  | _ => .next s

/-- EQ_CTL_WRITE. -/
def execEqCtlWrite (s : State) : Host.Outcome State Fault Refusal :=
  match s.arg with
  | some (.eqCtlWrite v) =>
    let size := (v.extractLsb' 0 5).toNat
    if !s.barOpen then .next s
    else if size < 6 ∨ 20 < size then .next (s.hubEvent 3 0xA3 0x58 v)
    else .next (s.modHub (fun h => { h with eqCtl := v &&& (bits 63 63 ||| bits 42 32 ||| bits 4 0) }))
  | _ => .next s

/-- The fields of a doubleword of a window entry (19 Table 19-4). -/
def windowMask : Nat → Word
  | 0 => bits 63 59 ||| bits 51 12
  | 1 => bits 51 12
  | 2 => bits 63 0
  | _ => bits 63 46

/-- WINDOW_ENTRY_WRITE: from this cycle on requests are classified by the new contents; frames already accepted keep their
addresses (19 R420, R425). -/
def execWindowEntryWrite (s : State) : Host.Outcome State Fault Refusal :=
  match s.arg with
  | some (.windowEntryWrite i dw v) =>
    if !s.barOpen || 64 ≤ i || 4 ≤ dw then .next s
    else .next (s.modHub (fun h => { h with
      windows := h.windows.setIfInBounds (4 * i + dw) (v &&& windowMask dw),
      frames := h.frames.map (fun (f : InFrame) => { f with entry := f.entry.map (fun e => if e.1 = i then (i, true) else e) }) }))
  | _ => .next s

/-- A read of a window entry, once the writes accepted under its old contents are acknowledged. -/
def State.windowRead (s : State) (tag i dw : Nat) : State :=
  let waits := (s.hub.frames.filter (fun (f : InFrame) => f.entry == some (i, true))).map (fun (f : InFrame) => (f.port, f.route, f.n))
  if waits.isEmpty then { s with replies := s.replies ++ [(tag, .data (toBytes 8 (s.window i dw).toNat))] }
  else s.modHub (fun h => { h with reads := h.reads ++ [(tag, 4 * i + dw, waits)] })

/-- WINDOW_ENTRY_READ: its completion carries the register's offset as its tag. -/
def execWindowEntryRead (s : State) : Host.Outcome State Fault Refusal :=
  match s.arg with
  | some (.windowEntryRead i dw) => if s.barOpen && i < 64 && dw < 4 then .next (s.windowRead (0x1000 + 32 * i + 8 * dw) i dw) else .next s
  | _ => .next s

/-- The step that a write of IMB.cmd asks for (16 Table 16-10). -/
def imbEv (addr arg cmd : Word) : Ev :=
  match (cmd.extractLsb' 28 3).toNat with
  | 0 => .imbShootdownRange addr arg cmd
  | 1 => .imbShootdownAsid addr arg cmd
  | 2 => .imbShootdownAll addr arg cmd
  | 3 => .imbShootdownGlobal addr arg cmd
  | 4 => .imbFaultRetry addr arg cmd
  | 5 => .imbFaultRefuse addr arg cmd
  | _ => .imbKindRejected addr arg cmd

/-- The step that a doorbell asks for; none: it is invalid (19 Table 19-3). -/
def doorbellEv (v : Word) : Option Ev :=
  let q := (v.extractLsb' 0 6).toNat
  let x := (v.extractLsb' 32 32).toNat
  if v &&& (bits 31 11 ||| bits 7 6) != 0 then none
  else match (v.extractLsb' 8 3).toNat with
    | 0 => some (.doorbellAdvance q x)
    | 1 => some (.doorbellDrain q)
    | 2 => some (.doorbellAbort q)
    | 3 => some (.doorbellReset q x)
    | 4 => some (.doorbellRun q)
    | _ => none

/-- The step that a write of MGMT.cmd asks for (20 Table 20-4). -/
def mgmtEv (v : Word) : Ev :=
  let a := (v.extractLsb' 12 52).toNat * 4096
  match (v.extractLsb' 0 4).toNat with
  | 1 => .mgmtAttest a
  | 2 => .mgmtReadCert a
  | 3 => .mgmtCommitFirmware a
  | 4 => .mgmtRestoreSlice a
  | _ => .mgmtInvalidCmd

/-- A doorbell value reaches the hub, from the host or from another device (19 R419, R431). -/
def State.ring (s : State) (v : Word) : State :=
  match doorbellEv v with
  | some e => s.soon e
  | none => s.hubEvent 3 0xA3 0x40 v

/-- A write of a BAR0 register: each field as its access code says (00 R4). (DESIGN CHOICE, log 44.) -/
def State.regWrite (s : State) (off : Nat) (v : Word) : State :=
  if s.hub.trip then s
  else if off = 0x208 then s.soon (mgmtEv v)
  else if !s.hub.ready then s
  else if 0x1000 ≤ off ∧ off < 0x1800 then s.soon (.windowEntryWrite ((off - 0x1000) / 32) ((off - 0x1000) % 32 / 8) v)
  else if 0x2000 ≤ off ∧ off < 0x2200 then
    s.modHub (fun h => { h with routes := h.routes.setIfInBounds ((off - 0x2000) / 8) (v &&& (bits 63 63 ||| bits 61 44 ||| bits 41 24 ||| bits 7 0)) })
  else match off with
    | 0x20 => s.modHub (fun h => { h with asidtab := v &&& bits 51 20 })
    | 0x28 => s.modHub (fun h => { h with ctxtab := v &&& bits 51 18 })
    | 0x30 => s.soon (.hubLqbaseWrite v)
    | 0x40 => s.ring v
    | 0x50 => s.modHub (fun h => { h with eqBase := v &&& bits 51 12 })
    | 0x58 => s.soon (.eqCtlWrite v)
    | 0x68 => s.modHub (fun h => { h with eqCons := v.toNat % 2 ^ 32 })
    | 0x100 => s.modHub (fun h => { h with imbAddr := v })
    | 0x108 => s.modHub (fun h => { h with imbArg := v &&& bits 47 0 })
    | 0x110 =>
      if 64 ≤ s.hub.imbBusy then s.modHub (fun h => { h with imbOvf := true })
      else (s.modHub (fun h => { h with imbBusy := h.imbBusy + 1 })).soon (imbEv s.hub.imbAddr s.hub.imbArg v)
    | 0x118 => s.modHub (fun h => { h with imbAck := v &&& bits 63 2 })
    | 0x120 => s.modHub (fun h => { h with imbOvf := h.imbOvf && !v.getLsbD 7 })
    | 0x200 => s.modHub (fun h => { h with err := h.err && !v.getLsbD 13 })
    | _ => s

/-- A posted write of a port that has not been acknowledged. -/
def State.postedBefore (s : State) (port : Nat) : Bool := s.hub.frames.any (fun (f : InFrame) => f.port == port)

/-- Posted writes of port A that wait for earlier ones of the port. -/
def State.portHeld (s : State) : Bool :=
  s.future.any (fun q => match q.2 with | .registerWrite .. => true | .inboundPostedWrite 0 _ _ ro => !ro | _ => false)

/-- REGISTER_WRITE: a posted write of port A, which takes effect once every earlier one is performed (14 R315). (DEDUCED, log 38.) -/
def execRegisterWrite (s : State) : Host.Outcome State Fault Refusal :=
  match s.arg with
  | some (.registerWrite off v) => if s.postedBefore 0 || s.portHeld then .next (s.at_ (s.now + 1) (.registerWrite off v)) else .next (s.regWrite off v)
  | _ => .next s

/-- MGMT.stat (20 Table 20-3). -/
def Hub.mgmtStat (h : Hub) : Word :=
  BitVec.ofNat 64 ((if h.trip then 2 ^ 15 else 0) + (if h.failed then 2 ^ 14 else 0) + (if h.err then 2 ^ 13 else 0) + (if h.busy then 2 ^ 12 else 0) +
    (if h.ready then 2 ^ 11 else 0) + h.stage % 8 * 2 ^ 8)

/-- A BAR0 register as a read of port A gives it; a write-only or unassigned one reads as zero. (DESIGN CHOICE, log 44.) -/
def State.regRead (s : State) (off : Nat) : Word :=
  let h := s.hub
  if off = 0x200 then h.mgmtStat
  else if !s.barOpen then 0
  else if 0x2000 ≤ off ∧ off < 0x2200 then h.routes.toList.getD ((off - 0x2000) / 8) 0
  else match off with
    | 0x10 => BitVec.ofNat 64 (s.devnum % 2 ^ 18)
    | 0x20 => h.asidtab
    | 0x28 => h.ctxtab
    | 0x30 => h.lqbase
    | 0x50 => h.eqBase
    | 0x58 => h.eqCtl
    | 0x60 => BitVec.ofNat 64 (h.eqProd % 2 ^ 32)
    | 0x68 => BitVec.ofNat 64 (h.eqCons % 2 ^ 32)
    | 0x100 => h.imbAddr
    | 0x108 => h.imbArg
    | 0x118 => h.imbAck
    | 0x120 => BitVec.ofNat 64 ((if h.imbOvf then 2 ^ 7 else 0) + h.imbBusy % 128)
    | _ => 0

/-! ### Where an inbound request leads (19 R420, R421, R451) -/

/-- The DPA of an inbound request of n bytes, and the window entry that admits it. -/
def State.inbound (s : State) (port addr n : Nat) : Option (Nat × Option Nat) :=
  if port = 0 then
    if Config.hdmBase ≤ addr ∧ addr + n ≤ Config.hdmBase + deviceBytes then some (addr - Config.hdmBase, none) else none
  else
    (List.range 64).findSome? (fun i =>
      let d0 := s.window i 0
      let base := (d0.extractLsb' 12 40).toNat
      let last := ((s.window i 1).extractLsb' 12 40).toNat
      if d0.getLsbD 63 && d0.getLsbD 62 && d0.extractLsb' 59 3 == 0 && decide (base ≤ addr / 4096) && decide ((addr + n - 1) / 4096 ≤ last) then
        let a := ((s.window i 2).toNat + (addr - base * 4096)) % 2 ^ 64
        some (if a + n ≤ deviceBytes then some (a, some i) else none)
      else none) |>.join

/-- Some frame of a run of bytes lies in a hole, or in a granule in re-classing. -/
def State.holeRun (s : State) (dpa n : Nat) : Bool := s.hole dpa || s.hole (dpa + (n - 1))
def State.busyRun (s : State) (dpa n : Nat) : Bool := s.reclassing ⟨.dev, dpa / 128⟩ || s.reclassing ⟨.dev, (dpa + (n - 1)) / 128⟩

/-- The source number of a port's ordering point (18 Table 18-15). -/
def portSource (port : Nat) : Nat := if port = 1 then 2 else 1

/-- The event of a request answered as Unsupported Request. -/
def State.refuseInbound (s : State) (port addr : Nat) : State := s.hubEvent (portSource port) 0xA0 (BitVec.ofNat 64 addr) 0

/-! ### The inbound ordering point (19 R422, R423, R452, R453) -/

/-- The frame-sized pieces of a run of bytes from a DPA on. -/
def inPieces (dpa : Nat) (bytes : List (Option Byte)) : List (Nat × List (Option Byte)) :=
  (List.range ((dpa % 128 + bytes.length + 127) / 128)).map (fun j =>
    let lo := if j = 0 then dpa else dpa / 128 * 128 + 128 * j
    let n := dpa / 128 * 128 + 128 * (j + 1) - lo
    (lo, (bytes.drop (lo - dpa)).take n))

/-- Frames numbered so far on a port and route. -/
def State.numbered (s : State) (port route : Nat) : Nat :=
  ((s.hub.sentOn.find? (fun x => x.1 == port && x.2.1 == route)).map (·.2.2)).getD 0

/-- The hold of a frame is over: every frame that it waits for is acknowledged, and no frame of its port that must leave first is
held. -/
def State.mayLeave (s : State) (f : InFrame) (before : List InFrame) : Bool :=
  f.need.all (fun q => !s.hub.frames.any (fun (g : InFrame) => g.port == f.port && g.route == q.1 && decide (g.n < q.2))) &&
  !before.any (fun (g : InFrame) => g.port == f.port && !g.sent && (g.route == f.route || (!g.ro && !f.ro)))

/-- Sends every frame whose hold is over, in order of arrival. -/
def State.sendFrames (s : State) : State :=
  (List.range s.hub.frames.length).foldl (fun s i =>
    match s.hub.frames[i]? with
    | none => s
    | some f =>
      if !f.sent && s.mayLeave f (s.hub.frames.take i) then
        (s.modHub (fun h => { h with frames := h.frames.mapIdx (fun j (g : InFrame) => if j = i then { g with sent := true } else g) })).wire
          (31 + 8 * f.port + 2 * f.route) (.inboundFrame f.port f.route f.n)
      else s) s

/-- INBOUND_POSTED_WRITE: the write is split into frames, each on the route of its home die; one that no window admits, and a frame
that reaches a hole, is discarded with the event 0xA0. (DEDUCED, log 38.) -/
def execInboundPostedWrite (s : State) : Host.Outcome State Fault Refusal :=
  match s.arg with
  | some (.inboundPostedWrite port addr bytes ro) =>
    if port = 0 && !ro && s.portHeld then .next (s.at_ (s.now + 1) (.inboundPostedWrite port addr bytes ro))
    else match s.inbound port addr (max 1 bytes.length) with
    | none => .next (s.refuseInbound port addr)
    | some (dpa, entry) =>
      let prior := [0, 1, 2, 3].map (fun r => (r, s.numbered port r))
      let s : State := (inPieces dpa bytes).foldl (fun (s : State) p =>
        if s.hole p.1 then s.refuseInbound port (addr + (p.1 - dpa))
        else
          let route := s.dieOf p.1
          let n := s.numbered port route
          let need := if ro then [] else prior.filter (fun q => q.1 != route && q.2 != 0)
          let f : InFrame := ⟨port, route, n, p.1, p.2, 0, ro, need, false, false, entry.map (fun i => (i, false)), 0⟩
          s.modHub (fun h => { h with
            frames := h.frames ++ [f],
            sentOn := (port, route, n + 1) :: h.sentOn.filter (fun x => !(x.1 == port && x.2.1 == route)) })) s
      .next s.sendFrames
  | _ => .next s

/-- The bytes of a frame as writes of its words. -/
def framePuts (dpa : Nat) (bytes : List (Option Byte)) : List Put :=
  let at_ := fun (o : Nat) => if dpa % 128 ≤ o then (bytes[o - dpa % 128]?).join else none
  (List.range 32).filterMap (fun w =>
    let bs := (List.range 4).map (fun j => at_ (4 * w + j))
    if bs.all Option.isNone then none
    else some ⟨w, BitVec.ofNat 32 (ofBytes (bs.map (·.getD 0))),
      BitVec.ofNat 4 ((bs.zipIdx.map (fun (q : Option Byte × Nat) => if q.1.isSome then 2 ^ q.2 else 0)).sum), false⟩)

/-- A frame is performed at its home slice as a store of the bytes that it enables; it is acknowledged once the sharers have
acknowledged. -/
def State.performFrame (s : State) (f : InFrame) : State :=
  let pf : PAddr := ⟨.dev, f.dpa / 128⟩
  let ps := (framePuts f.dpa f.bytes).map (fun (p : Put) => { p with bad := f.bad.getLsbD p.w })
  let m := putMask ps
  let (old, _, s) := s.homeWords pf m
  let s : State := (s.homePuts pf ps).storeClears pf m none 0
  let (n, s) := s.notifyStore pf none old (applyPuts old ps) (f.bad &&& m) m (.frame f.port f.route f.n)
  if n = 0 then s.soon (.frameAck f.port f.route f.n) else s

/-- A frame may be performed: with Relaxed Ordering at once, else after every frame that arrived before it on its route. -/
def State.frameTurn (s : State) (f : InFrame) : Bool :=
  f.ro || !s.hub.frames.any (fun (g : InFrame) => g.route == f.route && g.seen != 0 && decide (g.seen < f.seen))

/-- INBOUND_FRAME: a frame arrives at its home die, and is performed in its turn. (DEDUCED, log 38.) -/
def execInboundFrame (s : State) : Host.Outcome State Fault Refusal :=
  match s.arg with
  | some (.inboundFrame port route n) =>
    match s.hub.frames.find? (fun (f : InFrame) => f.port == port && f.route == route && f.n == n) with
    | none => .next s
    | some f =>
      let f := if f.seen = 0 then { f with seen := s.ids } else f
      let set := fun (s : State) (f : InFrame) => s.modHub (fun h => { h with frames := h.frames.map (fun (g : InFrame) =>
        if g.port == port && g.route == route && g.n == n then f else g) })
      let s : State := set { s with ids := s.ids + 1 } f
      if f.done || !s.frameTurn f then .next s
      else if s.reclassing ⟨.dev, f.dpa / 128⟩ then .next (s.nak (.inboundFrame port route n))
      else
        let s : State := (set s { f with done := true }).nakDone (.inboundFrame port route n)
        if s.hole f.dpa then .next ((s.refuseInbound port f.dpa).soon (.frameAck port route n)) else .next (s.performFrame f)
  | _ => .next s

/-- FRAME_ACK: the acknowledgement may let held frames leave, later frames of the route be performed, and reads of a window entry
complete. (DEDUCED, log 38.) -/
def execFrameAck (s : State) : Host.Outcome State Fault Refusal :=
  match s.arg with
  | some (.frameAck port route n) =>
    let s : State := s.modHub (fun h => { h with
      frames := h.frames.filter (fun (f : InFrame) => !(f.port == port && f.route == route && f.n == n)),
      reads := h.reads.map (fun q => (q.1, q.2.1, q.2.2.filter (· != (port, route, n)))) })
    let over_ := s.hub.reads.filter (fun q => q.2.2.isEmpty)
    let s : State := { s with replies := s.replies ++ over_.map (fun q => (q.1, .data (toBytes 8 (s.window (q.2.1 / 4) (q.2.1 % 4)).toNat))) }
    let s : State := s.modHub (fun h => { h with reads := h.reads.filter (fun q => !q.2.2.isEmpty) })
    let next := s.hub.frames.filter (fun (f : InFrame) => f.route == route && f.seen != 0 && !f.done)
    .next (next.foldl (fun s f => s.soon (.inboundFrame f.port f.route f.n)) s.sendFrames)
  | _ => .next s

/-! ### Non-posted requests (19 R421, R424; 13 R314, R316) -/

/-- A completion of a port. -/
def State.reply (s : State) (tag : Nat) (r : Reply) : State := { s with replies := s.replies ++ [(tag, r)] }

/-- A non-posted request passes no earlier posted write of its port. -/
def State.mustWait (s : State) (port : Nat) : Bool := s.postedBefore port || (port == 0 && s.portHeld)

/-- The words of a run of bytes in device memory that are poisoned, and the bytes; each frame is read at its home. -/
def State.readRun (s : State) (dpa n : Nat) : List Byte × Bool × State :=
  (inPieces dpa (List.replicate n none)).foldl (fun (r : List Byte × Bool × State) p =>
    let (ws, pb, s) := r.2.2.homeWords ⟨.dev, p.1 / 128⟩ (datumMask (p.1 % 128) p.2.length)
    let all := ws.toList.flatMap (fun (w : W32) => toBytes 4 w.toNat)
    (r.1 ++ (all.drop (p.1 % 128)).take p.2.length, r.2.1 || pb &&& datumMask (p.1 % 128) p.2.length != 0, s)) ([], false, s)

/-- What an AtomicOp leaves (19 Table 19-2). -/
def atomicNew (op : AtomicOp) (n old x y : Nat) : Nat :=
  match op with
  | .fetchAdd => (old + x) % 2 ^ (8 * n)
  | .swap => x % 2 ^ (8 * n)
  | .cas => if old = x % 2 ^ (8 * n) then y % 2 ^ (8 * n) else old

/-- INBOUND_ATOMICOP: one .sy atomic at the home; it passes no earlier posted write of its port. -/
def execInboundAtomicop (s : State) : Host.Outcome State Fault Refusal :=
  match s.arg with
  | some (.inboundAtomicop port addr op n x y tag) =>
    if s.mustWait port then .next (s.post (.inboundAtomicop port addr op n x y tag))
    else
      match s.inbound port addr n with
      | none => .next ((s.reply tag .unsupported).refuseInbound port addr)
      | some (dpa, _) =>
        if s.hole dpa || dpa % n != 0 || !(n == 4 || n == 8 || (n == 16 && op == .cas)) then .next ((s.reply tag .unsupported).refuseInbound port addr)
        else if s.reclassing ⟨.dev, dpa / 128⟩ then .next (s.nak (.inboundAtomicop port addr op n x y tag))
        else
          let s : State := s.nakDone (.inboundAtomicop port addr op n x y tag)
          let (old, s) := s.homeRead ⟨.dev, dpa⟩ n
          let new := atomicNew op n old x.toNat y.toNat
          let s : State := if op == .cas && new == old then s else s.homeWrite ⟨.dev, dpa⟩ n new
          .next (s.reply tag (.data (toBytes n old)))
  | _ => .next s

/-- CXL_MEM_REQUEST: a .sy access under .uc at the home, at a DPA of the decoder (14 R314, 19 R421); the completion of a write follows the last
acknowledgement that it is owed. (DEDUCED, log 38.) -/
def execCxlMemRequest (s : State) : Host.Outcome State Fault Refusal :=
  match s.arg with
  | some (.cxlMemRequest dpa write bytes tag) =>
    if deviceBytes < dpa + bytes.length then .next (s.reply tag .unsupported)
    else if s.holeRun dpa bytes.length then .next ((s.reply tag (if write then .written else .poisoned)).refuseInbound 0 dpa)
    else if s.busyRun dpa bytes.length then .next (s.nak (.cxlMemRequest dpa write bytes tag))
    else
      let s : State := s.nakDone (.cxlMemRequest dpa write bytes tag)
      if write then
        let s : State := (inPieces dpa bytes).foldl (fun (s : State) p =>
          let pf : PAddr := ⟨.dev, p.1 / 128⟩
          let ps := framePuts p.1 p.2
          let (old, _, s) := s.homeWords pf (putMask ps)
          let s : State := (s.homePuts pf ps).storeClears pf (putMask ps) none 0
          (s.notifyStore pf (some 4) old (applyPuts old ps) 0 (putMask ps) (.written tag)).2) s
        .next (if s.txns.any (fun (x : Txn) => x.fin == .written tag) then s else s.reply tag .written)
      else
        let (bs, bad, s) := s.readRun dpa bytes.length
        .next (s.reply tag (if bad then .poisoned else .data bs))
  | _ => .next s

/-- INBOUND_READ_REQUEST: a .sy load under .uc at the home, or Unsupported Request; a read of BAR0 gives the register. -/
def execInboundReadRequest (s : State) : Host.Outcome State Fault Refusal :=
  match s.arg with
  | some (.inboundReadRequest port addr n tag) =>
    if port = 2 then
      if s.mustWait 0 then .next (s.post (.inboundReadRequest port addr n tag))
      else if s.barOpen && 0x1000 ≤ addr && addr < 0x1800 then .next (s.windowRead tag ((addr - 0x1000) / 32) (addr % 32 / 8))
      else .next (s.reply tag (.data (toBytes 8 (s.regRead addr).toNat)))
    else if s.mustWait port then .next (s.post (.inboundReadRequest port addr n tag))
    else
      match s.inbound port addr (max 1 n) with
      | none => .next ((s.reply tag .unsupported).refuseInbound port addr)
      | some (dpa, _) =>
        if s.holeRun dpa n then .next ((s.reply tag .unsupported).refuseInbound port addr)
        else if s.busyRun dpa n then .next (s.nak (.inboundReadRequest port addr n tag))
        else
          let (bs, bad, s) := (s.nakDone (.inboundReadRequest port addr n tag)).readRun dpa n
          .next (s.reply tag (if bad then .poisoned else .data bs))
  | _ => .next s

end Sys2Proof.Machine
end

