-- ==== Sys2Proof/Machine/Links.lean ====
section
/-! DEFINITION. Links.lean: messages between devices and the Bormuesk links (19 R427 to R433). The first doubleword of a payload
says what the message is (log 39): 0 and 1 an answer of FAULTACK, 2 a fault or page-fault message or an event, 3 WAKE, 4 SENDM, 5 a store, 8 a
load, and 6, 7 and 9 their replies: a result, a cause, a value; then the messages of 13 Table 13-7: 10 RDS, 11 RDO, 12 STW, 13 UPG, 15 UNS, 16 EVC,
17 WBK, 14 DAT, 18 RCL, 19 INV, 20 UPD, 21 ACK, 22 NAK, 23 FWD, and 24 the DAT that answers it. -/

namespace Sys2Proof.Machine

def State.link (s : State) (n : Nat) : Link := s.hub.links.toList.getD n Link.reset
def State.modLink (s : State) (n : Nat) (f : Link → Link) : State :=
  s.modHub (fun h => { h with links := h.links.setIfInBounds n (f (s.link n)) })

/-- The class of a message (19 R432): 0 requests, 1 responses, 2 snoops, 3 messages. -/
def linkClass (payload : List Word) : Nat :=
  let k := (payload.headD 0).toNat
  if [6, 7, 9, 14, 21, 22, 24].contains k then 1 else if [18, 19, 20, 23].contains k then 2 else if k < 5 then 3 else 0

/-- A receive slot of a class is free at the far end, no flit of the class waits before it, and no lane is being repaired (19 R432, R433). -/
def State.linkRoom (s : State) (n cls : Nat) : Bool :=
  let l := s.link n
  l.repair.isNone && !l.waiting.any (fun q => q.1 == cls) &&
  decide ((l.slots.filter (fun (q : Nat × Nat) => q.1 == cls && decide (s.now < q.2))).length < 64)

/-- A flit leaves on a link: its slot is reserved until an open cycle in which the receiver has freed it, and it stays in the replay buffer of 256
(19 R432). (DESIGN CHOICE, log 39.) -/
def State.emit (s : State) (n cls : Nat) (flit : List Word) : State :=
  let free := s.now + 1 + Config.latency s.fresh
  ({ s with fresh := s.fresh + 1 } : State).modLink n (fun l =>
    let b := l.unacked ++ [(l.tx, flit)]
    { l with tx := l.tx + 1, unacked := b.drop (b.length - 256), slots := l.slots.filter (fun (q : Nat × Nat) => decide (s.now < q.2)) ++ [(cls, free)] })

/-- A flit is to leave on a link: it goes, or waits behind those of its class. -/
def State.transmit (s : State) (n cls : Nat) (flit : List Word) : State :=
  if s.linkRoom n cls then s.emit n cls flit else s.modLink n (fun l => { l with waiting := l.waiting ++ [(cls, flit)] })

/-- Flits that wait leave in order, those of each class as its slots allow. -/
def State.drainLink (s : State) (n : Nat) : State :=
  let l := s.link n
  if l.waiting.isEmpty || l.repair.isSome then s
  else l.waiting.foldl (fun (s : State) q => s.transmit n q.1 q.2) (s.modLink n (fun l => { l with waiting := [] }))

def State.drainLinks (s : State) : State := (List.range 8).foldl State.drainLink s

/-- A message for another device sets out. -/
def State.sendLink (s : State) (dst : Nat) (payload : List Word) : State := s.soon (.linkMessage s.devnum dst 0 payload 0)

/-- The source that a message names: of another device, or of this one. -/
def sourceOf (dev : Nat) (own : Bool) (kind w : Word) : Source :=
  if kind = 0 then
    match UKey.ofWord w dev with
    | some k => if own then .unit k else .farUnit dev k
    | none => if own then .num 0 else .farNum dev 0
  else if own then .num w.toNat else .farNum dev w.toNat

/-- The event record of a message that no supervisor of this device takes. -/
def State.farEvent (s : State) (src : Source) (d0 d1 d2 d3 : Word) : State :=
  s.wire (chanOf src) (.eventRecordWrite src (d0.toNat % 2 ^ 32) d0 d1 d2 d3 (d0.extractLsb' 56 8).toNat)

/-- A frame as an address of this device names it. -/
def State.frameAt (s : State) (frame : Nat) : Option PAddr := (s.classify (frame * 128 % 2 ^ 52)).map PAddr.frameOf

def maskOf (w : Word) : Mask := w.setWidth 32
def wordsIn (l : List Word) : List W32 := l.map (fun w => w.setWidth 32)
def fmtOf (w : Word) : AssayFmt :=
  match (w.extractLsb' 0 3).toNat with
  | 1 => .bf16 | 2 => .f16 | 3 => .e4m3 | 4 => .e5m2 | _ => .exact

/-- The request of a device or switch that shares a frame of this device: it is the Bormuesk sharer from then on (19 R429, R430). -/
def State.farRequest (s : State) (dev : Nat) (pf : PAddr) (req : Ev) : State :=
  ({ s with hub := { s.hub with outer := if s.hub.outer.contains (pf, dev) then s.hub.outer else s.hub.outer ++ [(pf, dev)] } } : State).soon req

/-- The dies that share words of a frame. -/
def State.dieShares (s : State) (pf : PAddr) (m : Mask) : List (Nat × Mask) :=
  match s.entry? pf with
  | some e => (e.holders.filter (fun x => decide (x.1 < 4) && x.2 &&& m != 0)).map (fun x => (x.1, x.2 &&& m))
  | none => ((List.range 4).filter (fun d => s.l2.any (fun (l : L2Line) => l.die == d && l.pf == pf))).map (fun d => (d, m))

/-- RCL and INV of a device or switch: the dies give the words up, the dirty ones are written back, and then it is acknowledged (19 R430). -/
def State.farInv (s : State) (dev frame : Nat) (pf : PAddr) (tok : Word) (m : Mask) : State :=
  let dirty := s.l2.foldl (fun (k : Mask) (l : L2Line) =>
    if l.pf == pf then k ||| l.where_ (fun st => match st with | .d => true | .l _ => true | _ => false) else k) 0 &&& m
  let (ws, _, s) := s.homeWords pf m
  let s : State := if dirty = 0 then s else s.tellFar dev frame ([17, 0, dirty.setWidth 64] ++ ws.toList.map (·.setWidth 64))
  let to_ := s.dieShares pf m
  let fin : TxnFin := .far dev frame [21, tok]
  if to_.isEmpty then s.finish ⟨0, pf, 0, fin⟩
  else
    let (t, s) := s.newTxn pf to_.length fin
    let s : State := match s.entry? pf with
      | some e => s.setEntry (to_.foldl (fun (e : DirEnt) x => if (e.sharer x.1).sub then e else e.unshare x.1 x.2) e)
      | none => s
    to_.foldl (fun s x => s.wire (toSharer x.1) (.inv x.1 pf x.2 t)) s

/-- UPD of a device or switch: a store of one word, of which the dies hear as their records have it. -/
def State.farUpd (s : State) (dev frame : Nat) (pf : PAddr) (tok : Word) (w : Nat) (v : W32) (bad : Bool) : State :=
  let m : Mask := BitVec.ofNat 32 (2 ^ (w % 32))
  let ps : List Put := [⟨w % 32, v, 15, bad⟩]
  let (old, _, s) := s.homeWords pf m
  let s : State := (s.homePuts pf ps).storeClears pf m none 0
  let fin : TxnFin := .far dev frame [21, tok]
  let (n, s) := s.notifyStore pf none old (applyPuts old ps) (if bad then m else 0) m fin
  if n = 0 then s.finish ⟨0, pf, 0, fin⟩ else s

/-- A request to a switch that it has refused is made again under the back-off of R279. -/
def State.farNak (s : State) (tok : Nat) : State :=
  match s.acc? tok with
  | some a => (match a.xl with
    | some x => if a.stage == .sent then s.nak (.rds a.die x.pf a.mask a.id) else s
    | none => s)
  | none => s

/-- A message of another device takes effect. (DESIGN CHOICE, log 39.) -/
def State.linkReceive (s : State) (src frame : Nat) (ev : Ev) : List Word → State
  | [0, v] => s.faultAnswer (v.extractLsb' 0 32).toNat (v.extractLsb' 32 4).toNat (v.extractLsb' 36 4).toNat false
  | [1, v] => s.faultAnswer (v.extractLsb' 0 32).toNat (v.extractLsb' 32 4).toNat (v.extractLsb' 36 4).toNat true
  | [2, dst, d0, d1, d2, d3, k, w] =>
    let from_ := sourceOf src false k w
    match s.at? (dst.extractLsb' 8 8).toNat (dst.extractLsb' 3 5).toNat (dst.extractLsb' 0 3).toNat false with
    | some u => s.wire (chanOf from_) (.messageDelivery from_ u.id d0 d1 d2 d3 0 0)
    | none => s.farEvent from_ d0 d1 d2 d3
  | [3, tok, id, rec_] =>
    let (r, s) := s.wakeUnit id rec_
    s.sendLink src [6, tok, BitVec.ofNat 64 r]
  | [4, tok, id, d0, d1, d2, d3, sup] =>
    match s.named id with
    | none => s.sendLink src [6, tok, 2]
    | some t =>
      if sup = 0 ∧ t.asid ≠ (d0.extractLsb' 40 16).toNat then s.sendLink src [7, tok, 0x92]
      else if t.inbox.length < 4 then ((s.nakDone ev).touch t.id (fun u => u.receive ⟨d0, d1, d2, d3⟩)).sendLink src [6, tok, 0]
      else s.nak ev
  | [5, tok, pa, v, n] =>
    if pa.getLsbD 51 then (if pa.toNat % 2 ^ 51 = 0x40 ∧ s.barOpen then s.ring v else s).sendLink src [6, tok, 0]
    else match s.classify (pa.toNat % 2 ^ 52) with
      | some a =>
        if s.reclassing a.frameOf then s.nak ev
        else if s.inHole a.frameOf then (s.nakDone ev).sendLink src [7, tok, 0x66]
        else
          let s : State := s.nakDone ev
          let pf := a.frameOf
          let m := datumMask (a.addr % 128) n.toNat
          let ps := putsOf (a.addr % 128) n.toNat v.toNat
          let (old, _, s) := s.homeWords pf m
          let s : State := (s.homePuts pf ps).storeClears pf m none 0
          -- it is acknowledged once its own messages have been (R429)
          let (k, s) := s.notifyStore pf none old (applyPuts old ps) 0 m (.far src frame [6, tok, 0])
          if k = 0 then s.sendLink src [6, tok, 0] else s
      | none => s.sendLink src [6, tok, 0]
  | [6, tok, v] => s.sent tok.toNat v.toNat
  | [7, tok, c] => s.failOut tok.toNat c.toNat
  | [8, tok, pa, n] =>
    if pa.getLsbD 51 then s.sendLink src [9, tok, 0]
    else match s.classify (pa.toNat % 2 ^ 52) with
      | some a =>
        if s.reclassing a.frameOf then s.nak ev
        else if s.inHole a.frameOf then (s.nakDone ev).sendLink src [7, tok, 0x66]
        else
          let (v, s) := (s.nakDone ev).homeRead a n.toNat
          s.sendLink src [9, tok, BitVec.ofNat 64 v]
      | none => s.sendLink src [9, tok, 0]
  | [10, tok, m] => farShare s src frame (fun pf => .rds 5 pf (maskOf m) (tok.toNat * 2 ^ 18 + src % 2 ^ 18))
  | [11, tok, m] => farShare s src frame (fun pf => .rdo 5 pf (maskOf m) (tok.toNat * 2 ^ 18 + src % 2 ^ 18))
  | 12 :: tok :: m :: ws => farShare s src frame (fun pf => .stw 5 pf (maskOf m) (wordsIn ws) (tok.toNat * 2 ^ 18 + src % 2 ^ 18))
  | [13, tok, m, f] =>
    farShare s src frame (fun pf => .upg 5 pf (maskOf m) (fmtOf f) (f.getLsbD 3) (tok.toNat * 2 ^ 18 + src % 2 ^ 18))
  | 14 :: tok :: m :: bad :: ws | 24 :: tok :: m :: bad :: ws =>
    match s.frameAt frame with
    | some pf => s.wire (toSharer (tok.toNat % 8)) (.dat (tok.toNat % 8) pf (maskOf m) (wordsIn ws) (maskOf bad) (tok.toNat / 8))
    | none => s
  | [15, tok, m] => farShare s src frame (fun pf => .uns 5 pf (maskOf m) (tok.toNat * 2 ^ 18 + src % 2 ^ 18))
  | [16, _, m] => farShare s src frame (fun pf => .evc 5 pf (maskOf m))
  | 17 :: tok :: m :: ws => (farShare s src frame (fun pf => .wbk 5 pf (maskOf m) (wordsIn ws))).tellFar src frame [21, tok]
  | [18, tok, m] => farSnoop s frame ev (fun s pf => s.farInv src frame pf tok (maskOf m))
  | [19, tok, m] => farSnoop s frame ev (fun s pf => s.farInv src frame pf tok (maskOf m))
  | [20, tok, w, v, b] => farSnoop s frame ev (fun s pf => s.farUpd src frame pf tok w.toNat (v.setWidth 32) (b != 0))
  | [21, tok] => s.snooped src tok.toNat 0 []
  | 21 :: tok :: m :: ws => s.snooped src tok.toNat (maskOf m) (wordsIn ws)
  | [22, tok] => s.farNak tok.toNat
  | _ => s
where
  farShare (s : State) (src frame : Nat) (req : PAddr → Ev) : State :=
    match s.frameAt frame with
    | some pf => s.farRequest (src % 2 ^ 18) pf (req pf)
    | none => s
  -- one that meets a transaction on its frame waits for it
  farSnoop (s : State) (frame : Nat) (ev : Ev) (act : State → PAddr → State) : State :=
    match s.frameAt frame with
    | none => s
    | some pf => if (match s.entry? pf with | some e => e.busy | none => false) then s.post ev else act s pf

/-- A message to which no route leads ends its request with cause 0xA4 (19 R428); a message to a supervisor goes to the host event
queue instead. A device out of reach answers no snoop: the frame is not shared with it any more. -/
def State.noRoute (s : State) (dst : Nat) : List Word → State
  | [2, _, d0, d1, d2, d3, k, w] => s.farEvent (sourceOf (s.devnum % 2 ^ 18) true k w) d0 d1 d2 d3
  | 3 :: tok :: _ => s.failOut tok.toNat 0xA4
  | 4 :: tok :: _ => s.failOut tok.toNat 0xA4
  | 18 :: t :: _ => s.snooped dst t.toNat 0 []
  | 19 :: t :: _ => s.snooped dst t.toNat 0 []
  | 20 :: t :: _ => s.snooped dst t.toNat 0 []
  | _ => s

/-- LINK_MESSAGE: a message for this device takes effect; one of this device for another leaves on a link of its route. (DESIGN CHOICE, log 39.) -/
def execLinkMessage (s : State) : Host.Outcome State Fault Refusal :=
  match s.arg with
  | some (.linkMessage src dst frame payload acc) =>
    if dst == s.devnum % 2 ^ 18 then .next (s.linkReceive src frame (.linkMessage src dst frame payload acc) payload)
    else if src % 2 ^ 18 != s.devnum % 2 ^ 18 then .next s
    else
      match s.route dst frame with
      | none => .next (s.noRoute dst payload)
      | some n => .next (s.transmit n (linkClass payload) (BitVec.ofNat 64 src :: BitVec.ofNat 64 dst :: BitVec.ofNat 64 frame :: BitVec.ofNat 64 acc :: payload))
  | _ => .next s

/-- A failure of a flit is counted against a lane; the sixteenth within 2²⁰ flits has the lane repaired (19 R433). -/
def State.laneFailure (s : State) (n lane : Nat) : State :=
  let l := s.link n
  let (c, since) := match l.fails.find? (fun q => q.1 == lane) with
    | some (_, c, since) => if l.rx < since + 2 ^ 20 then (c + 1, since) else (1, l.rx)
    | none => (1, l.rx)
  let s : State := s.modLink n (fun l => { l with fails := (lane, c, since) :: l.fails.filter (fun q => q.1 != lane) })
  if 16 ≤ c ∧ l.repair.isNone then (s.modLink n (fun l => { l with repair := some lane })).post (.laneRepair n lane) else s

/-- LINK_FLIT_RECEIVE: flits are accepted in sequence; one that fails its CRC is discarded, and its sender replays. (DESIGN CHOICE, log 39.) -/
def execLinkFlitReceive (s : State) : Host.Outcome State Fault Refusal :=
  match s.arg with
  | some (.linkFlitReceive n seq ok lane payload) =>
    if !(s.link n).up then .next s
    else if !ok then .next (s.laneFailure n lane)
    else if seq != (s.link n).rx then .next s
    else
      let s : State := s.modLink n (fun l => { l with rx := l.rx + 1 })
      match payload with
      | src :: dst :: frame :: acc :: body =>
        if dst.toNat == s.devnum % 2 ^ 18 then .next (s.soon (.linkMessage src.toNat dst.toNat frame.toNat body acc.toNat)) else .next s
      | _ => .next s
  | _ => .next s

/-- LINK_REPLAY: a NAK names the flit from which the sender replays, in order; those before it have been accepted. (DESIGN CHOICE, log 39.) -/
def execLinkReplay (s : State) : Host.Outcome State Fault Refusal :=
  match s.arg with
  | some (.linkReplay n seq) => .next (s.modLink n (fun l => { l with unacked := l.unacked.filter (fun q => decide (seq ≤ q.1)) }))
  | _ => .next s

/-- A request of this device that awaits another device's reply. -/
def State.awaitsPeer (s : State) (o : OutWord) : Option Nat :=
  if o.due || s.accs.any (fun a => a.owner == .late o.id) || s.lates.contains o.id then none
  else match o.instr with
    | .wake .. => if idDev o.val != s.devnum % 2 ^ 18 then some (idDev o.val) else none
    | .sendm .. => if idDev o.srcA != s.devnum % 2 ^ 18 then some (idDev o.srcA) else none
    | _ => none

/-- A link goes down: requests to devices that have become unreachable end with cause 0xA4, and the dies' copies of frames homed there
are poisoned. -/
def State.linkDown (s : State) (n : Nat) : State :=
  let s : State := (s.modLink n (fun l => { l with up := false, repair := none, unacked := [] })).hubEvent (0x60 + n) 0xA2 0 (BitVec.ofNat 64 n)
  let lost := s.outw.filter (fun (o : OutWord) => match s.awaitsPeer o with | some d => (s.route d 0).isNone | none => false)
  let s : State := lost.foldl (fun s o => s.failOut o.id 0xA4) s
  let gone := s.accs.filter (fun a => a.stage == .sent && (match a.xl with | some x => s.unreachable x.pf | none => false))
  let s : State := gone.foldl (fun s a => s.accFault a.id 0xA4) s
  let cut := s.hub.snoops.filter (fun q => (s.route q.2.2 q.2.1.addr).isNone)
  let s : State := cut.foldl (fun s q => s.snooped q.2.2 q.1 0 []) s
  { s with l1 := s.l1.map (fun (l : L1Line) => if s.unreachable l.pf then { l with poison := l.poison ||| l.valid } else l),
           l2 := s.l2.map (fun (l : L2Line) => if s.unreachable l.pf then { l with poison := l.poison ||| l.where_ WordState.valid } else l) }

/-- LANE_REPAIR: the lane is remapped to a spare; with none left the link drops to 8 lanes, and below them it goes down. (DESIGN CHOICE, log 39.) -/
def execLaneRepair (s : State) : Host.Outcome State Fault Refusal :=
  match s.arg with
  | some (.laneRepair n lane) =>
    let l := s.link n
    if !l.up || l.repair != some lane then .next s
    else
      let fails := l.fails.filter (fun q => q.1 != lane)
      let done := fun (s : State) => s.hubEvent (0x60 + n) 0xA1 0 (BitVec.ofNat 64 lane)
      if 0 < l.spares then .next (done (s.modLink n (fun l => { l with spares := l.spares - 1, fails := fails, repair := none })))
      else if 8 < l.lanes then .next (done (s.modLink n (fun l => { l with lanes := 8, fails := fails, repair := none })))
      else .next (s.linkDown n)
  | _ => .next s

end Sys2Proof.Machine
end

