-- ==== Sys2Proof/Machine/Manage.lean ====
section
/-! DEFINITION. Manage.lean: the management controller: ceilings, the trip, bring-up and its mailbox (20 R435 to R443). -/

namespace Sys2Proof.Machine

/-! ### Ceilings (20 R436, R437) -/

def Cluster.ceil (c : Cluster) : Nat := (c.mbudget.extractLsb' 32 16).toNat
def Cluster.setCeil (c : Cluster) (v : Nat) : Cluster :=
  { c with mbudget := (c.mbudget &&& 0xFFFF0000FFFFFFFF) ||| BitVec.ofNat 64 (v % 2 ^ 16 * 2 ^ 32) }

/-- The source of the management controller's events (18 Table 18-15). -/
def mgmtSource : Nat := 0x78

/-- The ceiling that follows a sample (20 Table 20-1): a hot die lowers its own to 0x20 at the least, a module that draws 3,300 W or more
every one to 0x400; `up`: by how much a step may raise it. -/
def nextCeil (c : Nat) (hot power : Bool) (up : Nat) : Nat :=
  if hot || power then
    let c := if hot then (if c ≤ 0x20 then c else max 0x20 (c - 1024)) else c
    if power then (if c ≤ 0x400 then c else max 0x400 (c - 512)) else c
  else min 0x2000 (c + up)

/-- The ceiling of a die's clusters; the event tells of a change. -/
def State.dieCeil (s : State) (die : Nat) (hot power : Bool) (up : Nat) : State :=
  let c := (s.cluster (die * Config.clustersPerDie)).ceil
  let c' := if c ≤ 0x2000 ∨ hot ∨ power then nextCeil c hot power up else c
  if c' = c then s
  else
    let s : State := { s with clusters := s.clusters.mapIdx (fun i x => if i / Config.clustersPerDie = die then x.setCeil c' else x) }
    s.hubEvent mgmtSource 0xB0 (BitVec.ofNat 64 die) (BitVec.ofNat 64 c')

/-- The module trips: its clocks stop, and what was in flight is lost (20 R438). -/
def State.tripped (s : State) : State :=
  { s with hub := { s.hub with trip := true, frames := [], reads := [] }, phase := 0, agenda := [], grants := [], lates := [], future := [], late := none, cur := none, arg := none }

/-- POWER_SAMPLE, every 100 µs: the module's power and, for each die, its hottest junction. The conditions are clear for 10 ms after
100 samples that show none. -/
def execPowerSample (s : State) : Host.Outcome State Fault Refusal :=
  match s.arg with
  | some (.powerSample watts temps) =>
    if !s.hub.ready || s.hub.trip then .next s
    else if temps.any (fun t => decide (115 ≤ t)) then .next s.tripped
    else
      let power := decide (3300 ≤ watts)
      let any := power || temps.any (fun t => decide (105 ≤ t))
      let clear := if any then 0 else s.hub.clear + 1
      let (r, s) := s.draw
      let s : State := s.modHub (fun h => { h with clear := clear })
      let up := if 100 ≤ clear then 1 + Config.choice r % 1024 else 0
      .next ((List.range Config.dies).foldl (fun s d => s.dieCeil d (decide (105 ≤ temps.getD d 0)) power up) s)
  | _ => .next s

/-- THERMAL_TRIP: a junction at 115 °C or above, or a coolant flow below 1.0 L/min (in mL/min). -/
def execThermalTrip (s : State) : Host.Outcome State Fault Refusal :=
  match s.arg with
  | some (.thermalTrip temp flow) => .next (if 115 ≤ temp ∨ flow < 1000 then s.tripped else s)
  | _ => .next s

/-! ### Bring-up (20 R439, R440) -/

/-- The first stage of bring-up that fails: the loader, the firmware, or a link's training. -/
def failedStage (draw : Nat) : Option Nat :=
  ([1, 2, 3] : List Nat).find? (fun k => !Config.firmwareOk (draw + k))

/-- MODULE_RESET: every unit, register and memory as at reset, and then the steps of Table 20-2 as far as they succeed. What the outside
world holds, sends and has been sent stays, and so does the fused rollback counter. (DESIGN CHOICE, log 3, 10.) (DEDUCED, log 33, 41.) -/
def execModuleReset (s : State) : Host.Outcome State Fault Refusal :=
  match s.arg with
  | some .moduleReset =>
    let r := State.reset
    let s' := { r with
      agenda := [], now := s.now, epoch := s.now, inputs := s.inputs, ext := s.ext, fresh := s.fresh + 4, ids := s.ids, msix := s.msix, replies := s.replies,
      hub := { r.hub with rollback := max Config.fusedRollback s.hub.rollback } }
    match failedStage s.fresh with
    | some k =>
      .next { s' with clusters := s'.clusters.map (fun c => c.setCeil 0x20), hub := { s'.hub with stage := k, failed := true } }
    | none =>
      .next { s' with devnum := Config.bringUpDevnum % 2 ^ 18,
                      hub := { s'.hub with stage := 7, ready := true, hbmLs := Config.bringUpLs % 24577 * 2 ^ 21 } }
  | _ => .next s

/-! ### The mailbox (20 R441 to R443) -/

/-- A command begins, unless one is running or the number is no command's. -/
def State.mgmtBegin (s : State) (cmd addr : Nat) : State :=
  if s.hub.trip then s
  else if s.hub.busy then s.modHub (fun h => { h with err := true })
  else (s.modHub (fun h => { h with busy := true, cmd := cmd, cmdAddr := addr })).post .mgmtCommandComplete

/-- MGMT_ATTEST. -/
def execMgmtAttest (s : State) : Host.Outcome State Fault Refusal :=
  match s.arg with
  | some (.mgmtAttest a) => .next (s.mgmtBegin 1 a)
  | _ => .next s
/-- MGMT_READ_CERT. -/
def execMgmtReadCert (s : State) : Host.Outcome State Fault Refusal :=
  match s.arg with
  | some (.mgmtReadCert a) => .next (s.mgmtBegin 2 a)
  | _ => .next s
/-- MGMT_COMMIT_FIRMWARE. -/
def execMgmtCommitFirmware (s : State) : Host.Outcome State Fault Refusal :=
  match s.arg with
  | some (.mgmtCommitFirmware a) => .next (s.mgmtBegin 3 a)
  | _ => .next s
/-- MGMT_RESTORE_SLICE. -/
def execMgmtRestoreSlice (s : State) : Host.Outcome State Fault Refusal :=
  match s.arg with
  | some (.mgmtRestoreSlice a) => .next (s.mgmtBegin 4 a)
  | _ => .next s
/-- MGMT_INVALID_CMD. -/
def execMgmtInvalidCmd (s : State) : Host.Outcome State Fault Refusal :=
  match s.arg with
  | some .mgmtInvalidCmd => .next (if s.hub.trip then s else s.modHub (fun h => { h with err := true }))
  | _ => .next s

/-- `n` free bytes, as a number: a digest, a certificate or a signature (log 10). -/
def State.freeBytes (s : State) (n : Nat) : Nat × State :=
  (ofBytes ((List.range n).map (fun i => Config.signatureByte (s.fresh + i))), { s with fresh := s.fresh + n })

/-- Command 1: the report of Table 20-5, with the nonce of the buffer. -/
def State.attest (s : State) (a : Nat) : State :=
  let (nonce, s) := s.hostRead a 48
  let (digests, s) := s.freeBytes 144
  let (sig, s) := s.freeBytes 96
  let s : State := s.hostWrite a 8 1
  let s : State := s.hostWrite (a + 0x8) 8 Config.partid.toNat
  let s : State := s.hostWrite (a + 0x10) 8 (s.devnum % 2 ^ 18)
  let s : State := s.hostWrite (a + 0x18) 8 (s.hub.rollback % 2 ^ 32)
  let s : State := s.hostWrite (a + 0x20) 48 nonce
  let s : State := s.hostWrite (a + 0x50) 144 digests
  s.hostWrite (a + 0xE0) 96 sig

/-- Command 2: the certificate, its length first; both are facts of the part. -/
def State.certify (s : State) (a : Nat) : State :=
  let (r, s) := s.draw
  let n := 1 + Config.choice r % 4088
  let (bytes, s) := s.freeBytes n
  (s.hostWrite a 8 n).hostWrite (a + 8) n bytes

/-- Command 3: an image whose checks all hold is committed, and the rollback counter rises to its version; another sets err. -/
def State.commitFirmware (s : State) : State :=
  let (r, s) := s.draw
  let v := Config.firmwareVersion r % 2 ^ 32
  s.modHub (fun h => if Config.firmwareOk r && decide (h.rollback ≤ v) then { h with rollback := v } else { h with err := true })

/-- Command 4: a failed slice that passes its test is good again, and empty (13 R282). -/
def State.restoreSlice (s : State) (a : Nat) : State :=
  let (b, s) := s.hostRead a 1
  let (r, s) := s.draw
  if b < 16 && s.slicesDown.contains b && Config.firmwareOk r then
    { s with slicesDown := s.slicesDown.filter (· != b), dir := s.dir.filter (fun (e : DirEnt) => dirSliceOf e.pf != b) }.hubEvent (0x10 + b) 0x59
      (BitVec.ofNat 64 b) (BitVec.ofNat 64 b)
  else s.modHub (fun h => { h with err := true })

/-- MGMT_COMMAND_COMPLETE. (DESIGN CHOICE, log 10.) -/
def execMgmtCommandComplete (s : State) : Host.Outcome State Fault Refusal :=
  match s.arg with
  | some .mgmtCommandComplete =>
    if !s.hub.busy then .next s
    else
      let a := s.hub.cmdAddr
      let s : State := match s.hub.cmd with
        | 1 => s.attest a
        | 2 => s.certify a
        | 3 => s.commitFirmware
        | _ => s.restoreSlice a
      .next { s.modHub (fun h => { h with busy := false }) with msix := (s.hub.eqCtl.extractLsb' 32 11).toNat :: s.msix }
  | _ => .next s

end Sys2Proof.Machine
end

