-- ==== Sys2Proof/Machine/Cycle.lean ====
section
/-! DEFINITION. Cycle.lean: what happens within a core cycle, in the order of log 2. -/

namespace Sys2Proof.Machine

/-! ### The start of a core cycle -/

/-- What the arbiters of a cycle see of a unit: its state at the end of the cycle before (06 R111). -/
def HwUnit.snapshot (u : HwUnit) : HwUnit :=
  { u with hwFlags := 0, sbSeen := u.sb, seenIdle := !u.able, turned := false, resid := if u.team && u.resident then u.resid + 1 else u.resid }

/-- What a tripped module still answers: its reset, and reads of BAR0 (20 R438). -/
def Ev.passesTrip : Ev → Bool
  | .moduleReset => true
  | .inboundReadRequest 2 _ _ _ => true
  | _ => false

/-- Steps at the banks and charges, which take their issuers' turns (10 R202, 15 R331). -/
def Ev.atBank : Ev → Bool
  | .feWaiterRetry .. | .feTimedRetry .. | .outstandingFeStep _ | .errorCharge .. => true
  | _ => false

/-- The command of a channel that a step carries on: its cluster and number. -/
def Ev.command : Ev → Option (Nat × Nat)
  | .copy c i | .copy2d c i | .gather c i | .scatter c i | .fill c i | .convert c i | .tileld c i | .tilest c i | .flagset c i | .bardec c i =>
    some (c, i)
  | _ => none

/-- A place that no unit has. -/
def nowhere : UKey := ⟨0, 0, 0, false, 0⟩

/-- The issuer of a step at a bank. -/
def State.issuerOf (s : State) : Ev → UKey
  | .feWaiterRetry u _ | .feTimedRetry u _ => u
  | .outstandingFeStep id => ((s.acc? id).bind (·.unit)).getD nowhere
  | .errorCharge _ who _ _ _ _ _ => who.getD nowhere
  | _ => nowhere

/-- The turn of a channel's step: cluster, channel. -/
def State.channelRank (s : State) (e : Ev) : Nat :=
  match Ev.command e with
  | some (c, i) => 4 * c + (((s.cluster c).cmd? i).map (·.ch)).getD 0
  | none => 0

/-- Inserts a step by its channel, behind those of the same one. -/
def State.insertStep (s : State) (e : Ev) : List Ev → List Ev
  | [] => [e]
  | x :: r => if s.channelRank x ≤ s.channelRank e then x :: s.insertStep e r else e :: x :: r

/-- Steps that fall due now are taken from what is to come. -/
def State.takeDue (s : State) (p : Ev → Bool) : List Ev × State :=
  ((dueNow s.now s.future).filter p, { s with future := s.future.filter (fun (q : Nat × Ev) => !(decide (q.1 ≤ s.now) && p q.2)) })

/-- The commands that channels carry on in this cycle, in ascending order (10 R202). (DESIGN CHOICE, log 2.) -/
def State.channelSteps (s : State) : List Ev × State :=
  let (l, s) := s.takeDue (fun e => (Ev.command e).isSome)
  (l.foldl (fun a e => s.insertStep e a) [], s)

/-- The steps at the banks and the charges of this cycle take their turns. (DESIGN CHOICE, log 2.) -/
def State.bankGrants (s : State) : State :=
  let (l, s) := s.takeDue Ev.atBank
  l.foldl (fun (s : State) e => addGrant s (s.issuerOf e) (some e)) s

/-- The start of a core cycle: what is due, in the order in which it was sent; the steps of channels and at the banks wait for their turns.
(DESIGN CHOICE, log 2.) -/
def State.newCycle (s : State) : State :=
  let t := s.now + 1
  let due := dueNow t s.inputs
  let s : State := { s with now := t, inputs := s.inputs.filter (fun (p : Nat × Ev) => decide (t < p.1)) }
  if s.hub.trip then { s with agenda := due.filter Ev.passesTrip }
  else
    let s : State := { s with future := s.future ++ (due ++ s.feRetries).map (fun e => (t, e)), units := s.units.map HwUnit.snapshot }
    let (l, s) := s.takeDue (fun e => !Ev.atBank e && (Ev.command e).isNone)
    { s with phase := 1, agenda := l }

/-! ### Conditions that the state meets of itself -/

/-- A word that waited for the counters alone issues again once they are zero (06 R126, 05 R88, 18 R408). -/
def HwUnit.counterWake (u : HwUnit) : HwUnit :=
  match u.wait with
  | some w => if w.kind == .counters && u.sbZero then u.unblock else u
  | none => u

/-- A thread that is blocked on a logged word (18 R398): its clause waits for the word's slot, or it waits for that word or for all. (DEDUCED, log
32.) -/
def State.stuckOnLog (s : State) (u : HwUnit) : Bool :=
  let mine := (s.outOf u.id).filter (fun (o : OutWord) => u.logged.any (fun q => q.1 == o.id))
  !u.team && decide (u.slot ≤ 6) && u.status == .running && !mine.isEmpty &&
  (match u.wait with
  | some w => w.kind == .counters || mine.any (fun (o : OutWord) => w.kind == .other && w.id == o.id)
  | none => match u.clause with
    | some c => !u.begun && mine.any (fun (o : OutWord) => o.slot != 0 && c.waits o.slot.toNat)
    | none => false)

def State.markStuck (s : State) (u : HwUnit) : HwUnit :=
  if s.stuckOnLog u then (if u.stuck = 0 then { u with stuck := max 1 s.now } else u) else { u with stuck := 0 }

/-- A team that a copy-engine command's charge has exhausted parks at its clause boundary (15 R331). (DEDUCED, log 29.) -/
def State.parkAtBoundary (s : State) (u : HwUnit) : State :=
  if u.parkDue && u.status == .running && !u.exiting && u.split.isNone && !u.begun && u.widx == 1 then
    let f : LaneFault := ⟨0x62, 0, u.pc, 0, 0, [], 0, 0⟩
    let rec_ := faultRecord (u.faultDws s.devnum 0x62 0 true false 0 0) u.pc u.widx f 0
    let s : State := (s.unwait u).forget u
    (s.modUnit u.id (fun u => { u.dropResv with status := .parked, parkDue := false, clause := none, faultW := none, frec := rec_ })).writeArea u.id
  else s

/-- A die whose fade intervals stand still begins one as sr.fadeint leaves zero. (DEDUCED, log 33.) -/
def State.startFade (s : State) (die : Nat) : State :=
  let iv := (s.fadeint.toList.getD die 0).toNat
  if iv = 0 ∨ s.future.any (fun (e : Nat × Ev) => e.2 == .fadeInterval die) then s else s.at_ (s.now + 2 * iv) (.fadeInterval die)

/-- What the state calls for by itself at the start of a cycle. (DESIGN CHOICE, log 2.) -/
def State.atStart (s : State) : State :=
  let s : State := s.sweepLatches.trelSteps.drainLinks
  let s : State := { s with units := s.units.map (fun (u : HwUnit) => s.markStuck (s.engineWake u.counterWake)) }
  let s : State := s.retryAccs
  let s : State := (s.units.filter (fun (u : HwUnit) => u.killed)).foldl (fun (s : State) (u : HwUnit) => s.killHeld u) s
  let s : State := (s.units.filter (fun (u : HwUnit) => u.preempt.isSome)).foldl (fun (s : State) (u : HwUnit) => s.preemptStep u.id) s
  let s : State := s.units.foldl (fun (s : State) (u : HwUnit) => s.parkAtBoundary u) s
  (List.range Config.dies).foldl State.startFade s

/-- The retry that is due of what a unit waits for (11 R216; 17 R367, R372; 18 R411). -/
def State.retryOf (s : State) (u : HwUnit) : List Ev :=
  match u.wait with
  | none => []
  | some w =>
    match w.kind with
    | .barrier => if s.barrierRipe u w then [.barrierWaitRetry u.id w.id] else []
    | .queue => if s.testDue u w then [.queueRetry u.id w.id] else []
    | .group _ => if s.testDue u w then [.groupWaitRetry u.id w.id] else []
    | .inbox => if s.testDue u w then [.waitmTimedRetry u.id w.id] else []
    | _ => []

/-- Steps of a unit that a condition of the state calls for. -/
def State.stepsOf (s : State) (u : HwUnit) : List Ev :=
  if u.split.isSome && u.wait.isNone && (s.outOf u.id).isEmpty then [.teamSplit u.id]
  else if u.exiting && u.sbZero then [.unitExit u.id]
  else if s.logFree u && s.logTurn u then [.operandLogRecord u.id]
  else if u.team && u.able && !u.begun && u.widx == 1 && u.splitpol.getLsbD 7 && decide (64 ≤ u.sparse) && s.splittable u then [.autoSplit u.id]
  else []

/-- Steps of units that a condition of the state calls for. (DESIGN CHOICE, log 2.) -/
def unitSteps (s : State) : List Ev := s.units.flatMap (fun (u : HwUnit) => s.stepsOf u ++ s.retryOf u)

/-- Rendezvous that may form their harnesses (05 R90). -/
def formationSteps (s : State) : List Ev :=
  (s.clusters.mapIdx (fun c (cl : Cluster) => (cl.rdv.filter (s.rdvReady c)).map (fun (r : Rdv) => Ev.harnessFormation c r.hid))).flatten

/-- Fetches that units call for (02 R16). (DESIGN CHOICE, log 2.) -/
def fetchSteps (s : State) : List Ev :=
  (s.units.filter (fun (u : HwUnit) => u.able && u.clause.isNone && !u.fetching)).map (fun (u : HwUnit) => Ev.clauseFetch u.id)

/-! ### Issue -/

/-- A word whose release is performed and which has not taken effect. -/
def State.lateWord (s : State) (oid : Nat) : Option OutWord := s.outw.find? (fun (o : OutWord) => o.id == oid && !o.due)

/-- Pipelines of threads that may issue. (DESIGN CHOICE, log 2.) -/
def splitSteps (s : State) : List Ev :=
  ((s.units.filter (fun (u : HwUnit) => !u.team && u.able && u.clause.isSome)).map (fun (u : HwUnit) => (u.cluster, u.pipe))).eraseDups.map
    (fun p => Ev.splitIssue p.1 p.2)

/-- A team that goes on with the clause for which it has the slot. -/
def State.goesOn (s : State) (k : UKey) : Bool :=
  match s.unit? k with
  | some u => u.able && u.clause.isSome
  | none => false

/-- The word at which a team stands would raise its counter above 63 (02 R24). -/
def State.heldAt63 (s : State) (k : UKey) (q : List UKey) : Bool :=
  match s.wordDue k with
  | none => false
  | some (u, w) =>
    match decodeWord u.env w with
    | .error _ => false
    | .ok i => i.hdr.sb != 0 && q.any (fun j => match s.unit? j with | some v => v.counter i.hdr.sb == 63 | none => false)

/-- The word at which a team stands is a TCLAIM. -/
def State.claims (s : State) (k : UKey) : Bool :=
  match s.wordDue k with
  | some (u, w) => (match decodeWord u.env w with | .ok (.tclaim ..) => true | _ => false)
  | none => false

/-- The teams that hold an issue slot issue their next words, in a TCLAIM the team that was chosen before its partner (12 R241); a word of a pair that a counter
of either holds back issues in neither (02 R24, 06 R116). (DESIGN CHOICE, log 2.) -/
def State.harnessGrants (s : State) : State :=
  s.harnesses.foldl (fun (s : State) (h : Harness) =>
    if h.freeAt ≤ s.now then
      let q := ((h.holder.toList ++ (if h.holder.isSome then h.pair.toList else [])).filter s.goesOn)
      if 1 < q.length && q.any (fun k => s.heldAt63 k q) then s
      else match q with
        | [t, v] => if s.claims t then addInTurn s t v else addGrant (addGrant s t none) v none
        | _ => q.foldl (fun (s : State) k => addGrant s k none) s
    else s) s

/-- A team whose clause has ended, or that has stopped, lets its issue slot go at the end of the cycle; a partner that is left alone in the
middle of a paired clause goes on with it alone (06 R109, R117). -/
def State.letGo (s : State) (h : Harness) : Harness :=
  let goes := fun (k : UKey) => match s.unit? k with | some u => u.able && u.clause.isSome && !u.turned | none => false
  let ended := fun (k : UKey) => match s.unit? k with | some u => u.turned | none => false
  match h.holder with
  | none => h
  | some a =>
    match h.pair with
    | none => if goes a then h else { h with holder := none, lastPair := none }
    | some b =>
      match goes a, goes b with
      | true, true => h
      | true, false => { h with pair := none, lastPair := none }
      | false, true => { h with holder := some b, pair := none, lastPair := none }
      | false, false => { h with holder := none, pair := none, lastPair := if ended a && ended b then some (a, b) else none }

/-- Decisions of the arbiters that fall into this cycle (06 R110, R118, 21 R445). (DESIGN CHOICE, log 2.) -/
def arbSteps (s : State) : List Ev :=
  s.harnesses.flatMap (fun (h : Harness) =>
    if h.freeAt ≤ s.now + 1 then
      let holds := match h.holder.bind s.unit? with
        | some u => u.able && u.clause.isSome
        | none => false
      if !holds then [Ev.issueArbitration h.cluster h.base]
      else match s.at? h.cluster h.base 7 true with
        | some u => if u.ready && !u.issued1 && h.holder != some u.id then [Ev.urgentFirstClause h.cluster h.base] else []
        | none => []
    else [])

/-- The next part of a core cycle (log 2): what is due; what the state calls for; channels and fetches; banks and issue; fetches; the arbiters' decisions and
the records that are over, and in the second core cycle of a fabric cycle the dispatcher's. (DESIGN CHOICE, log 2.) -/
def State.refill (s : State) : State :=
  match s.phase with
  | 0 => s.newCycle
  | 1 => let s : State := ({ s with phase := 2 } : State).atStart
         { s with agenda := s.agenda ++ unitSteps s ++ formationSteps s ++ acceptSteps s ++ engineSteps s }
  | 2 => let (l, s) := s.channelSteps
         { s with phase := 3, agenda := l ++ fetchSteps s }
  | 3 => { s.bankGrants.harnessGrants with phase := 4, agenda := splitSteps s }
  | 4 => let s : State := { s with harnesses := s.harnesses.map s.letGo }
         { s with phase := 5, agenda := fetchSteps s }
  | _ => let s : State := s.settleRecs.killAborted
         { s with phase := 0, agenda := arbSteps s ++ recordSteps s ++ (if s.now % 2 = 1 then [.dispatchCycle] else []) }

end Sys2Proof.Machine
end

