-- ==== Sys2Proof/Machine/Fetch.lean ====
section
/-! DEFINITION. Fetch.lean: fetching a clause (02 R15, R16, R20, R23). -/

namespace Sys2Proof.Machine

/-- A doubleword that has been fetched. (DEDUCED, log 21.) -/
def HwUnit.fetched (u : HwUnit) (a : Nat) : Option Word :=
  match u.fbuf.find? (fun p => p.1 == a / 4), u.fbuf.find? (fun p => p.1 == a / 4 + 1) with
  | some lo, some hi => some (BitVec.ofNat 64 (lo.2.toNat + 2 ^ 32 * hi.2.toNat))
  | _, _ => none

/-- A read of code, within one frame, from the L2: what an acquire of team scope lets it see is performed there or stands dirty in its own
L1 (02 R16). (DEDUCED, log 21.) -/
def HwUnit.codeAcc (u : HwUnit) (a n : Nat) : Acc :=
  { u.access 0 .fetch .si .cl (.fetch u.id) a n (datumMask (a % 128) n) with sx := false }

/-- The pieces of a run of bytes within frames; a clause spans at most two. -/
def framePieces (a n : Nat) : List (Nat × Nat) :=
  let first := min n (128 - a % 128)
  if first < n then [(a, first), (a + first, n - first)] else [(a, n)]

/-- A clause fetched whole: the arbiters of this cycle do not see it yet (06 R111), but where it follows one that has retired in this
cycle and is fetched ahead (06 R110). -/
def HwUnit.takeClause (u : HwUnit) (c : Clause) : HwUnit :=
  { u with clause := some c, begun := false, fbuf := [], seenIdle := u.seenIdle || !u.turned }

/-- One attempt: what is missing is asked for, header first; a clause that is whole is checked and kept. -/
def State.fetchOnce (s : State) (u : HwUnit) : State :=
  let a := u.pc.toNat % 2 ^ 57
  let top := u.pc.toNat / 2 ^ 57 * 2 ^ 57
  let stop := fun (cause : Nat) => s.raise u.id ((mkFaults u.active u.n cause u.pc 0).map (fun f =>
    { f with dw24 := if cause = 0x70 then u.pc else 0 }))
  if !canonical u.pc then stop 0x70
  else
    match u.fetched a with
    | none => (s.setUnit { u with fetching := true }).addAccs [u.codeAcc (top + a) 8]
    | some h =>
      let n := (h.extractLsb' 60 4).toNat + 1
      let ws := (List.range n).map (fun i => u.fetched (a + 8 * (i + 1)))
      if ws.any (·.isNone) then
        if !canonical (u.pc + BitVec.ofNat 64 (8 * n)) then stop 0x70
        else (s.setUnit { u with fetching := true }).addAccs ((framePieces (top + a + 8) (8 * n)).map (fun p => u.codeAcc p.1 p.2))
      else
        let c : Clause := ⟨u.pc, h, ws.map (·.getD 0)⟩
        match c.check with
        | some cause => ({ s with units := s.units.map (fun (w : HwUnit) => if w.id == u.id then { w with fbuf := [] } else w) } : State).raise u.id
            (mkFaults u.active u.n cause u.pc 0)
        | none => s.setUnit (u.takeClause c)

/-- A fetch that can go on does so: a unit that goes on, has no clause and awaits no part of one. -/
def State.fetchFor (s : State) (k : UKey) : Nat → State
  | 0 => s
  | n + 1 =>
    match s.unit? k with
    | some u => if u.able && u.clause.isNone && !u.fetching then State.fetchFor (s.fetchOnce u) k n else s
    | none => s

/-- CLAUSE_FETCH (02 R16). (DEDUCED, log 21.) -/
def execClauseFetch (s : State) : Host.Outcome State Fault Refusal :=
  match s.arg with
  | some (.clauseFetch k) => .next (s.fetchFor k 3)
  | _ => .next s

end Sys2Proof.Machine
end

