-- ==== Sys2Proof/Machine/Dispatch.lean ====
section
/-! DEFINITION. Dispatch.lean: one arm for each row of the opcode table. -/

namespace Sys2Proof.Machine

/-- The meaning of a row: a word of the current unit, or a step of the part that acts on `s.arg`. -/
def exec (i : Instr) (s : State) : Host.Outcome State Fault Refusal :=
  match i with
  | .br h off => Sys2Proof.Machine.execBr h off s
  | .brDiv h off => Sys2Proof.Machine.execBrDiv h off s
  | .join h => Sys2Proof.Machine.execJoin h s
  | .jmp h off => Sys2Proof.Machine.execJmp h off s
  | .jmpx h a => Sys2Proof.Machine.execJmpx h a s
  | .call h d off => Sys2Proof.Machine.execCall h d off s
  | .callx h d a => Sys2Proof.Machine.execCallx h d a s
  | .ret h a => Sys2Proof.Machine.execRet h a s
  | .loop h a off => Sys2Proof.Machine.execLoop h a off s
  | .halt h => Sys2Proof.Machine.execHalt h s
  | .yield h => Sys2Proof.Machine.execYield h s
  | .nop h => Sys2Proof.Machine.execNop h s
  | .cinch h a b kc wc entry => Sys2Proof.Machine.execCinch h a b kc wc entry s
  | .split h => Sys2Proof.Machine.execSplit h s
  | .movsr h d sri => Sys2Proof.Machine.execMovsr h d sri s
  | .movrs h sri a => Sys2Proof.Machine.execMovrs h sri a s
  | .movrsSet h sri a => Sys2Proof.Machine.execMovrsSet h sri a s
  | .movrsClr h sri a => Sys2Proof.Machine.execMovrsClr h sri a s
  | .add h t d a b => Sys2Proof.Machine.execAdd h t d a b s
  | .sub h t d a b => Sys2Proof.Machine.execSub h t d a b s
  | .adds h t d a b => Sys2Proof.Machine.execAdds h t d a b s
  | .addsu h t d a b => Sys2Proof.Machine.execAddsu h t d a b s
  | .subs h t d a b => Sys2Proof.Machine.execSubs h t d a b s
  | .subsu h t d a b => Sys2Proof.Machine.execSubsu h t d a b s
  | .mul h t d a b => Sys2Proof.Machine.execMul h t d a b s
  | .mulh h t d a b => Sys2Proof.Machine.execMulh h t d a b s
  | .mulhu h t d a b => Sys2Proof.Machine.execMulhu h t d a b s
  | .div h t d a b => Sys2Proof.Machine.execDiv h t d a b s
  | .divu h t d a b => Sys2Proof.Machine.execDivu h t d a b s
  | .rem h t d a b => Sys2Proof.Machine.execRem h t d a b s
  | .remu h t d a b => Sys2Proof.Machine.execRemu h t d a b s
  | .and h t d a b => Sys2Proof.Machine.execAnd h t d a b s
  | .or h t d a b => Sys2Proof.Machine.execOr h t d a b s
  | .xor h t d a b => Sys2Proof.Machine.execXor h t d a b s
  | .andn h t d a b => Sys2Proof.Machine.execAndn h t d a b s
  | .orn h t d a b => Sys2Proof.Machine.execOrn h t d a b s
  | .shl h t d a b => Sys2Proof.Machine.execShl h t d a b s
  | .shr h t d a b => Sys2Proof.Machine.execShr h t d a b s
  | .sra h t d a b => Sys2Proof.Machine.execSra h t d a b s
  | .rol h t d a b => Sys2Proof.Machine.execRol h t d a b s
  | .clz h t d a => Sys2Proof.Machine.execClz h t d a s
  | .ctz h t d a => Sys2Proof.Machine.execCtz h t d a s
  | .popc h t d a => Sys2Proof.Machine.execPopc h t d a s
  | .min h t d a b => Sys2Proof.Machine.execMin h t d a b s
  | .max h t d a b => Sys2Proof.Machine.execMax h t d a b s
  | .minu h t d a b => Sys2Proof.Machine.execMinu h t d a b s
  | .maxu h t d a b => Sys2Proof.Machine.execMaxu h t d a b s
  | .abs h t sat d a => Sys2Proof.Machine.execAbs h t sat d a s
  | .sel h d pc a b => Sys2Proof.Machine.execSel h d pc a b s
  | .lea h d a b sh => Sys2Proof.Machine.execLea h d a b sh s
  | .ext h t d a => Sys2Proof.Machine.execExt h t d a s
  | .extu h t d a => Sys2Proof.Machine.execExtu h t d a s
  | .bfx h d a pos len1 => Sys2Proof.Machine.execBfx h d a pos len1 s
  | .bfxu h d a pos len1 => Sys2Proof.Machine.execBfxu h d a pos len1 s
  | .bfi h d a pos len1 => Sys2Proof.Machine.execBfi h d a pos len1 s
  | .cmp h c t pd a b pc => Sys2Proof.Machine.execCmp h c t pd a b pc s
  | .pand h pd pa pb => Sys2Proof.Machine.execPand h pd pa pb s
  | .por h pd pa pb => Sys2Proof.Machine.execPor h pd pa pb s
  | .pxor h pd pa pb => Sys2Proof.Machine.execPxor h pd pa pb s
  | .pnot h pd pa => Sys2Proof.Machine.execPnot h pd pa s
  | .addi h t d a imm => Sys2Proof.Machine.execAddi h t d a imm s
  | .muli h t d a imm => Sys2Proof.Machine.execMuli h t d a imm s
  | .andi h t d a imm => Sys2Proof.Machine.execAndi h t d a imm s
  | .ori h t d a imm => Sys2Proof.Machine.execOri h t d a imm s
  | .xori h t d a imm => Sys2Proof.Machine.execXori h t d a imm s
  | .shli h t d a imm => Sys2Proof.Machine.execShli h t d a imm s
  | .shri h t d a imm => Sys2Proof.Machine.execShri h t d a imm s
  | .srai h t d a imm => Sys2Proof.Machine.execSrai h t d a imm s
  | .roli h t d a imm => Sys2Proof.Machine.execRoli h t d a imm s
  | .cmpi h c t pd a imm => Sys2Proof.Machine.execCmpi h c t pd a imm s
  | .li h d imm => Sys2Proof.Machine.execLi h d imm s
  | .lihMid h d imm => Sys2Proof.Machine.execLihMid h d imm s
  | .lihHigh h d imm => Sys2Proof.Machine.execLihHigh h d imm s
  | .fadd h t rm sat ftz d a b => Sys2Proof.Machine.execFadd h t rm sat ftz d a b s
  | .fsub h t rm sat ftz d a b => Sys2Proof.Machine.execFsub h t rm sat ftz d a b s
  | .fmul h t rm sat ftz d a b => Sys2Proof.Machine.execFmul h t rm sat ftz d a b s
  | .fma h t rm sat ftz d a b c => Sys2Proof.Machine.execFma h t rm sat ftz d a b c s
  | .fdiv h t rm ftz d a b => Sys2Proof.Machine.execFdiv h t rm ftz d a b s
  | .fsqrt h t rm ftz d a => Sys2Proof.Machine.execFsqrt h t rm ftz d a s
  | .fmin h t ftz d a b => Sys2Proof.Machine.execFmin h t ftz d a b s
  | .fmax h t ftz d a b => Sys2Proof.Machine.execFmax h t ftz d a b s
  | .fcmp h c t ftz pd a b pc => Sys2Proof.Machine.execFcmp h c t ftz pd a b pc s
  | .fcvt h t1 t2 rm sat ftz d a => Sys2Proof.Machine.execFcvt h t1 t2 rm sat ftz d a s
  | .fcvtu h t1 t2 rm ftz d a => Sys2Proof.Machine.execFcvtu h t1 t2 rm ftz d a s
  | .fclass h t d a => Sys2Proof.Machine.execFclass h t d a s
  | .frcp h t rm ftz d a => Sys2Proof.Machine.execFrcp h t rm ftz d a s
  | .frsq h t rm ftz d a => Sys2Proof.Machine.execFrsq h t rm ftz d a s
  | .fexp2 h t rm ftz d a => Sys2Proof.Machine.execFexp2 h t rm ftz d a s
  | .flog2 h t rm ftz d a => Sys2Proof.Machine.execFlog2 h t rm ftz d a s
  | .fsinp h t rm ftz d a => Sys2Proof.Machine.execFsinp h t rm ftz d a s
  | .fscale h t rm ftz d a b => Sys2Proof.Machine.execFscale h t rm ftz d a b s
  | .vld h gv z rt sc wd d a pg off => Sys2Proof.Machine.execVld h gv z rt sc wd d a pg off s
  | .vst h gv rt sc wd d a pg off => Sys2Proof.Machine.execVst h gv rt sc wd d a pg off s
  | .vldx h gov rt sc wd d a b => Sys2Proof.Machine.execVldx h gov rt sc wd d a b s
  | .vstx h gv pg rt sc wd d a b => Sys2Proof.Machine.execVstx h gv pg rt sc wd d a b s
  | .vadd h t gov sat d a b => Sys2Proof.Machine.execVadd h t gov sat d a b s
  | .vaddu h t gov d a b => Sys2Proof.Machine.execVaddu h t gov d a b s
  | .vsub h t gov sat d a b => Sys2Proof.Machine.execVsub h t gov sat d a b s
  | .vsubu h t gov d a b => Sys2Proof.Machine.execVsubu h t gov d a b s
  | .vmul h t gov d a b => Sys2Proof.Machine.execVmul h t gov d a b s
  | .vmulh h t gov d a b => Sys2Proof.Machine.execVmulh h t gov d a b s
  | .vmulhu h t gov d a b => Sys2Proof.Machine.execVmulhu h t gov d a b s
  | .vmin h t gov d a b => Sys2Proof.Machine.execVmin h t gov d a b s
  | .vmax h t gov d a b => Sys2Proof.Machine.execVmax h t gov d a b s
  | .vminu h t gov d a b => Sys2Proof.Machine.execVminu h t gov d a b s
  | .vmaxu h t gov d a b => Sys2Proof.Machine.execVmaxu h t gov d a b s
  | .vand h t gov d a b => Sys2Proof.Machine.execVand h t gov d a b s
  | .vor h t gov d a b => Sys2Proof.Machine.execVor h t gov d a b s
  | .vxor h t gov d a b => Sys2Proof.Machine.execVxor h t gov d a b s
  | .vshl h t gov d a b => Sys2Proof.Machine.execVshl h t gov d a b s
  | .vshr h t gov d a b => Sys2Proof.Machine.execVshr h t gov d a b s
  | .vsra h t gov d a b => Sys2Proof.Machine.execVsra h t gov d a b s
  | .vfadd h t gov rm d a b => Sys2Proof.Machine.execVfadd h t gov rm d a b s
  | .vfmul h t gov rm d a b => Sys2Proof.Machine.execVfmul h t gov rm d a b s
  | .vfma h t gov rm d a b => Sys2Proof.Machine.execVfma h t gov rm d a b s
  | .vfmin h t gov d a b => Sys2Proof.Machine.execVfmin h t gov d a b s
  | .vfmax h t gov d a b => Sys2Proof.Machine.execVfmax h t gov d a b s
  | .vfcvt h t ts gov rm sat part d a => Sys2Proof.Machine.execVfcvt h t ts gov rm sat part d a s
  | .vfcvtu h t ts gov rm sat part d a => Sys2Proof.Machine.execVfcvtu h t ts gov rm sat part d a s
  | .vcmp h c t gov d a b => Sys2Proof.Machine.execVcmp h c t gov d a b s
  | .vwhile h t d a b => Sys2Proof.Machine.execVwhile h t d a b s
  | .vlen h d => Sys2Proof.Machine.execVlen h d s
  | .vsel h t pg d a b => Sys2Proof.Machine.execVsel h t pg d a b s
  | .vbcast h t gov d a => Sys2Proof.Machine.execVbcast h t gov d a s
  | .vbcastElement h t gov d a e => Sys2Proof.Machine.execVbcastElement h t gov d a e s
  | .vperm h t gov d a b => Sys2Proof.Machine.execVperm h t gov d a b s
  | .vcompress h t gv pg d a c => Sys2Proof.Machine.execVcompress h t gv pg d a c s
  | .vredadd h t gv pg rm sat d a b => Sys2Proof.Machine.execVredadd h t gv pg rm sat d a b s
  | .vredmin h t gv pg d a b => Sys2Proof.Machine.execVredmin h t gv pg d a b s
  | .vredminu h t gv pg d a b => Sys2Proof.Machine.execVredminu h t gv pg d a b s
  | .vredmax h t gv pg d a b => Sys2Proof.Machine.execVredmax h t gv pg d a b s
  | .vredmaxu h t gv pg d a b => Sys2Proof.Machine.execVredmaxu h t gv pg d a b s
  | .vscan h t gov rm d a b => Sys2Proof.Machine.execVscan h t gov rm d a b s
  | .vmerge h t d a b c => Sys2Proof.Machine.execVmerge h t d a b c s
  | .vmergeu h t d a b c => Sys2Proof.Machine.execVmergeu h t d a b c s
  | .vmergekv h t d a b c => Sys2Proof.Machine.execVmergekv h t d a b c s
  | .vmergekvu h t d a b c => Sys2Proof.Machine.execVmergekvu h t d a b c s
  | .vpair ha hb => Sys2Proof.Machine.execVpair ha hb s
  | .ld h rt sc span wd d a off => Sys2Proof.Machine.execLd h rt sc span wd d a off s
  | .st h rt sc span wd b a off => Sys2Proof.Machine.execSt h rt sc span wd b a off s
  | .ldacq h rt sc span wd d a off => Sys2Proof.Machine.execLdacq h rt sc span wd d a off s
  | .strel h rt sc span wd b a off => Sys2Proof.Machine.execStrel h rt sc span wd b a off s
  | .fence h sc => Sys2Proof.Machine.execFence h sc s
  | .amoadd h rt sc wd d a b off => Sys2Proof.Machine.execAmoadd h rt sc wd d a b off s
  | .amoand h rt sc wd d a b off => Sys2Proof.Machine.execAmoand h rt sc wd d a b off s
  | .amoor h rt sc wd d a b off => Sys2Proof.Machine.execAmoor h rt sc wd d a b off s
  | .amoxor h rt sc wd d a b off => Sys2Proof.Machine.execAmoxor h rt sc wd d a b off s
  | .amomin h rt sc wd d a b off => Sys2Proof.Machine.execAmomin h rt sc wd d a b off s
  | .amominu h rt sc wd d a b off => Sys2Proof.Machine.execAmominu h rt sc wd d a b off s
  | .amomax h rt sc wd d a b off => Sys2Proof.Machine.execAmomax h rt sc wd d a b off s
  | .amomaxu h rt sc wd d a b off => Sys2Proof.Machine.execAmomaxu h rt sc wd d a b off s
  | .amoswap h rt sc wd d a b off => Sys2Proof.Machine.execAmoswap h rt sc wd d a b off s
  | .amocas h rt sc wd d a b off => Sys2Proof.Machine.execAmocas h rt sc wd d a b off s
  | .ldlk h rt sc span wd d a off => Sys2Proof.Machine.execLdlk h rt sc span wd d a off s
  | .stck h rt sc wd pd b a off => Sys2Proof.Machine.execStck h rt sc wd pd b a off s
  | .subscr h fmt mode span pd a off => Sys2Proof.Machine.execSubscr h fmt mode span pd a off s
  | .unsub h span a off => Sys2Proof.Machine.execUnsub h span a off s
  | .upgr h fmt span pd a off => Sys2Proof.Machine.execUpgr h fmt span pd a off s
  | .invspan h sc span a off => Sys2Proof.Machine.execInvspan h sc span a off s
  | .wbspan h sc span a off => Sys2Proof.Machine.execWbspan h sc span a off s
  | .pref h rt span a off => Sys2Proof.Machine.execPref h rt span a off s
  | .pinw h pd a b off => Sys2Proof.Machine.execPinw h pd a b off s
  | .unpinw h pd a off => Sys2Proof.Machine.execUnpinw h pd a off s
  | .lds h wd d a imm => Sys2Proof.Machine.execLds h wd d a imm s
  | .ldsu h wd d a imm => Sys2Proof.Machine.execLdsu h wd d a imm s
  | .sts h wd b a imm => Sys2Proof.Machine.execSts h wd b a imm s
  | .ldsf h wd d a imm => Sys2Proof.Machine.execLdsf h wd d a imm s
  | .ldse h wd d a imm => Sys2Proof.Machine.execLdse h wd d a imm s
  | .stsf h wd b a imm => Sys2Proof.Machine.execStsf h wd b a imm s
  | .stsx h wd b a imm => Sys2Proof.Machine.execStsx h wd b a imm s
  | .feopf h a b => Sys2Proof.Machine.execFeopf h a b s
  | .feope h a b => Sys2Proof.Machine.execFeope h a b s
  | .samoadd h wd d a b => Sys2Proof.Machine.execSamoadd h wd d a b s
  | .samoand h wd d a b => Sys2Proof.Machine.execSamoand h wd d a b s
  | .samoor h wd d a b => Sys2Proof.Machine.execSamoor h wd d a b s
  | .samoxor h wd d a b => Sys2Proof.Machine.execSamoxor h wd d a b s
  | .samomin h wd d a b => Sys2Proof.Machine.execSamomin h wd d a b s
  | .samomax h wd d a b => Sys2Proof.Machine.execSamomax h wd d a b s
  | .samominu h wd d a b => Sys2Proof.Machine.execSamominu h wd d a b s
  | .samomaxu h wd d a b => Sys2Proof.Machine.execSamomaxu h wd d a b s
  | .samoswap h wd d a b => Sys2Proof.Machine.execSamoswap h wd d a b s
  | .samocas h wd d a b c => Sys2Proof.Machine.execSamocas h wd d a b c s
  | .salloc h d pc a => Sys2Proof.Machine.execSalloc h d pc a s
  | .sfree h a => Sys2Proof.Machine.execSfree h a s
  | .sfmtWrite h bf a => Sys2Proof.Machine.execSfmtWrite h bf a s
  | .sfmtRead h d bf => Sys2Proof.Machine.execSfmtRead h d bf s
  | .qbind h q port => Sys2Proof.Machine.execQbind h q port s
  | .qbindOff h q => Sys2Proof.Machine.execQbindOff h q s
  | .qpush h q a nb pd => Sys2Proof.Machine.execQpush h q a nb pd s
  | .qpop h d q nb pd => Sys2Proof.Machine.execQpop h d q nb pd s
  | .qpeek h d q nb pd => Sys2Proof.Machine.execQpeek h d q nb pd s
  | .qstat h d q => Sys2Proof.Machine.execQstat h d q s
  | .qdrain h q => Sys2Proof.Machine.execQdrain h q s
  | .qdrainAbort h q => Sys2Proof.Machine.execQdrainAbort h q s
  | .tclaim h pd c => Sys2Proof.Machine.execTclaim h pd c s
  | .trel h c => Sys2Proof.Machine.execTrel h c s
  | .tzero h td hd => Sys2Proof.Machine.execTzero h td hd s
  | .tmov h td ta hd ha => Sys2Proof.Machine.execTmov h td ta hd ha s
  | .tmovt h td ta hd ha => Sys2Proof.Machine.execTmovt h td ta hd ha s
  | .mma h fa fb td ta tb ha hb sat => Sys2Proof.Machine.execMma h fa fb td ta tb ha hb sat s
  | .mmas h fa fb td ta tb ha hb c => Sys2Proof.Machine.execMmas h fa fb td ta tb ha hb c s
  | .tcvt h tt ts rm sat td ta hd ha => Sys2Proof.Machine.execTcvt h tt ts rm sat td ta hd ha s
  | .tgang h c => Sys2Proof.Machine.execTgang h c s
  | .tjoin h fa fb td ta tb ha hb sat => Sys2Proof.Machine.execTjoin h fa fb td ta tb ha hb sat s
  | .tjoins h fa fb td ta tb ha hb c => Sys2Proof.Machine.execTjoins h fa fb td ta tb ha hb c s
  | .barinit h rt sc a b off => Sys2Proof.Machine.execBarinit h rt sc a b off s
  | .bararr h rt sc d a b off => Sys2Proof.Machine.execBararr h rt sc d a b off s
  | .barexp h rt sc a b off => Sys2Proof.Machine.execBarexp h rt sc a b off s
  | .barwait h rt sc a b off => Sys2Proof.Machine.execBarwait h rt sc a b off s
  | .bartest h rt sc pd a b off => Sys2Proof.Machine.execBartest h rt sc pd a b off s
  | .grpsync h gi => Sys2Proof.Machine.execGrpsync h gi s
  | .grpvoteAll h pd pa gi => Sys2Proof.Machine.execGrpvoteAll h pd pa gi s
  | .grpvoteAny h pd pa gi => Sys2Proof.Machine.execGrpvoteAny h pd pa gi s
  | .grpvoteCount h d pa gi => Sys2Proof.Machine.execGrpvoteCount h d pa gi s
  | .grpred h op flt d a gi => Sys2Proof.Machine.execGrpred h op flt d a gi s
  | .trap h a code => Sys2Proof.Machine.execTrap h a code s
  | .eret h a => Sys2Proof.Machine.execEret h a s
  | .wake h d a b => Sys2Proof.Machine.execWake h d a b s
  | .sendm h sc d a b => Sys2Proof.Machine.execSendm h sc d a b s
  | .waitm h sc d => Sys2Proof.Machine.execWaitm h sc d s
  | .waitmNb h sc d => Sys2Proof.Machine.execWaitmNb h sc d s
  | .winrd h d a b sel => Sys2Proof.Machine.execWinrd h d a b sel s
  | .winwr h d a b sel => Sys2Proof.Machine.execWinwr h d a b sel s
  | .ctxsave h d a => Sys2Proof.Machine.execCtxsave h d a s
  | .ctxload h d a => Sys2Proof.Machine.execCtxload h d a s
  | .launch h d a => Sys2Proof.Machine.execLaunch h d a s
  | .launchDrain h d a => Sys2Proof.Machine.execLaunchDrain h d a s
  | .launchAbort h d a => Sys2Proof.Machine.execLaunchAbort h d a s
  | .launchReset h d a => Sys2Proof.Machine.execLaunchReset h d a s
  | .launchRun h d a => Sys2Proof.Machine.execLaunchRun h d a s
  | .preempt h d a => Sys2Proof.Machine.execPreempt h d a s
  | .preemptSave h d a => Sys2Proof.Machine.execPreemptSave h d a s
  | .preemptKill h d a => Sys2Proof.Machine.execPreemptKill h d a s
  | .tlbshoot h d a b => Sys2Proof.Machine.execTlbshoot h d a b s
  | .tlbshootAsid h d b => Sys2Proof.Machine.execTlbshootAsid h d b s
  | .tlbshootAll h d => Sys2Proof.Machine.execTlbshootAll h d s
  | .tlbshootGlob h d a b => Sys2Proof.Machine.execTlbshootGlob h d a b s
  | .tlbsync h a => Sys2Proof.Machine.execTlbsync h a s
  | .reclass h a b c => Sys2Proof.Machine.execReclass h a b c s
  | .reclassRd h d a => Sys2Proof.Machine.execReclassRd h d a s
  | .errbAdd h d a => Sys2Proof.Machine.execErrbAdd h d a s
  | .errbRep h a => Sys2Proof.Machine.execErrbRep h a s
  | .faultack h a => Sys2Proof.Machine.execFaultack h a s
  | .faultackRefuse h a => Sys2Proof.Machine.execFaultackRefuse h a s
  | .reservationTimeout => Sys2Proof.Machine.execReservationTimeout s
  | .outstandingFeStep => Sys2Proof.Machine.execOutstandingFeStep s
  | .sfreeComplete => Sys2Proof.Machine.execSfreeComplete s
  | .feWaiterRetry => Sys2Proof.Machine.execFeWaiterRetry s
  | .feTimedRetry => Sys2Proof.Machine.execFeTimedRetry s
  | .queueRetry => Sys2Proof.Machine.execQueueRetry s
  | .channelAccept => Sys2Proof.Machine.execChannelAccept s
  | .copy => Sys2Proof.Machine.execCopy s
  | .copy2d => Sys2Proof.Machine.execCopy2d s
  | .gather => Sys2Proof.Machine.execGather s
  | .scatter => Sys2Proof.Machine.execScatter s
  | .fill => Sys2Proof.Machine.execFill s
  | .convert => Sys2Proof.Machine.execConvert s
  | .tileld => Sys2Proof.Machine.execTileld s
  | .tilest => Sys2Proof.Machine.execTilest s
  | .flagset => Sys2Proof.Machine.execFlagset s
  | .bardec => Sys2Proof.Machine.execBardec s
  | .gangLatchTimeout => Sys2Proof.Machine.execGangLatchTimeout s
  | .engineStart => Sys2Proof.Machine.execEngineStart s
  | .governorGrant => Sys2Proof.Machine.execGovernorGrant s
  | .governorWindowEnd => Sys2Proof.Machine.execGovernorWindowEnd s
  | .barrierWaitRetry => Sys2Proof.Machine.execBarrierWaitRetry s
  | .groupWaitRetry => Sys2Proof.Machine.execGroupWaitRetry s
  | .reclassComplete => Sys2Proof.Machine.execReclassComplete s
  | .clauseFetch => Sys2Proof.Machine.execClauseFetch s
  | .splitIssue => Sys2Proof.Machine.execSplitIssue s
  | .issueArbitration => Sys2Proof.Machine.execIssueArbitration s
  | .urgentFirstClause => Sys2Proof.Machine.execUrgentFirstClause s
  | .wordComplete => Sys2Proof.Machine.execWordComplete s
  | .harnessFormation => Sys2Proof.Machine.execHarnessFormation s
  | .rendezvousTimeout => Sys2Proof.Machine.execRendezvousTimeout s
  | .teamSplit => Sys2Proof.Machine.execTeamSplit s
  | .autoSplit => Sys2Proof.Machine.execAutoSplit s
  | .unitExit => Sys2Proof.Machine.execUnitExit s
  | .fadeInterval => Sys2Proof.Machine.execFadeInterval s
  | .rds => Sys2Proof.Machine.execRds s
  | .rdo => Sys2Proof.Machine.execRdo s
  | .stw => Sys2Proof.Machine.execStw s
  | .upg => Sys2Proof.Machine.execUpg s
  | .uns => Sys2Proof.Machine.execUns s
  | .evc => Sys2Proof.Machine.execEvc s
  | .wbk => Sys2Proof.Machine.execWbk s
  | .fwd => Sys2Proof.Machine.execFwd s
  | .inv => Sys2Proof.Machine.execInv s
  | .upd => Sys2Proof.Machine.execUpd s
  | .rcl => Sys2Proof.Machine.execRcl s
  | .dat => Sys2Proof.Machine.execDat s
  | .ack => Sys2Proof.Machine.execAck s
  | .nakRetry => Sys2Proof.Machine.execNakRetry s
  | .directorySliceFailure => Sys2Proof.Machine.execDirectorySliceFailure s
  | .errorCharge => Sys2Proof.Machine.execErrorCharge s
  | .translationWalk => Sys2Proof.Machine.execTranslationWalk s
  | .migrationRewalk => Sys2Proof.Machine.execMigrationRewalk s
  | .heldRequestComplete => Sys2Proof.Machine.execHeldRequestComplete s
  | .operandLogRecord => Sys2Proof.Machine.execOperandLogRecord s
  | .shootdownComplete => Sys2Proof.Machine.execShootdownComplete s
  | .imbShootdownRange => Sys2Proof.Machine.execImbShootdownRange s
  | .imbShootdownAsid => Sys2Proof.Machine.execImbShootdownAsid s
  | .imbShootdownAll => Sys2Proof.Machine.execImbShootdownAll s
  | .imbShootdownGlobal => Sys2Proof.Machine.execImbShootdownGlobal s
  | .imbFaultRetry => Sys2Proof.Machine.execImbFaultRetry s
  | .imbFaultRefuse => Sys2Proof.Machine.execImbFaultRefuse s
  | .dispatchCycle => Sys2Proof.Machine.execDispatchCycle s
  | .tileFlagReread => Sys2Proof.Machine.execTileFlagReread s
  | .recordComplete => Sys2Proof.Machine.execRecordComplete s
  | .lateCompletionCheck => Sys2Proof.Machine.execLateCompletionCheck s
  | .messageDelivery => Sys2Proof.Machine.execMessageDelivery s
  | .eventRecordWrite => Sys2Proof.Machine.execEventRecordWrite s
  | .preemptionArrival => Sys2Proof.Machine.execPreemptionArrival s
  | .drainTimeout => Sys2Proof.Machine.execDrainTimeout s
  | .doorbellAdvance => Sys2Proof.Machine.execDoorbellAdvance s
  | .doorbellDrain => Sys2Proof.Machine.execDoorbellDrain s
  | .doorbellAbort => Sys2Proof.Machine.execDoorbellAbort s
  | .doorbellReset => Sys2Proof.Machine.execDoorbellReset s
  | .doorbellRun => Sys2Proof.Machine.execDoorbellRun s
  | .hubLqbaseWrite => Sys2Proof.Machine.execHubLqbaseWrite s
  | .eqCtlWrite => Sys2Proof.Machine.execEqCtlWrite s
  | .windowEntryWrite => Sys2Proof.Machine.execWindowEntryWrite s
  | .windowEntryRead => Sys2Proof.Machine.execWindowEntryRead s
  | .registerWrite => Sys2Proof.Machine.execRegisterWrite s
  | .inboundPostedWrite => Sys2Proof.Machine.execInboundPostedWrite s
  | .inboundFrame => Sys2Proof.Machine.execInboundFrame s
  | .frameAck => Sys2Proof.Machine.execFrameAck s
  | .inboundAtomicop => Sys2Proof.Machine.execInboundAtomicop s
  | .cxlMemRequest => Sys2Proof.Machine.execCxlMemRequest s
  | .linkMessage => Sys2Proof.Machine.execLinkMessage s
  | .linkFlitReceive => Sys2Proof.Machine.execLinkFlitReceive s
  | .linkReplay => Sys2Proof.Machine.execLinkReplay s
  | .laneRepair => Sys2Proof.Machine.execLaneRepair s
  | .powerSample => Sys2Proof.Machine.execPowerSample s
  | .thermalTrip => Sys2Proof.Machine.execThermalTrip s
  | .moduleReset => Sys2Proof.Machine.execModuleReset s
  | .mgmtAttest => Sys2Proof.Machine.execMgmtAttest s
  | .mgmtReadCert => Sys2Proof.Machine.execMgmtReadCert s
  | .mgmtCommitFirmware => Sys2Proof.Machine.execMgmtCommitFirmware s
  | .mgmtRestoreSlice => Sys2Proof.Machine.execMgmtRestoreSlice s
  | .mgmtInvalidCmd => Sys2Proof.Machine.execMgmtInvalidCmd s
  | .waitmTimedRetry => Sys2Proof.Machine.execWaitmTimedRetry s
  | .bitError => Sys2Proof.Machine.execBitError s
  | .imbKindRejected => Sys2Proof.Machine.execImbKindRejected s
  | .inboundReadRequest => Sys2Proof.Machine.execInboundReadRequest s
  | .mgmtCommandComplete => Sys2Proof.Machine.execMgmtCommandComplete s

end Sys2Proof.Machine
end

