-- ==== Sys2Proof/Machine/Step.lean ====
section
/-! DEFINITION. Step.lean: one step of the part, and where it finds its next instruction. -/

namespace Sys2Proof.Machine

/-- One step: a word whose release is performed takes effect; else the next step due in this cycle is taken; else the next word or retry
of an issuer; else the next part of the cycle begins. (DESIGN CHOICE, log 2.) -/
def step (s : State) : Host.Outcome State Fault Refusal :=
  match s.lates with
  | oid :: r =>
    match s.lateWord oid with
    | some o => exec o.instr { s with lates := r, late := some oid, cur := some o.unit, arg := none }
    | none => .next { s with lates := r }
  | [] =>
    match s.agenda with
    | e :: r => exec e.row { s with agenda := r, arg := some e, late := none }
    | [] =>
      match s.grants with
      | (_, some e) :: r => exec e.row { s with grants := r, arg := some e, late := none }
      | (k, none) :: r =>
        match s.wordDue k with
        | none => .next { s with grants := r, late := none }
        | some (u, w) =>
          match decodeWord u.env w with
          | .ok i => exec i { s with grants := r, cur := some k, arg := none, late := none }
          | .error c => .next ({ s with grants := r, late := none }.illegalWord u c)
      | [] => .next { s with late := none }.refill

/-- The state in which the very next step issues the instruction word `w`, as the one word of a fetched clause: in a thread
of supervisor privilege, or in a team where the word is legal only there (log 3). (DESIGN CHOICE, log 3.) -/
def State.withFetchWord (s : State) (nbits w : Nat) : State := s.placeWord (if 64 < nbits then 0 else BitVec.ofNat 64 (w % 2 ^ nbits))

end Sys2Proof.Machine
end

