-- ==== Sys2Proof/Safety.lean ====
section
/-! DEFINITION. Safety.lean: the terms in which the statements about the part are made. -/

namespace Sys2Proof.Machine

/-! ### A word that can issue, and what issuing leaves alone -/

/-- `i` is the word at which the unit `u` stands, in its turn: it passes the checks of 02 R37, its scoreboard counter can count it
(02 R24), no register of `u` and no shared register fails its parity check (07 R132), and it executes in the lanes `e` (02 R28). -/
structure Ready (i : Instr) (s : State) (u : HwUnit) (e : LaneSet) : Prop where
  cur   : s.cur = some u.id
  unit  : s.unit? u.id = some u
  wf    : i.wf u.env = true
  room  : i.hdr.sb = 0 ∨ u.counter i.hdr.sb ≠ 63
  good  : u.bad = []
  goodSr : s.badSr = []
  lanes : u.exec i.hdr = e
  now_  : s.late = none

/-- The unit with its place in the program, its counters and what the issue of words counts set aside. -/
def HwUnit.withoutPlace (u : HwUnit) : HwUnit :=
  { u with pc := 0, widx := 0, begun := false, clause := none, only := none, after := none, issued1 := false, run := 0, yielded := false, yieldDue := false, turned := false,
           prog := 0, idem := none, taint := false, prog0 := 0, sparse := 0, retired := 0, sb := Vector.replicate 6 0,
           sbSeen := Vector.replicate 6 0 }

/-- Where a unit stands after the word at which it stands: at the next word of its clause, at the clause that follows, or where
the word transfers; after a retried word, where it had been (02 R15, R19; 18 R400). -/
def HwUnit.place (u : HwUnit) (nx : Next) : Word × Nat :=
  match u.after, u.clause, nx with
  | some p, _, _ => p
  | none, none, _ => (u.pc, u.widx)
  | none, some _, .to pc => (pc, 1)
  | none, some c, .seq => if u.widx < c.words.length then (u.pc, u.widx + 1) else (c.next, 1)

/-- What a word of the unit `k` leaves alone: every other unit, every byte of device memory, and all of the state but the units,
the issue slots, and the words in flight with their completions. -/
structure Apart (s t : State) (k : UKey) : Prop where
  units : ∀ k', k' ≠ k → t.unit? k' = s.unit? k'
  bytes : ∀ a, memGet t.mem a = memGet s.mem a
  rest  : { t with units := s.units, harnesses := s.harnesses, outw := s.outw, future := s.future, ids := s.ids } = s

/-- From `s` to `t` the word `i` of `u` has issued in the lanes `e` and has left its unit as `v`, but for the unit's place, its count of words and
its scoreboard; it is counted in its slot, and in no other. -/
structure Issued (i : Instr) (e : LaneSet) (nx : Next) (s t : State) (u v : HwUnit) : Prop where
  unit  : ∃ w, t.unit? u.id = some w ∧ w.withoutPlace = v.withoutPlace ∧ (w.pc, w.widx) = u.place nx ∧
            w.retired = (if e = 0 then u.retired else u.retired + 1) ∧
            (i.hdr.sb ≠ 0 → w.counter i.hdr.sb = u.counter i.hdr.sb + 1) ∧
            (∀ k : BitVec 3, k ≠ 0 → k ≠ i.hdr.sb → w.counter k = u.counter k)
  apart : Apart s t u.id

/-- `v` is `u` with register `d` of the lanes of `e` holding `f` of the lane; x0 discards the write (07 R131). -/
structure WritesX (u v : HwUnit) (e : LaneSet) (d : Xr) (f : Nat → Lane → Word) : Prop where
  rest  : { v with lanes := u.lanes } = u
  count : v.lanes.length = u.lanes.length
  x     : ∀ n, n < u.lanes.length → ∀ r : Xr, (v.lane n).X r = if e.getLsbD n ∧ r = d ∧ r ≠ 0 then f n (u.lane n) else (u.lane n).X r
  other : ∀ n, (v.lane n).p = (u.lane n).p ∧ (v.lane n).resv = (u.lane n).resv

/-- `v` is `u` with predicate `d` of the lanes of `e` holding `f` of the lane; p0 discards the write (07 R131). -/
structure WritesP (u v : HwUnit) (e : LaneSet) (d : Pr) (f : Lane → Bool) : Prop where
  rest  : { v with lanes := u.lanes } = u
  count : v.lanes.length = u.lanes.length
  p     : ∀ n, n < u.lanes.length → ∀ r : Pr, (v.lane n).P r = if e.getLsbD n ∧ r = d ∧ r ≠ 0 then f (u.lane n) else (u.lane n).P r
  other : ∀ n, (v.lane n).x = (u.lane n).x ∧ (v.lane n).resv = (u.lane n).resv

/-! ### Results of the integer words, in the operations of bit vectors -/

/-- Operand X(r) at width t (07 R140). -/
def Lane.at_ (l : Lane) (t : Wd) (r : Xr) : BitVec t.bits := (l.X r).setWidth t.bits

/-- A result that is sign-extended, and one that is zero-extended (07 R140). -/
def sx {n : Nat} (v : BitVec n) : Word := v.signExtend 64
def zx {n : Nat} (v : BitVec n) : Word := v.setWidth 64

/-- An exact integer limited to the signed, and to the unsigned numbers of n bits (07 R141). -/
def satS (n : Nat) (v : Int) : BitVec n := BitVec.ofInt n (max (BitVec.intMin n).toInt (min (BitVec.intMax n).toInt v))
def satU (n : Nat) (v : Int) : BitVec n := BitVec.ofInt n (max 0 (min (BitVec.allOnes n).toNat v))

/-- The product's upper half. -/
def mulHigh {n : Nat} (a b : BitVec n) : BitVec n := (a.signExtend (n + n) * b.signExtend (n + n)).extractLsb' n n
def mulHighU {n : Nat} (a b : BitVec n) : BitVec n := (a.setWidth (n + n) * b.setWidth (n + n)).extractLsb' n n

/-- The quotient and the remainder with the corners of 07 Table 7-7. -/
def quot {n : Nat} (a b : BitVec n) : BitVec n := if b = 0 then BitVec.allOnes n else a.sdiv b
def quotU {n : Nat} (a b : BitVec n) : BitVec n := if b = 0 then BitVec.allOnes n else a / b

/-- What the two-operand words of 07 Table 7-7 compute: the destination and its new value. -/
def binaryResult : Instr → Option (Xr × (Lane → Word))
  | .add _ t d a b => some (d, fun l => sx (l.at_ t a + l.at_ t b))
  | .sub _ t d a b => some (d, fun l => sx (l.at_ t a - l.at_ t b))
  | .adds _ t d a b => some (d, fun l => sx (satS t.bits ((l.at_ t a).toInt + (l.at_ t b).toInt)))
  | .addsu _ t d a b => some (d, fun l => zx (satU t.bits ((l.at_ t a).toNat + (l.at_ t b).toNat)))
  | .subs _ t d a b => some (d, fun l => sx (satS t.bits ((l.at_ t a).toInt - (l.at_ t b).toInt)))
  | .subsu _ t d a b => some (d, fun l => zx (satU t.bits ((l.at_ t a).toNat - (l.at_ t b).toNat : Int)))
  | .mul _ t d a b => some (d, fun l => sx (l.at_ t a * l.at_ t b))
  | .mulh _ t d a b => some (d, fun l => sx (mulHigh (l.at_ t a) (l.at_ t b)))
  | .mulhu _ t d a b => some (d, fun l => zx (mulHighU (l.at_ t a) (l.at_ t b)))
  | .div _ t d a b => some (d, fun l => sx (quot (l.at_ t a) (l.at_ t b)))
  | .divu _ t d a b => some (d, fun l => zx (quotU (l.at_ t a) (l.at_ t b)))
  | .rem _ t d a b => some (d, fun l => sx ((l.at_ t a).srem (l.at_ t b)))
  | .remu _ t d a b => some (d, fun l => zx (l.at_ t a % l.at_ t b))
  | .and _ t d a b => some (d, fun l => sx (l.at_ t a &&& l.at_ t b))
  | .or _ t d a b => some (d, fun l => sx (l.at_ t a ||| l.at_ t b))
  | .xor _ t d a b => some (d, fun l => sx (l.at_ t a ^^^ l.at_ t b))
  | .andn _ t d a b => some (d, fun l => sx (l.at_ t a &&& ~~~(l.at_ t b)))
  | .orn _ t d a b => some (d, fun l => sx (l.at_ t a ||| ~~~(l.at_ t b)))
  | .shl _ t d a b => some (d, fun l => sx (l.at_ t a <<< ((l.at_ t b).toNat % t.bits)))
  | .shr _ t d a b => some (d, fun l => zx (l.at_ t a >>> ((l.at_ t b).toNat % t.bits)))
  | .sra _ t d a b => some (d, fun l => sx ((l.at_ t a).sshiftRight ((l.at_ t b).toNat % t.bits)))
  | .rol _ t d a b => some (d, fun l => sx ((l.at_ t a).rotateLeft ((l.at_ t b).toNat % t.bits)))
  | .min _ t d a b => some (d, fun l => sx (if (l.at_ t a).sle (l.at_ t b) then l.at_ t a else l.at_ t b))
  | .max _ t d a b => some (d, fun l => sx (if (l.at_ t a).sle (l.at_ t b) then l.at_ t b else l.at_ t a))
  | .minu _ t d a b => some (d, fun l => zx (if (l.at_ t a).ule (l.at_ t b) then l.at_ t a else l.at_ t b))
  | .maxu _ t d a b => some (d, fun l => zx (if (l.at_ t a).ule (l.at_ t b) then l.at_ t b else l.at_ t a))
  | _ => none

/-- The immediate of an integer word at width t (07 R142). -/
def immAt (t : Wd) (imm : BitVec 24) : BitVec t.bits := (imm.signExtend 64).setWidth t.bits

/-- What the one-operand, immediate, address and bit-field words compute (07 R142, R144 to R148). -/
def unaryResult : Instr → Option (Xr × (Lane → Word))
  | .clz _ t d a => some (d, fun l => zx (l.at_ t a).clz)
  | .ctz _ t d a => some (d, fun l => zx (l.at_ t a).ctz)
  | .popc _ t d a => some (d, fun l => zx (l.at_ t a).cpop)
  | .abs _ t sat d a => some (d, fun l =>
      sx (if sat && l.at_ t a == BitVec.intMin t.bits then BitVec.intMax t.bits else (l.at_ t a).abs))
  | .ext _ t d a => some (d, fun l => sx (l.at_ t a))
  | .extu _ t d a => some (d, fun l => zx (l.at_ t a))
  | .sel _ d pc a b => some (d, fun l => if l.P pc then l.X a else l.X b)
  | .lea _ d a b s => some (d, fun l => l.X a + l.X b <<< s.toNat)
  | .bfx _ d a pos len1 => some (d, fun l => sx ((l.X a).extractLsb' pos.toNat (len1.toNat + 1)))
  | .bfxu _ d a pos len1 => some (d, fun l => zx ((l.X a).extractLsb' pos.toNat (len1.toNat + 1)))
  | .bfi _ d a pos len1 => some (d, fun l =>
      let m : Word := ((BitVec.allOnes (len1.toNat + 1)).setWidth 64) <<< pos.toNat
      (l.X d &&& ~~~m) ||| (l.X a <<< pos.toNat &&& m))
  | .addi _ t d a imm => some (d, fun l => sx (l.at_ t a + immAt t imm))
  | .muli _ t d a imm => some (d, fun l => sx (l.at_ t a * immAt t imm))
  | .andi _ t d a imm => some (d, fun l => sx (l.at_ t a &&& immAt t imm))
  | .ori _ t d a imm => some (d, fun l => sx (l.at_ t a ||| immAt t imm))
  | .xori _ t d a imm => some (d, fun l => sx (l.at_ t a ^^^ immAt t imm))
  | .shli _ t d a imm => some (d, fun l => sx (l.at_ t a <<< imm.toNat))
  | .shri _ t d a imm => some (d, fun l => zx (l.at_ t a >>> imm.toNat))
  | .srai _ t d a imm => some (d, fun l => sx ((l.at_ t a).sshiftRight imm.toNat))
  | .roli _ t d a imm => some (d, fun l => sx ((l.at_ t a).rotateLeft imm.toNat))
  | .li _ d imm => some (d, fun _ => sx imm)
  | .lihMid _ d imm => some (d, fun l => sx (imm ++ (l.X d).setWidth 24))
  | .lihHigh _ d imm => some (d, fun l => imm ++ (l.X d).setWidth 48)
  | .vlen _ d => some (d, fun _ => 512)
  | _ => none

/-! ### Floating-point patterns, by their fields -/

/-- Operand X(r) of a floating type: its low bits (08 R156). -/
def Lane.low (l : Lane) (t : Ty) (r : Xr) : Nat := (l.X r).toNat % 2 ^ t.bits

/-- Sign, exponent field and fraction field of a pattern (04 Table 4-2). -/
def Fmt.signOf (f : Fmt) (b : Nat) : Bool := b / 2 ^ (f.ebits + f.mbits) % 2 == 1
def Fmt.expOf (f : Fmt) (b : Nat) : Nat := b / 2 ^ f.mbits % 2 ^ f.ebits
def Fmt.fracOf (f : Fmt) (b : Nat) : Nat := b % 2 ^ f.mbits

/-- NaNs and infinities: E4M3 has no infinity and one NaN of each sign (04 R63). -/
def Fmt.isNan (f : Fmt) (b : Nat) : Bool :=
  f.expOf b == 2 ^ f.ebits - 1 && (if f.inf then f.fracOf b != 0 else f.fracOf b == 2 ^ f.mbits - 1)
def Fmt.isInf (f : Fmt) (b : Nat) : Bool := f.inf && f.expOf b == 2 ^ f.ebits - 1 && f.fracOf b == 0

/-- The pattern that an operand counts as: under ftz a subnormal counts as the zero of its sign (04 R71). -/
def Fmt.asRead (f : Fmt) (ftz : Bool) (b : Nat) : Nat :=
  if ftz && f.expOf b == 0 then (if f.signOf b then 2 ^ (f.ebits + f.mbits) else 0) else b

/-- The magnitude of a pattern, which orders the patterns of one sign, and its signed order. -/
def Fmt.mag (f : Fmt) (b : Nat) : Nat := b % 2 ^ (f.ebits + f.mbits)
def Fmt.rank (f : Fmt) (b : Nat) : Int := if f.signOf b then -(f.mag b : Int) else f.mag b

/-- FCMP: unordered with a NaN, else by the signed order, in which the zeros are equal (08 R161). -/
def Fmt.compares (f : Fmt) (c : Cond) (ftz : Bool) (a b : Nat) : Bool :=
  let x := f.asRead ftz a
  let y := f.asRead ftz b
  if f.isNan x || f.isNan y then c == .ne
  else match c with
    | .eq => f.rank x == f.rank y
    | .ne => f.rank x != f.rank y
    | .lt => decide (f.rank x < f.rank y)
    | .le => decide (f.rank x ≤ f.rank y)
    | _ => false

/-- FMIN and FMAX: −0 is less than +0, a NaN gives way, two NaNs give the canonical one (08 R160). -/
def Fmt.extremum (f : Fmt) (mx ftz : Bool) (a b : Nat) : Nat :=
  let x := f.asRead ftz a
  let y := f.asRead ftz b
  let below := decide (f.rank x < f.rank y) || (f.rank x == f.rank y && f.signOf x)
  if f.isNan x && f.isNan y then f.nan
  else if f.isNan x then y
  else if f.isNan y then x
  else if below != mx then x else y

/-- The bit of the class mask that FCLASS sets (08 R163). -/
def Fmt.classBit (f : Fmt) (b : Nat) : Nat :=
  let neg := f.signOf b
  if f.isNan b then (if b == f.nan then 8 else 9)
  else if f.isInf b then (if neg then 0 else 7)
  else if f.expOf b ≠ 0 then (if neg then 1 else 6)
  else if f.fracOf b ≠ 0 then (if neg then 2 else 5)
  else if neg then 3 else 4

/-- What FMIN, FMAX and FCLASS write. -/
def patternResult : Instr → Option (Xr × (Lane → Word))
  | .fmin _ t ftz d a b => some (d, fun l => BitVec.ofNat 64 (t.fmt.extremum false ftz (l.low t a) (l.low t b)))
  | .fmax _ t ftz d a b => some (d, fun l => BitVec.ofNat 64 (t.fmt.extremum true ftz (l.low t a) (l.low t b)))
  | .fclass _ t d a => some (d, fun l => BitVec.ofNat 64 (2 ^ t.fmt.classBit (l.low t a)))
  | _ => none

/-- A condition on two operands (07 R143). -/
def holds {n : Nat} (c : Cond) (a b : BitVec n) : Bool :=
  match c with
  | .eq => a == b
  | .ne => a != b
  | .lt => a.slt b
  | .le => a.sle b
  | .ltu => a.ult b
  | .leu => a.ule b

/-- What the words that write a predicate compute (07 R143, R149; 08 R161). -/
def predicateResult : Instr → Option (Pr × (Lane → Bool))
  | .cmp _ c t d a b p => some (d, fun l => holds c (l.at_ t a) (l.at_ t b) && l.P p)
  | .cmpi _ c t d a imm => some (d, fun l => holds c (l.at_ t a) (immAt t imm))
  | .pand _ d a b => some (d, fun l => l.P a && l.P b)
  | .por _ d a b => some (d, fun l => l.P a || l.P b)
  | .pxor _ d a b => some (d, fun l => xor (l.P a) (l.P b))
  | .pnot _ d a => some (d, fun l => !l.P a)
  | .fcmp _ c t ftz d a b p => some (d, fun l => t.fmt.compares c ftz (l.low t a) (l.low t b) && l.P p)
  | _ => none

/-! ### Floating-point words that compute -/

/-- What a floating-point word does in a lane: its destination, how a pattern is extended there, whether it draws from the unit's
generator, and the pattern with the raised events, from the unit, the lane and the draw. -/
structure FpWord where
  d     : Xr
  ext   : Nat → Word
  draws : HwUnit → Bool
  f     : HwUnit → Lane → Nat → Nat × Events

/-- The rational number (−1)^neg × m × 2^e. -/
def ratOf (neg : Bool) (m : Nat) (e : Int) : Rat := (if neg then -1 else 1) * m * (2 : Rat) ^ e

/-- One rounding of an exact value to type t, with the events of the computation (04 R69, 08 R157). -/
def roundedAs (t : Ty) (u : HwUnit) (rm : Rm) (sat ftz : Bool) (v : FVal × Events) : Nat × Events :=
  let r := t.fmt.round (effMode u.fpstat false rm) sat ftz 0 v.1
  (r.1, r.2 ||| v.2)

/-- Whether the mode in force is RDN, under which an exact zero difference is −0. -/
def down (u : HwUnit) (rm : Rm) : Bool := effMode u.fpstat false rm == .rdn

/-- The value of an operand (08 R156). -/
def Lane.val (l : Lane) (t : Ty) (ftz : Bool) (r : Xr) : FVal := t.fmt.widenZ ftz (l.low t r)

/-- The words of kind S that round (08 R157, R159, R162). -/
def fixedFp : Instr → Option FpWord
  | .fadd _ t rm sat ftz d a b => some ⟨d, fun p => zext p t.bits, fun _ => false, fun u l _ =>
      roundedAs t u rm sat ftz (fAdd (down u rm) (l.val t ftz a) (l.val t ftz b))⟩
  | .fsub _ t rm sat ftz d a b => some ⟨d, fun p => zext p t.bits, fun _ => false, fun u l _ =>
      roundedAs t u rm sat ftz (fAdd (down u rm) (l.val t ftz a) (l.val t ftz b).neg)⟩
  | .fmul _ t rm sat ftz d a b => some ⟨d, fun p => zext p t.bits, fun _ => false, fun u l _ =>
      roundedAs t u rm sat ftz (fMul (l.val t ftz a) (l.val t ftz b))⟩
  | .fma _ t rm sat ftz d a b c => some ⟨d, fun p => zext p t.bits, fun _ => false, fun u l _ =>
      roundedAs t u rm sat ftz (fMulAdd (down u rm) (l.val t ftz a) (l.val t ftz b) (l.val t ftz c))⟩
  | .fscale _ t rm ftz d a b => some ⟨d, fun p => zext p t.bits, fun _ => false, fun u l _ =>
      roundedAs t u rm false ftz (fScale (l.X b).toInt (l.val t ftz a), 0)⟩
  | .fcvt _ t ts rm sat ftz d a => some ⟨d, fun b => if t.isInt then sext b t.bits else zext b t.bits,
      fun u => effMode u.fpstat (srTarget t) rm == .sr, fun u l draw =>
        t.write false (effMode u.fpstat (srTarget t) rm) sat ftz draw (ts.read false ftz (l.X a).toNat)⟩
  | .fcvtu _ t ts rm ftz d a => some ⟨d, fun p => zext p t.bits, fun u => effMode u.fpstat (srTarget t) rm == .sr, fun u l draw =>
        t.write true (effMode u.fpstat (srTarget t) rm) false ftz draw (ts.read true ftz (l.X a).toNat)⟩
  | _ => none

/-- The words of kind S*, and their latency in core cycles (08 R157, R158, Table 8-5). -/
def laterFp : Instr → Option (FpWord × Nat)
  | .fdiv _ t rm ftz d a b => some (⟨d, BitVec.ofNat 64, fun _ => false, fun u l _ =>
      roundedAs t u rm false ftz (fDiv (l.val t ftz a) (l.val t ftz b))⟩, if t = .f32 then 16 else 10)
  | .fsqrt _ t rm ftz d a => some (⟨d, BitVec.ofNat 64, fun _ => false, fun u l _ => roundedAs t u rm false ftz (fSqrt (l.val t ftz a))⟩,
      if t = .f32 then 16 else 10)
  | .frcp _ t rm ftz d a => some (⟨d, BitVec.ofNat 64, fun _ => false, fun u l _ => roundedAs t u rm false ftz (fRcp (l.val t ftz a))⟩,
      if t = .f32 then 12 else 8)
  | .frsq _ t rm ftz d a => some (⟨d, BitVec.ofNat 64, fun _ => false, fun u l _ => roundedAs t u rm false ftz (fRsq (l.val t ftz a))⟩,
      if t = .f32 then 12 else 8)
  | .fexp2 _ t rm ftz d a => some (⟨d, BitVec.ofNat 64, fun _ => false, fun u l _ => roundedAs t u rm false ftz (fExp2 (l.val t ftz a))⟩,
      if t = .f32 then 14 else 10)
  | .flog2 _ t rm ftz d a => some (⟨d, BitVec.ofNat 64, fun _ => false, fun u l _ => roundedAs t u rm false ftz (fLog2 (l.val t ftz a))⟩,
      if t = .f32 then 14 else 10)
  | .fsinp _ t rm ftz d a => some (⟨d, BitVec.ofNat 64, fun _ => false, fun u l _ => roundedAs t u rm false ftz (fSinp (l.val t ftz a))⟩,
      if t = .f32 then 14 else 10)
  | _ => none

/-- The draw that lane n takes: the executing lanes step the generator in rising order (04 R74, R75). -/
def drawOf (u : HwUnit) (e : LaneSet) (n : Nat) : Nat := seedDraw (seedSteps ((lanesOf e (n + 1)).length) u.seed)

/-- The pattern and the events of a floating-point word in lane n. -/
def FpWord.at_ (w : FpWord) (u : HwUnit) (e : LaneSet) (n : Nat) : Nat × Events :=
  w.f u (u.lane n) (if w.draws u then drawOf u e n else seedDraw u.seed)

/-- The events of those lanes of a list. -/
def FpWord.events (w : FpWord) (u : HwUnit) (e : LaneSet) (l : List Nat) : Events := l.foldl (fun a n => a ||| (w.at_ u e n).2) 0

/-- Lanes in which the word raises no enabled event, and those in which it raises one (08 R153). -/
def FpWord.quiet (w : FpWord) (u : HwUnit) (e : LaneSet) : List Nat := (lanesOf e u.n).filter (fun n => !u.trapped (w.at_ u e n).2)
def FpWord.raising (w : FpWord) (u : HwUnit) (e : LaneSet) : List Nat := (lanesOf e u.n).filter (fun n => u.trapped (w.at_ u e n).2)

/-! ### Vector words -/

/-- Element k of width n of a vector register (09 R166). -/
def elemOf (v : VReg) (n k : Nat) : BitVec n := v.extractLsb' (n * k) n

end Sys2Proof.Machine

namespace Sys2Proof

open Machine

/-- The element is active: ungoverned, or bit 0 of its element of the governing register is 1 (09 R167). -/
def Gov.active (g : Gov) (u : HwUnit) (n k : Nat) : Bool := !g.gv || (u.V g.pg).getLsbD (n * k)

/-- The second source at width n; an immediate is sign-extended (09 R170). -/
def VSrc.at_ (b : VSrc) (u : HwUnit) (n k : Nat) : BitVec n :=
  match b with
  | .reg r => elemOf (u.V r) n k
  | .scalar x => ((u.lane 0).X x).setWidth n
  | .imm c => (c.signExtend 64).setWidth n

/-- The count of a shift: modulo the width; an immediate is taken as it stands (09 R170). -/
def VSrc.count (b : VSrc) (u : HwUnit) (n k : Nat) : Nat :=
  match b with
  | .imm c => c.toNat
  | _ => (b.at_ u n k).toNat % n

end Sys2Proof

namespace Sys2Proof.Machine

/-- What an element-wise word does: the element width, the destination, which elements are computed, which of the others are zeroed, whether
it draws from the generator, and an element's result with its events. -/
structure VecWord where
  n     : Nat
  d     : Vr
  act   : HwUnit → Nat → Bool
  zero  : Nat → Bool
  draws : HwUnit → Bool
  f     : HwUnit → Nat → Nat → BitVec n × Events

/-- A governed word without events. -/
def plainVec (n : Nat) (g : Gov) (d : Vr) (f : HwUnit → Nat → BitVec n) : VecWord :=
  ⟨n, d, fun u k => g.active u n k, fun _ => g.z, fun _ => false, fun u k _ => (f u k, 0)⟩

/-- A governed word that rounds (09 R172). -/
def roundVec (t : Ty) (g : Gov) (d : Vr) (f : HwUnit → Nat → Nat × Events) : VecWord :=
  ⟨t.bits, d, fun u k => g.active u t.bits k, fun _ => g.z, fun _ => false, fun u k _ => (BitVec.ofNat t.bits (f u k).1, (f u k).2)⟩

/-- The value of an element of a floating type. -/
def fpElem (t : Ty) (b : BitVec t.bits) : FVal := t.fmt.widen b.toNat

/-- The conversions (09 R180): only the elements of the part are computed or zeroed. -/
def convertVec (uns : Bool) (t ts : Ty) (g : Gov) (rm : Rm) (sat : Bool) (part : Nat) (d a : Vr) : VecWord :=
  let inPart := fun k => decide (t.elems ≤ ts.elems) || (decide (part * ts.elems ≤ k) && decide (k < part * ts.elems + ts.elems))
  let src := fun k => if t.elems ≤ ts.elems then part * t.elems + k else k - part * ts.elems
  ⟨t.bits, d, fun u k => g.active u t.bits k && inPart k, fun k => g.z && inPart k,
    fun u => effMode u.fpstat (srTarget t) rm == .sr, fun u k draw =>
      let r := t.write uns (effMode u.fpstat (srTarget t) rm) sat false draw (ts.read uns false (elemOf (u.V a) ts.bits (src k)).toNat)
      (BitVec.ofNat t.bits r.1, r.2)⟩

/-- The element-wise words (09 R169 to R176, R178, R180). -/
def elementWord : Instr → Option VecWord
  | .vadd _ t g sat d a b => some (plainVec t.bits g d fun u k =>
      let x := elemOf (u.V a) t.bits k; let y := b.at_ u t.bits k; if sat then satS t.bits (x.toInt + y.toInt) else x + y)
  | .vaddu _ t g d a b => some (plainVec t.bits g d fun u k => satU t.bits ((elemOf (u.V a) t.bits k).toNat + (b.at_ u t.bits k).toNat))
  | .vsub _ t g sat d a b => some (plainVec t.bits g d fun u k =>
      let x := elemOf (u.V a) t.bits k; let y := b.at_ u t.bits k; if sat then satS t.bits (x.toInt - y.toInt) else x - y)
  | .vsubu _ t g d a b => some (plainVec t.bits g d fun u k =>
      satU t.bits ((elemOf (u.V a) t.bits k).toNat - (b.at_ u t.bits k).toNat : Int))
  | .vmul _ t g d a b => some (plainVec t.bits g d fun u k => elemOf (u.V a) t.bits k * b.at_ u t.bits k)
  | .vmulh _ t g d a b => some (plainVec t.bits g d fun u k => mulHigh (elemOf (u.V a) t.bits k) (b.at_ u t.bits k))
  | .vmulhu _ t g d a b => some (plainVec t.bits g d fun u k => mulHighU (elemOf (u.V a) t.bits k) (b.at_ u t.bits k))
  | .vmin _ t g d a b => some (plainVec t.bits g d fun u k =>
      let x := elemOf (u.V a) t.bits k; let y := b.at_ u t.bits k; if x.sle y then x else y)
  | .vmax _ t g d a b => some (plainVec t.bits g d fun u k =>
      let x := elemOf (u.V a) t.bits k; let y := b.at_ u t.bits k; if x.sle y then y else x)
  | .vminu _ t g d a b => some (plainVec t.bits g d fun u k =>
      let x := elemOf (u.V a) t.bits k; let y := b.at_ u t.bits k; if x.ule y then x else y)
  | .vmaxu _ t g d a b => some (plainVec t.bits g d fun u k =>
      let x := elemOf (u.V a) t.bits k; let y := b.at_ u t.bits k; if x.ule y then y else x)
  | .vand _ t g d a b => some (plainVec t.bits g d fun u k => elemOf (u.V a) t.bits k &&& b.at_ u t.bits k)
  | .vor _ t g d a b => some (plainVec t.bits g d fun u k => elemOf (u.V a) t.bits k ||| b.at_ u t.bits k)
  | .vxor _ t g d a b => some (plainVec t.bits g d fun u k => elemOf (u.V a) t.bits k ^^^ b.at_ u t.bits k)
  | .vshl _ t g d a b => some (plainVec t.bits g d fun u k => elemOf (u.V a) t.bits k <<< b.count u t.bits k)
  | .vshr _ t g d a b => some (plainVec t.bits g d fun u k => elemOf (u.V a) t.bits k >>> b.count u t.bits k)
  | .vsra _ t g d a b => some (plainVec t.bits g d fun u k => (elemOf (u.V a) t.bits k).sshiftRight (b.count u t.bits k))
  | .vfadd _ t g rm d a b => some (roundVec t g d fun u k =>
      roundedAs t u rm false false (fAdd (down u rm) (fpElem t (elemOf (u.V a) t.bits k)) (fpElem t (b.at_ u t.bits k))))
  | .vfmul _ t g rm d a b => some (roundVec t g d fun u k =>
      roundedAs t u rm false false (fMul (fpElem t (elemOf (u.V a) t.bits k)) (fpElem t (b.at_ u t.bits k))))
  | .vfma _ t g rm d a b => some (roundVec t g d fun u k =>
      roundedAs t u rm false false (fMulAdd (down u rm) (fpElem t (elemOf (u.V a) t.bits k)) (fpElem t (b.at_ u t.bits k))
        (fpElem t (elemOf (u.V d) t.bits k))))
  | .vfmin _ t g d a b => some (plainVec t.bits g d fun u k =>
      BitVec.ofNat t.bits (t.fmt.extremum false false (elemOf (u.V a) t.bits k).toNat (b.at_ u t.bits k).toNat))
  | .vfmax _ t g d a b => some (plainVec t.bits g d fun u k =>
      BitVec.ofNat t.bits (t.fmt.extremum true false (elemOf (u.V a) t.bits k).toNat (b.at_ u t.bits k).toNat))
  | .vfcvt _ t ts g rm sat part d a => some (convertVec false t ts g rm sat part.toNat d a)
  | .vfcvtu _ t ts g rm sat part d a => some (convertVec true t ts g rm sat part.toNat d a)
  | .vcmp _ c t g d a b => some (plainVec t.bits g d fun u k =>
      let x := elemOf (u.V a) t.bits k; let y := b.at_ u t.bits k
      if (if t.isInt then holds c x y else t.fmt.compares c false x.toNat y.toNat) then BitVec.allOnes t.bits else 0)
  | .vwhile _ t d a b => some (plainVec t.bits ⟨false, 0, false⟩ d fun u k =>
      if ((u.lane 0).X a).toInt + k < ((u.lane 0).X b).toInt then BitVec.allOnes t.bits else 0)
  | .vsel _ t pg d a b => some (plainVec t.bits ⟨false, 0, false⟩ d fun u k =>
      if (u.V pg).getLsbD (t.bits * k) then elemOf (u.V a) t.bits k else elemOf (u.V b) t.bits k)
  | .vbcast _ t g d a => some (plainVec t.bits g d fun u _ => ((u.lane 0).X a).setWidth t.bits)
  | .vbcastElement _ t g d a e => some (plainVec t.bits g d fun u _ => elemOf (u.V a) t.bits (e.toNat % t.elems))
  | .vperm _ t g d a b => some (plainVec t.bits g d fun u k => elemOf (u.V a) t.bits ((elemOf (u.V b) t.bits k).toNat % t.elems))
  | _ => none

/-- The draw of element k: the computed elements step the generator in rising order (04 R75). -/
def VecWord.draw (w : VecWord) (u : HwUnit) (k : Nat) : Nat :=
  if w.draws u then seedDraw (seedSteps ((List.range (k + 1)).filter (w.act u)).length u.seed) else seedDraw u.seed

/-- Element k of the destination as the word leaves it (09 R169). -/
def VecWord.result (w : VecWord) (u : HwUnit) (k : Nat) : BitVec w.n :=
  if w.act u k then (w.f u k (w.draw u k)).1 else if w.zero k then 0 else elemOf (u.V w.d) w.n k

/-- The computed elements, and the union of their events. -/
def VecWord.elems (w : VecWord) (u : HwUnit) : List Nat := (List.range (512 / w.n)).filter (w.act u)
def VecWord.events (w : VecWord) (u : HwUnit) : Events := (w.elems u).foldl (fun a k => a ||| (w.f u k (w.draw u k)).2) 0

/-- `v` is `u` but for one vector register. -/
structure WritesV (u v : HwUnit) (d : Vr) : Prop where
  rest  : { v with v := u.v } = u
  other : ∀ r, r ≠ d → v.V r = u.V r

end Sys2Proof.Machine

namespace Sys2Proof

open Machine

/-- A half of a VPAIR word as an element-wise word; half B's destination stands 16 higher (02 R33, R34, Table 2-9). -/
def VHalf.asWord (x : VHalf) (hi : Bool) : VecWord :=
  let d : Vr := if hi then BitVec.ofNat 5 (16 + x.vd.toNat) else BitVec.ofNat 5 x.vd.toNat
  ⟨x.type.bits, d, x.acts, fun _ => false, x.draws, fun u k draw => (BitVec.ofNat x.type.bits (x.op u d k draw).1, (x.op u d k draw).2)⟩

end Sys2Proof

namespace Sys2Proof.Machine

/-- The sum of a list of elements. -/
def sumOf {n : Nat} (l : List (BitVec n)) : BitVec n := l.foldl (· + ·) 0

/-- The active elements of a register, rising. -/
def activeElems (u : HwUnit) (g : Gov) (n : Nat) (a : Vr) : List (BitVec n) :=
  ((List.range (512 / n)).filter (g.active u n)).map (elemOf (u.V a) n)

/-- The vector reductions (09 R181): type, governing fields, destination, source, initial value, and how two values combine, with the
events. -/
def reduction : Instr → Option (Ty × Gov × Vr × Vr × Vr × (HwUnit → Comb))
  | .vredadd _ t gv pg rm sat d a b => some (t, ⟨gv, pg, false⟩, d, a, b, fun u => addComb u t rm sat)
  | .vredmin _ t gv pg d a b => some (t, ⟨gv, pg, false⟩, d, a, b, fun _ => mmComb t false false)
  | .vredminu _ t gv pg d a b => some (t, ⟨gv, pg, false⟩, d, a, b, fun _ => mmComb t false true)
  | .vredmax _ t gv pg d a b => some (t, ⟨gv, pg, false⟩, d, a, b, fun _ => mmComb t true false)
  | .vredmaxu _ t gv pg d a b => some (t, ⟨gv, pg, false⟩, d, a, b, fun _ => mmComb t true true)
  | _ => none

/-- The ordered merges (09 R183): width, keys with values, unsigned keys, destination, sources, count register. -/
def orderedMerge : Instr → Option (Wd × Bool × Bool × Vr × Vr × Vr × Xr)
  | .vmerge _ t d a b c => some (t, false, false, d, a, b, c)
  | .vmergeu _ t d a b c => some (t, false, true, d, a, b, c)
  | .vmergekv _ t d a b c => some (t, true, false, d, a, b, c)
  | .vmergekvu _ t d a b c => some (t, true, true, d, a, b, c)
  | _ => none

/-- The word has issued and is in flight as `o`, which is to complete in cycle `at_`; its unit is left as `v`. -/
structure InFlight (i : Instr) (e : LaneSet) (s t : State) (u v : HwUnit) (o : OutWord) (at_ : Nat) : Prop where
  issued : Issued i e .seq s t u v
  out    : t.outw = s.outw ++ [o]
  word   : o.unit = u.id ∧ o.instr = i ∧ o.slot = i.hdr.sb ∧ o.pc = u.pc ∧ o.widx = u.widx ∧ o.due = true
  done   : t.future = s.future ++ [(at_, .wordComplete o.id)]

/-- The unit as a word of kind V* leaves it that lets no later word issue before it completes, while an event is enabled (09 R174). -/
def HwUnit.heldUntil (u : HwUnit) (float : Bool) (id now : Nat) : HwUnit :=
  if float ∧ u.fpstat.extractLsb' 8 5 ≠ 0 then { u with wait := some ⟨.other, id, 0, now, now, [], false⟩ } else u

/-- Combinations that raise an enabled event. -/
def anyTrapped (u : HwUnit) (l : List (Nat × Events)) : Prop := ∃ x ∈ l, u.trapped x.2 = true

/-- The combinations of a VSCAN, in ascending order: the element, with its result and its events (09 R182). -/
def scanSteps (c : Comb) (el : Nat → Nat) : List Nat → Nat → List (Nat × Nat × Events)
  | [], _ => []
  | k :: r, acc => (k, c acc (el k)) :: scanSteps c el r (c acc (el k)).1

/-! ### Transfers and exceptions -/

/-- A canonical address: bits 63 to 57 equal bit 56 (16 R344). -/
def IsCanonical (a : Word) : Prop := (a.setWidth 57).signExtend 64 = a

/-- The target of a format B transfer: doublewords from the header of its clause (02 R32). -/
def HwUnit.target (u : HwUnit) (off : BitVec 30) : Word := u.pc + off.signExtend 64 * 8

/-- The format B transfers (06 Table 6-3): the offset, the lanes that take it, and the register they write, with its value. -/
def offsetTransfer : Instr → Option (BitVec 30 × (Lane → Bool) × Xr × (HwUnit → Lane → Word))
  | .br _ off => some (off, fun _ => true, 0, fun _ _ => 0)
  | .jmp _ off => some (off, fun _ => true, 0, fun _ _ => 0)
  | .call _ d off => some (off, fun _ => true, d, fun u _ => followPc u)
  | .loop _ a off => some (off, fun l => l.X a != 1, a, fun _ l => l.X a - 1)
  | _ => none

/-- The format A transfers (06 Table 6-4): the register that holds the target, and the link register. -/
def registerTransfer : Instr → Option (Xr × Xr)
  | .jmpx _ a => some (a, 0)
  | .ret _ a => some (a, 0)
  | .callx _ d a => some (a, d)
  | _ => none

/-- From `s` to `t` the unit `u`, a thread or a team that cannot split, has taken an exception at the word at which it stood, raised by
the lanes `f`, of which `lane` is told: it stands halted or parked past that word, its registers as they were, its reservations
gone; its fault record names the cause, the word and where it stands; its message is on its way (02 R38, 18 R393, R400, R458). -/
structure TookException (s t : State) (u : HwUnit) (cause lane : Nat) (f : LaneSet) : Prop where
  unit : ∃ w, t.unit? u.id = some w ∧ w.status = (if u.team then .parked else .halted) ∧ (w.pc, w.widx) = u.place .seq ∧
           w.faultW = some (u.pc, u.widx, f) ∧ w.wait = none ∧ w.clause = none ∧ w.msgs = u.msgs + 1 ∧ w.retired = u.retired ∧ w.sb = u.sb ∧
           w.lanes = u.lanes.map (fun l => { l with resv := none }) ∧ w.v = u.v ∧ w.active = u.active ∧ w.stack = u.stack ∧
           w.frec.getD 0 0 = msgDw0 cause u.asid false u.team false u.msgs ∧ w.frec.getD 1 0 = u.pc + BitVec.ofNat 64 (8 * u.widx) ∧
           w.frec.getD 4 0 = resumeDw (u.place .seq).1 (u.place .seq).2
  told : ∃ n e, t.future = s.future ++ [(n, e)] ∧ ((∃ d d0 d1 d2 d3, e = .messageDelivery (.unit u.id) d d0 d1 d2 d3 0 0) ∨
           (∃ d0 d1 d2 d3, e = .eventRecordWrite (.unit u.id) u.msgs d0 d1 d2 d3 cause) ∨ ∃ a d p, e = .linkMessage a d 0 p 0)
  units : ∀ k, k ≠ u.id → t.unit? k = s.unit? k
  bytes : ∀ a, (u.area = 0 ∨ a < u.area ∨ u.area + 0x180 ≤ a) → memGet t.mem a = memGet s.mem a

/-- The splittable team `u` has had no effect of its word: it is to split with its active lanes standing where it stands, and an event of the
cause is on its way for its supervisor (05 R102, 06 R125). -/
structure SplitsHere (s t : State) (u : HwUnit) (cause : Nat) : Prop where
  unit  : t.unit? u.id = some { u with split := some [], msgs := u.msgs + 1 }
  told  : ∃ n e, t.future = s.future ++ [(n, e)] ∧
            ((∃ d d1 d2 d3, e = .messageDelivery (.unit u.id) d (msgDw0 cause u.asid true true false u.msgs) d1 d2 d3 0 0) ∨
             (∃ d1 d2 d3, e = .eventRecordWrite (.unit u.id) u.msgs (msgDw0 cause u.asid true true false u.msgs) d1 d2 d3 cause) ∨
             ∃ a d p, e = .linkMessage a d 0 p 0)
  units : ∀ k, k ≠ u.id → t.unit? k = s.unit? k
  rest  : { t with units := s.units, future := s.future, fresh := s.fresh, wires := s.wires } = s

/-- The active set, the stack and the place to which HALT unwinds a stack when no lane is left active (06 R126). -/
inductive Unwinds : List DivEntry → LaneSet → List DivEntry → Next → Prop
  | empty : Unwinds [] 0 [] .seq
  | other (x : DivEntry) (r : List DivEntry) : x.two = false → x.m ≠ 0 → Unwinds (x :: r) x.m (⟨x.s, 0, 0, true, 0⟩ :: r) (.to x.pc)
  | rejoin (x : DivEntry) (r : List DivEntry) : (x.two = true ∨ x.m = 0) → x.s ≠ 0 → Unwinds (x :: r) x.s r (.to (x.pc + 8))
  | pop (x : DivEntry) (r l : List DivEntry) (a : LaneSet) (nx : Next) : (x.two = true ∨ x.m = 0) → x.s = 0 → Unwinds r a l nx →
      Unwinds (x :: r) a l nx

/-! ### Memory words -/

/-- X(a) plus the signed offset of formats I and M (13 R264). -/
def Lane.addr (l : Lane) (a : Xr) (off : BitVec 18) : Word := l.X a + off.signExtend 64

/-- The words of a span that begins at the word of an address, clipped at the end of its frame (13 R264). -/
def spanBits (ea : Word) (w : Nat) : Mask := (BitVec.allOnes w).setWidth 32 <<< (ea.extractLsb' 2 5).toNat

/-- An address that a word of this alignment and request span can use (13 R264, 16 R344). -/
def Fits (ea : Word) (align words : Nat) : Prop := ea.toNat % align = 0 ∧ ea.toNat % 128 / 4 + words ≤ 32 ∧ IsCanonical ea

/-- What a memory word does in a lane: where it acts, the alignment and the words of its request span, what it asks of the operands
besides, whether it leaves reservations alone as it issues, and the access that it makes, for a word of a number in a lane. -/
structure MemReq where
  ea    : Lane → Word
  align : Nat
  words : Nat
  fits  : Lane → Prop
  keeps : Bool
  acc   : HwUnit → Nat → Nat → Acc

/-- Bytes of a width. -/
def wdBytes (w : Wd) : Nat := w.bits / 8

/-- The words of a request span; it covers the datum (13 R264). -/
def spanLen (span : BitVec 5) (w : Wd) : Nat := max (span.toNat + 1) ((wdBytes w + 3) / 4)

/-- A word with the alignment of its datum and a request span. -/
def memReq (a : Xr) (off : BitVec 18) (align words : Nat) (keeps : Bool) (acc : HwUnit → Nat → Nat → Word → Acc) : MemReq :=
  ⟨fun l => l.addr a off, align, words, fun l => Fits (l.addr a off) align words, keeps,
    fun u o n => acc u o n ((u.lane n).addr a off)⟩

/-- LD and its like. -/
def loadReq (rt : ReqType) (sc : Scope) (span : BitVec 5) (w : Wd) (d a : Xr) (off : BitVec 18) (kind : AccKind) (acq : Option Scope) : MemReq :=
  memReq a off (wdBytes w) (spanLen span w) (kind == .lock) fun u o n ea =>
    { u.access n kind rt sc (.out o) ea.toNat (wdBytes w) (spanBits ea (spanLen span w)) with dst := some (.x n d 0), acq := acq }

/-- ST and its like: the word completes once the store is performed at its scope. -/
def storeReq (rt : ReqType) (sc : Scope) (span : BitVec 5) (w : Wd) (b a : Xr) (off : BitVec 18) (rel : Option Scope) : MemReq :=
  memReq a off (wdBytes w) (spanLen span w) false fun u o n ea =>
    { u.access n .store rt sc (.out o) ea.toNat (wdBytes w) (spanBits ea (spanLen span w)) with
      puts := putsOf (ea.toNat % 128) (wdBytes w) ((u.lane n).X b).toNat, rel := rel, need := rank sc + 1 }

/-- The atomics: the operand, and the value compared with, at the width of the word. -/
def amoReq (op : AmoOp) (rt : ReqType) (sc : Scope) (w : Wd) (d a b : Xr) (off : BitVec 18) : MemReq :=
  memReq a off (wdBytes w) (wdBytes w / 4) false fun u o n ea =>
    { u.access n (.amo op) rt sc (.out o) ea.toNat (wdBytes w) (spanBits ea (wdBytes w / 4)) with
      arg := ((u.lane n).at_ w b).toNat, cmp := ((u.lane n).at_ w d).toNat, dst := some (.x n d 0) }

/-- Subscriptions and span maintenance. -/
def spanReq (kind : AccKind) (sc : Scope) (span : BitVec 5) (a : Xr) (off : BitVec 18) (pd : Option Pr) : MemReq :=
  memReq a off 4 (span.toNat + 1) false fun u o n ea =>
    { u.access n kind .si sc (.out o) ea.toNat 4 (spanBits ea (span.toNat + 1)) with dst := pd.map (fun p => .p n p false) }

/-- The barrier words. -/
def barReq (op : BarOp) (rt : ReqType) (sc : Scope) (a b : Xr) (off : BitVec 18) (f : Nat → Acc → Acc) : MemReq :=
  memReq a off 16 4 true fun u o n ea =>
    f n { u.access n (.bar op) rt sc (.out o) ea.toNat 16 (spanBits ea 4) with arg := ((u.lane n).X b).toNat }

/-- The memory words that make one access in each executing lane (13 R287 to R296, 17 R366). -/
def memoryReq : Instr → Option MemReq
  | .ld _ rt sc span w d a off => some (loadReq rt sc span w d a off .load none)
  | .ldacq _ rt sc span w d a off => some (loadReq rt sc span w d a off .load (some sc))
  | .st _ rt sc span w b a off => some (storeReq rt sc span w b a off none)
  | .strel _ rt sc span w b a off => some (storeReq rt sc span w b a off (some sc))
  | .fence _ sc => some ⟨fun _ => 0, 1, 0, fun _ => True, false, fun u o n =>
      { u.access n .fence .si sc (.out o) 0 4 0 with rel := some sc, acq := some sc }⟩
  | .amoadd _ rt sc w d a b off => some (amoReq .add rt sc w d a b off)
  | .amoand _ rt sc w d a b off => some (amoReq .and rt sc w d a b off)
  | .amoor _ rt sc w d a b off => some (amoReq .or rt sc w d a b off)
  | .amoxor _ rt sc w d a b off => some (amoReq .xor rt sc w d a b off)
  | .amomin _ rt sc w d a b off => some (amoReq .min rt sc w d a b off)
  | .amominu _ rt sc w d a b off => some (amoReq .minu rt sc w d a b off)
  | .amomax _ rt sc w d a b off => some (amoReq .max rt sc w d a b off)
  | .amomaxu _ rt sc w d a b off => some (amoReq .maxu rt sc w d a b off)
  | .amoswap _ rt sc w d a b off => some (amoReq .swap rt sc w d a b off)
  | .amocas _ rt sc w d a b off => some (amoReq .cas rt sc w d a b off)
  | .ldlk _ rt sc span w d a off => some (loadReq rt sc span w d a off .lock none)
  | .stck _ rt sc w pd b a off => some (memReq a off (wdBytes w) (wdBytes w / 4) true fun u o n ea =>
      { u.access n .cond rt sc (.out o) ea.toNat (wdBytes w) (spanBits ea (wdBytes w / 4)) with
        arg := ((u.lane n).at_ w b).toNat, dst := some (.p n pd false) })
  | .subscr _ f m span pd a off => some (spanReq (.subscr f m) .ln span a off (some pd))
  | .unsub _ span a off => some (spanReq .unsub .ln span a off none)
  | .upgr _ f span pd a off => some (spanReq (.upgr f) .ln span a off (some pd))
  | .invspan _ sc span a off => some (spanReq .invspan sc span a off none)
  | .wbspan _ sc span a off => some (spanReq .wbspan sc span a off none)
  | .pref _ rt span a off => some { memReq a off 4 0 false fun u o n ea =>
      u.access n .pref rt .ln (.out o) ea.toNat 4 (spanBits ea (span.toNat + 1)) with fits := fun l => Fits (l.addr a off) 4 0 }
  | .barinit _ rt sc a b off => some { barReq .init rt sc a b off fun _ x => { x with need := rank sc + 1 } with
      fits := fun l => Fits (l.addr a off) 16 4 ∧ 1 ≤ (l.X b).toNat ∧ (l.X b).toNat ≤ 32767 }
  | .bararr _ rt sc d a b off => some (barReq .arr rt sc a b off fun n x => { x with rel := some sc, dst := some (.x n d 0) })
  | .barexp _ rt sc a b off => some (barReq .exp rt sc a b off fun _ x => { x with need := rank sc + 1 })
  | .bartest _ rt sc pd a b off => some (barReq .test rt sc a b off fun n x => { x with acq := some sc, dst := some (.p n pd false) })
  | _ => none

/-- The state in which the reservations that are being made for those lanes are spoilt (13 R293). -/
def State.unlessKept (s : State) (u : HwUnit) (e : LaneSet) (keeps : Bool) : State := if keeps then s else s.spoilLocks u e

/-- The unit with its lanes' reservations gone, but where an STCK that came before is still to be decided (13 R293). -/
def State.unitUnlessKept (s : State) (u : HwUnit) (e : LaneSet) (keeps : Bool) : HwUnit := if keeps then u else s.unlock u e

/-- The word has issued as `o`, which stays outstanding; its accesses are still to be made. -/
structure Outstanding (i : Instr) (e : LaneSet) (s t : State) (u v : HwUnit) (o : OutWord) : Prop where
  issued : Issued i e .seq s t u v
  out    : t.outw = s.outw ++ [o] ∧ t.future = s.future
  word   : o.unit = u.id ∧ o.instr = i ∧ o.slot = i.hdr.sb ∧ o.lanes = e ∧ o.pc = u.pc ∧ o.widx = u.widx ∧ o.due = false ∧ o.faults = []

/-- A vector memory word: width, whether it stores, the governing fields, the vector register, request type and scope, and the
address of element k (09 R185 to R187). -/
def vectorReq : Instr → Option (Wd × Bool × Gov × Vr × ReqType × Scope × (HwUnit → Nat → Word))
  | .vld _ gv z rt sc w d a pg off => some (w, false, ⟨gv, pg, z⟩, d, rt, sc, fun u k => (u.lane 0).addr a off + BitVec.ofNat 64 (wdBytes w * k))
  | .vst _ gv rt sc w d a pg off => some (w, true, ⟨gv, pg, false⟩, d, rt, sc, fun u k => (u.lane 0).addr a off + BitVec.ofNat 64 (wdBytes w * k))
  | .vldx _ g rt sc w d a b => some (w, false, g, d, rt, sc, fun u k =>
      (u.lane 0).X a + (elemOf (u.V b) w.bits k).signExtend 64 * BitVec.ofNat 64 (wdBytes w))
  | .vstx _ gv pg rt sc w d a b => some (w, true, ⟨gv, pg, false⟩, d, rt, sc, fun u k =>
      (u.lane 0).X a + (elemOf (u.V b) w.bits k).signExtend 64 * BitVec.ofNat 64 (wdBytes w))
  | _ => none

/-- The access that a vector memory word makes for element k. -/
def elemAcc (u : HwUnit) (w : Wd) (store : Bool) (d : Vr) (rt : ReqType) (sc : Scope) (ea : Word) (o k : Nat) : Acc :=
  let m := spanBits ea (max 1 (wdBytes w / 4))
  if store then { u.access 0 .store rt sc (.out o) ea.toNat (wdBytes w) m with
      puts := putsOf (ea.toNat % 128) (wdBytes w) (elemOf (u.V d) w.bits k).toNat, need := rank sc + 1 }
  else { u.access 0 .load rt sc (.out o) ea.toNat (wdBytes w) m with dst := some (.ve d (k * wdBytes w) (wdBytes w) 0), sx := false }

/-- Byte k of a frame as a line of an L1 holds it. -/
def L1Line.byteAt (l : L1Line) (k : Nat) : Byte := (l.words.toList.getD (k / 4) 0).extractLsb' (8 * (k % 4)) 8

/-! ### Indivisible steps -/

/-- What an atomic leaves (13 R289). -/
def amoBits {n : Nat} (op : AmoOp) (old b c : BitVec n) : BitVec n :=
  match op with
  | .add => old + b
  | .and => old &&& b
  | .or => old ||| b
  | .xor => old ^^^ b
  | .min => if old.sle b then old else b
  | .max => if old.sle b then b else old
  | .minu => if old.ule b then old else b
  | .maxu => if old.ule b then b else old
  | .swap => b
  | .cas => if old = c then b else old

/-- A barrier object of these fields (17 Table 17-1). -/
def barrierObj (phase remain pending count : Nat) : Nat := phase * 2 ^ 63 + remain * 2 ^ 48 + pending + count * 2 ^ 64

/-- An object after a step that has left remain and pending so: where both are 0 the phase completes, else it does not (17 R364). -/
def afterStep (phase remain pending count : Nat) : Nat :=
  if remain = 0 ∧ pending = 0 then barrierObj (1 - phase) count 0 count else barrierObj phase remain pending count

/-- Every lock, register and condition under which a thread's access finds all that it needs in words that its own L1 owns: nothing else
is under way, the line may be written, and its frame is ordinary device memory. -/
structure OwnsLine (s : State) (u : HwUnit) (ea : Word) (m : Mask) (l : L1Line) : Prop where
  alone  : u.team = false ∧ u.n = 1 ∧ u.w ≤ 1 ∧ s.accs = [] ∧ s.outw = []
  line   : s.l1At (32 * u.cluster + u.pipe) u.asid (ea.toNat % 2 ^ 57 / 128) = some l
  owned  : m &&& ~~~l.owned = 0
  there  : m &&& ~~~l.valid = 0
  good   : l.poison = 0
  perm   : l.perm.getLsbD 1 = true ∧ l.perm.getLsbD 2 = true ∧ (u.super = true ∨ l.perm.getLsbD 4 = true)
  frame  : l.pf.space = .dev ∧ s.slicesDown = [] ∧ s.hole (l.pf.addr * 128) = false ∧ u.kclass = 0
  clean  : ∀ x ∈ s.l1, x.dirty &&& ~~~x.owned = 0

/-- The line of an L1 at the frame of an address, and the same line with bytes replaced from an offset on. -/
def State.lineFor (s : State) (u : HwUnit) (ea : Word) : Option L1Line :=
  s.l1At (32 * u.cluster + u.pipe) u.asid (ea.toNat % 2 ^ 57 / 128)

def L1Line.With (k l : L1Line) (off n v : Nat) : Prop :=
  ∀ j, j < 128 → k.byteAt j = if off ≤ j ∧ j < off + n then BitVec.ofNat 8 (v / 256 ^ (j - off)) else l.byteAt j

/-! ### Words whose completion is in open time -/

/-- The word has issued from the state `s` as `o`, leaving its unit as `v`, and is to complete later, when is open (02 R24, log 4). -/
structure Later (i : Instr) (e : LaneSet) (s t : State) (u v : HwUnit) (o : OutWord) : Prop where
  issued : Issued i e .seq s { t with fresh := s.fresh } u v
  out    : t.outw = s.outw ++ [o]
  word   : o.unit = u.id ∧ o.instr = i ∧ o.slot = i.hdr.sb ∧ o.lanes = e ∧ o.due = true ∧ o.faults = []
  done   : ∃ n, s.now < n ∧ t.future = s.future ++ [(n, .wordComplete o.id)]

/-- The unit is blocked at its word, for a reason: it is not able to go on, its registers stand and its reservations are gone
(06 R112, 13 R293). -/
structure Blocked (s t : State) (u : HwUnit) (k : WaitKind) : Prop where
  unit  : ∃ w x, t.unit? u.id = some w ∧ w.wait = some x ∧ x.kind = k ∧ x.since = s.now ∧ w.able = false ∧ (w.pc, w.widx) = (u.pc, u.widx) ∧
            { w with wait := none, lanes := u.lanes } = { u with wait := none } ∧ w.lanes = u.lanes.map (fun l => { l with resv := none })
  apart : ∀ k', k' ≠ u.id → t.unit? k' = s.unit? k'
  bytes : t.mem = s.mem

/-- While a unit waits so, its next test is called for as soon as what it waits for has changed, and at the latest once the interval of
sr.waitlim has passed since the one before (10 R204). -/
def Retries (u : HwUnit) (w : Wait) (e : Ev) : Prop :=
  ∀ (s : State) (v : HwUnit) (b : Bool), v ∈ s.units → v.id = u.id → v.cluster = u.cluster → v.wait = some { w with poked := b } →
    (b = true ∨ w.last + 64 * ((s.cluster u.cluster).waitlim.extractLsb' 32 12).toNat ≤ s.now) → e ∈ unitSteps s

/-- The same of a waiter at a scratchpad word (10 R204). -/
def FeTests (u : HwUnit) (f : FeWait) : Prop :=
  ∀ (s : State) (b : Bool), { f with poked := b } ∈ (s.cluster u.cluster).feWaits → u.cluster < s.clusters.length →
    (b = true ∨ f.last + 64 * ((s.cluster u.cluster).waitlim.extractLsb' 32 12).toNat ≤ s.now) →
    (if b then Ev.feWaiterRetry f.unit f.id else .feTimedRetry f.unit f.id) ∈ s.feRetries

/-- The unit is blocked at its word, one test has failed, and it is to test again. -/
structure BlockedTesting (s t : State) (u : HwUnit) (k : WaitKind) (e : Nat → Ev) : Prop where
  blocked : Blocked s t u k
  tests   : ∃ v w, t.unit? u.id = some v ∧ v.wait = some w ∧ w.fails = 1 ∧ w.last = s.now ∧ w.poked = false ∧ Retries u w (e w.id)

/-- A predicate written in each of those lanes, and a register. -/
def toEachP (u : HwUnit) (e : LaneSet) (p : Pr) (b : Bool) : List RegWrite := (lanesOf e u.n).map (fun n => .p n p b)
def toEachX (u : HwUnit) (e : LaneSet) (r : Xr) (v : Word) : List RegWrite := (lanesOf e u.n).map (fun n => .x n r v)

/-! ### Scratchpad words -/

/-- What a scratchpad word does in a lane: its address, its bytes, its alignment, the full/empty bit that it waits for and the one
that it leaves, the new datum from the old one, and the register that takes a value made of the old one (10 Table 10-3, R209, R210). -/
structure SpadReq where
  ea    : Lane → Word
  n     : Lane → Nat
  align : Nat
  wait  : Option Bool
  leave : Option Bool
  new   : Lane → Nat → Option Nat
  out   : Option (Xr × (Nat → Word))

/-- A load, a store, an atomic, and a run of bits. -/
def spadLoad (w : Wd) (d a : Xr) (imm : BitVec 24) (sg : Bool) (wait leave : Option Bool) : SpadReq :=
  ⟨fun l => l.X a + imm.signExtend 64, fun _ => wdBytes w, wdBytes w, wait, leave, fun _ _ => none,
    some (d, fun old => if sg then sx (BitVec.ofNat w.bits old) else zx (BitVec.ofNat w.bits old))⟩
def spadStore (w : Wd) (b a : Xr) (imm : BitVec 24) (wait leave : Option Bool) : SpadReq :=
  ⟨fun l => l.X a + imm.signExtend 64, fun _ => wdBytes w, wdBytes w, wait, leave, fun l _ => some (l.at_ w b).toNat, none⟩
def spadAtomic (op : AmoOp) (w : Wd) (d a b c : Xr) : SpadReq :=
  ⟨fun l => l.X a, fun _ => wdBytes w, wdBytes w, none, none,
    fun l old => some (amoBits op (BitVec.ofNat w.bits old) (l.at_ w b) (l.at_ w c)).toNat, some (d, fun old => sx (BitVec.ofNat w.bits old))⟩
def spadRun (a b : Xr) (full : Bool) : SpadReq :=
  ⟨fun l => l.X a, fun l => 4 * (l.X b).toNat, 4, none, some full, fun _ _ => none, none⟩

def spadReq : Instr → Option SpadReq
  | .lds _ w d a imm => some (spadLoad w d a imm true none none)
  | .ldsu _ w d a imm => some (spadLoad w d a imm false none none)
  | .ldsf _ w d a imm => some (spadLoad w d a imm true (some true) none)
  | .ldse _ w d a imm => some (spadLoad w d a imm true (some true) (some false))
  | .sts _ w b a imm => some (spadStore w b a imm none none)
  | .stsf _ w b a imm => some (spadStore w b a imm (some false) (some true))
  | .stsx _ w b a imm => some (spadStore w b a imm none (some true))
  | .feopf _ a b => some (spadRun a b true)
  | .feope _ a b => some (spadRun a b false)
  | .samoadd _ w d a b => some (spadAtomic .add w d a b 0)
  | .samoand _ w d a b => some (spadAtomic .and w d a b 0)
  | .samoor _ w d a b => some (spadAtomic .or w d a b 0)
  | .samoxor _ w d a b => some (spadAtomic .xor w d a b 0)
  | .samomin _ w d a b => some (spadAtomic .min w d a b 0)
  | .samomax _ w d a b => some (spadAtomic .max w d a b 0)
  | .samominu _ w d a b => some (spadAtomic .minu w d a b 0)
  | .samomaxu _ w d a b => some (spadAtomic .maxu w d a b 0)
  | .samoswap _ w d a b => some (spadAtomic .swap w d a b 0)
  | .samocas _ w d a b c => some (spadAtomic .cas w d a b c)
  | _ => none

/-- The scratchpad word at a number is among those that n bytes touch. -/
def touches (a n w : Nat) : Prop := a / 4 ≤ w ∧ 4 * w < a + n

/-- A byte that the unit may use: in a live allocation, of its own ASID but under supervisor privilege (10 R191). -/
def State.mayUse (s : State) (u : HwUnit) (a : Nat) : Prop :=
  ∃ x ∈ (s.cluster u.cluster).allocs, x.live = true ∧ x.base ≤ a ∧ a < x.base + 4096 * x.units ∧ (u.super = true ∨ x.asid = u.asid)

/-- A thread alone with its access to the scratchpad of its cluster: nothing else is under way, and its L1 has no word to write through. -/
structure AloneAtBank (s : State) (u : HwUnit) : Prop where
  one   : u.team = false ∧ u.n = 1 ∧ u.done = 0
  alone : s.accs = []
  clean : ∀ x ∈ s.l1, x.dirty &&& ~~~x.owned = 0
  there : u.cluster < s.clusters.length
  good  : (s.cluster u.cluster).spadBad = []

/-- A run of n free units of 4 KiB in one bank, one that the request allows (10 R194). -/
def Cluster.hasRun (c : Cluster) (req : Word) (n k : Nat) : Prop :=
  k + n ≤ 512 ∧ k % 32 + n ≤ 32 ∧ (req.getLsbD 36 = true → k / 32 = (req.extractLsb' 32 4).toNat) ∧
  ∀ j, k ≤ j → j < k + n → ∀ x ∈ c.allocs, j < x.base / 4096 ∨ x.base / 4096 + x.units ≤ j

/-! ### Queues and commands -/

/-- Nothing of an L1 is still to be written through: no release or acquire has a word to send. -/
def State.noDirtyL1 (s : State) : Prop := ∀ x ∈ s.l1, x.dirty &&& ~~~x.owned = 0

/-- The word has issued as `o`, with an acquire among its effects: its unit's registers stand, its queue registers are these (11 R236). -/
structure Popped (i : Instr) (s t : State) (u : HwUnit) (o : OutWord) (q : Vector QReg 16) : Prop where
  unit  : ∃ w, t.unit? u.id = some w ∧ w.lanes = u.lanes ∧ w.q = q ∧ (w.pc, w.widx) = u.place .seq
  out   : t.outw = s.outw ++ [o] ∧ o.unit = u.id ∧ o.instr = i ∧ o.due = true ∧ o.faults = []
  done  : ∃ n, s.now < n ∧ (n, .wordComplete o.id) ∈ t.future
  bytes : t.mem = s.mem

/-- A team that takes its exceptions whole: it is not splittable (05 R101, R105). -/
def Whole (s : State) (u : HwUnit) : Prop := u.team = true ∧ s.splittable u = false ∧ u.status = .running ∧ u.widx ≠ 0

/-- The step of the part that an event names, taken with it. -/
def State.runs (s : State) (e : Ev) (t : State) : Prop := exec e.row { s with arg := some e } = .next t

/-- A list of queue words that is made of whole commands (11 R220): each begins with the header that gives its number of words. -/
inductive WholeCommands : List (Word × Nat) → Prop
  | none : WholeCommands []
  | more (x : Word × Nat) (l r : List (Word × Nat)) : l.length = (x.1.extractLsb' 58 2).toNat → WholeCommands r → WholeCommands (x :: (l ++ r))

/-- A command that a channel works on, of a running team, with none of its accesses under way. -/
structure InHand (s : State) (c : Nat) (k : Cmd) (u : HwUnit) : Prop where
  there : c < s.clusters.length ∧ (s.cluster c).cmd? k.id = some k
  turn  : ∃ x, (s.cluster c).chans[k.ch]? = some x ∧ x.cmds.head? = some k
  once  : ∀ k' ∈ (s.cluster c).chans.flatMap (·.cmds), k'.id = k.id → k' = k
  quiet : s.accs = []
  unit  : s.unit? k.team = some u ∧ u.id = k.team ∧ u.status = .running ∧ u.exiting = false ∧ u.split = none ∧ k.q < 16 ∧ k.rq < 16

/-! ### Matrix words -/

/-- The words that an engine works on by itself (12 R251 to R254). -/
def isEngineWord : Instr → Bool
  | .tzero .. | .tmov .. | .tmovt .. | .tcvt .. | .mma .. | .mmas .. => true
  | _ => false

/-- A word on operand slots that passes its checks at issue (12 R249): its team holds every slot that it names, its destination is no source,
no slot is busy, the queue of its engine has room, and the tags are those that it expects. -/
structure SlotsReady (i : Instr) (s : State) (u : HwUnit) (e : LaneSet) : Prop where
  held  : ∀ n ∈ matrixSlots u i, ∃ x, s.tile? u.cluster n = some x ∧ x.owner = u.id ∧ x.busy = false
  apart : matrixClash u i = false
  tags  : tagRegOk u i e = true ∧ s.tagFault u i e = none
  room  : ∃ h, s.harness? u.cluster u.pipe = some h ∧ h.engine.length < 4
  there : u.cluster < s.clusters.length

/-- The word has issued as `o` and stands last in the queue of its engine (12 R248). -/
structure Queued (i : Instr) (s t : State) (u : HwUnit) (o : OutWord) : Prop where
  unit  : ∃ w, t.unit? u.id = some w ∧ (∀ n r, (w.lane n).X r = (u.lane n).X r) ∧ (w.pc, w.widx) = u.place .seq
  out   : o ∈ t.outw ∧ o.unit = u.id ∧ o.instr = i ∧ o.slot = i.hdr.sb ∧ o.due = false ∧ o.faults = []
  queue : ∃ h h', s.harness? u.cluster u.pipe = some h ∧ t.harness? u.cluster u.pipe = some h' ∧ h'.engine = h.engine ++ [o.id]
  bytes : t.mem = s.mem

/-- The slot that a word writes, as its tag is lost when it enters the queue: TMOVT keeps it (12 R247). -/
def losesTag (i : Instr) : Option Nat := match i with | .tmovt .. => none | _ => matrixDst i

/-! ### Groups, and units that come and go -/

/-- The group words: the index of the group, and what they write where its phase has come to a result (17 R373). -/
def groupReq : Instr → Option (Nat × (HwUnit → LaneSet → Word → List RegWrite))
  | .grpsync _ g => some (g.toNat, fun _ _ _ => [])
  | .grpvoteAll _ d _ g => some (g.toNat, fun u e v => toEachP u e d (v != 0))
  | .grpvoteAny _ d _ g => some (g.toNat, fun u e v => toEachP u e d (v != 0))
  | .grpvoteCount _ d _ g => some (g.toNat, fun u e v => toEachX u e d v)
  | .grpred _ _ _ d _ g => some (g.toNat, fun u e v => toEachX u e d v)
  | _ => none

/-- Addresses of device memory that are no holes. -/
def State.solid (s : State) (lo n : Nat) : Prop := ∀ a, lo ≤ a → a < lo + n → s.hole a = false

/-- Nothing is cached and no block of memory is bad: a read at the home is a read of memory. -/
structure Uncached (s : State) : Prop where
  l1   : s.l1 = []
  l2   : s.l2 = []
  wb   : s.wbufs = []
  dir  : s.dir = []
  errs : s.errs = []
  good : s.poison = []

/-! ### Words whose effect follows a release -/

/-- The operands of a shootdown of pages (16 R356): an aligned canonical base, at least one page, and an end within its half of the space. -/
def PageRange (a b : Word) : Prop :=
  a.extractLsb' 0 12 = 0 ∧ IsCanonical a ∧ b.extractLsb' 16 32 ≠ 0 ∧ b.extractLsb' 48 16 = 0 ∧
    a.toNat + 4096 * (b.extractLsb' 16 32).toNat ≤ if a.msb then 2 ^ 64 else 2 ^ 56

/-- The stopped unit onto which a window word looks, where its selector and its lane are valid (18 R412). -/
def State.windowTo (s : State) (id lane : Word) (sel : BitVec 14) (write : Bool) (t : HwUnit) : Prop :=
  s.named id = some t ∧ t.status ≠ .running ∧ selOk t sel (if t.team then (lane.extractLsb' 0 10).toNat else 0) write = true

/-- The words that release before they take effect (16 R355; 18 R409, R410, R412, R414): the scope of the release, what they ask of
their operands with the cause that they raise else, and the two operands that they keep. -/
def lateReq : Instr → Option (Scope × (State → HwUnit → Lane → Nat → Prop) × (HwUnit → Lane → Word × Word))
  | .wake _ _ a b => some (.sy, fun _ _ l c => ((l.X b).getLsbD 2 = false ∧ c = 0) ∨ ((l.X b).getLsbD 2 = true ∧ c = 0x94), fun _ l => (l.X a, l.X b))
  | .sendm _ sc _ a b => some (sc, fun s u l c =>
      let open_ := u.super = true ∨ ∀ t, s.named (l.X a) = some t → t.asid = u.asid
      (open_ ∧ c = 0) ∨ (¬open_ ∧ c = 0x92), fun _ l => (l.X b, l.X (b + 1)))
  | .winrd _ _ a b sel => some (.sy, fun s _ l c => winCause s (l.X a) (l.X b) sel false c, fun _ l => (l.X b, 0))
  | .winwr _ d a b sel => some (.sy, fun s _ l c => winCause s (l.X a) (l.X b) sel true c, fun _ l => (l.X b, l.X d))
  | .tlbshoot _ _ a b => some (.sy, fun _ _ l c => (PageRange (l.X a) (l.X b) ∧ c = 0) ∨ (¬PageRange (l.X a) (l.X b) ∧ c = 0x77),
      fun _ l => (l.X a, l.X b))
  | .tlbshootAsid _ _ b => some (.sy, fun _ _ l c => ((l.X b).extractLsb' 16 48 = 0 ∧ c = 0) ∨ ((l.X b).extractLsb' 16 48 ≠ 0 ∧ c = 0x77),
      fun _ l => (0, l.X b))
  | .tlbshootAll .. => some (.sy, fun _ _ _ c => c = 0, fun _ _ => (0, 0))
  | .tlbshootGlob _ _ a b => some (.sy, fun _ _ l c =>
      let ok := PageRange (l.X a) (l.X b) ∧ (l.X b).extractLsb' 0 16 = 0
      (ok ∧ c = 0) ∨ (¬ok ∧ c = 0x77), fun _ l => (l.X a, l.X b))
  | .launch _ _ a => some (.dv, fun _ _ l c => ((l.X a).extractLsb' 6 26 = 0 ∧ c = 0) ∨ ((l.X a).extractLsb' 6 26 ≠ 0 ∧ c = 0x93),
      fun u l => (l.X a, BitVec.ofNat 64 (u.asid % 2 ^ 16 + if u.super then 2 ^ 16 else 0)))
  | _ => none
where
  winCause (s : State) (id lane : Word) (sel : BitVec 14) (write : Bool) (c : Nat) : Prop :=
    ((∃ t, s.windowTo id lane sel write t) ∧ c = 0) ∨
    ((∀ t, s.named id = some t → t.status = .running) ∧ c = 0x90) ∨
    ((∃ t, s.named id = some t ∧ t.status ≠ .running ∧ ¬s.windowTo id lane sel write t) ∧ c = 0x91)

/-- The word that the present step brings to effect completes in its turn, with these register writes. -/
structure Completes (s t : State) (o : OutWord) (ws : List RegWrite) : Prop where
  out : t.outw = s.outw.map (fun (x : OutWord) => if x.id = o.id then { x with due := true, writes := x.writes ++ ws } else x)
  due : .wordComplete o.id ∈ t.agenda

/-- It completes with a fault in each lane in which it executes. -/
structure Fails (s t : State) (o : OutWord) (cause : Nat) : Prop where
  out : ∃ x ∈ t.outw, x.id = o.id ∧ x.due = true ∧ x.writes = o.writes ∧ x.faults.map (fun f => (f.cause, f.lane)) = (lanesOf o.lanes 1024).map (fun n => (cause, n))
  due : .wordComplete o.id ∈ t.agenda

/-- A value for the register of each lane in which an outstanding word executes. -/
def OutWord.toEach (o : OutWord) (r : Xr) (v : Nat) : List RegWrite := (lanesOf o.lanes 1024).map (fun n => .x n r (BitVec.ofNat 64 v))

/-- A thread that takes its exceptions alone. -/
def Alone (u : HwUnit) : Prop := u.team = false ∧ u.n = 1 ∧ u.status = .running ∧ u.widx ≠ 0

/-! ### Pre-emption and launch -/

/-- The words that ask for a pre-emption: the register of the answer, that of the unit's id, the mode, and the answer for a unit that
is not there (18 R413, R415). -/
def preemptReq : Instr → Option (Xr × Xr × PreemptMode × Nat)
  | .preempt _ d a => some (d, a, .adaptive, 4)
  | .preemptSave _ d a => some (d, a, .save, 4)
  | .preemptKill _ d a => some (d, a, .kill, 4)
  | .ctxsave _ d a => some (d, a, .save, 2)
  | _ => none

/-- The word that asked has its answer, and completes in its turn: 0 DRAIN, 1 FLUSH, 2 SAVE, 3 a kill or exit, 4 no such unit; CTXSAVE answers
0, or 2 for no such unit. -/
def State.answered (t : State) (o : OutWord) (action : Nat) : Prop :=
  ∀ d a m no, preemptReq o.instr = some (d, a, m, no) →
    .wordComplete o.id ∈ t.agenda ∧ ∃ x ∈ t.outw, x.id = o.id ∧ x.due = true ∧
      x.writes = o.writes ++ o.toEach d (if no = 2 then (if action = 4 then 2 else 0) else action)

/-- Nothing is under way for a unit: no word is outstanding, no access is in progress, it waits for nothing and is neither leaving nor splitting. -/
structure Quiet (s : State) (u : HwUnit) : Prop where
  none_  : s.outOf u.id = [] ∧ s.accs = [] ∧ u.awaiting = [] ∧ u.wait = none
  stays  : u.exiting = false ∧ u.split = none ∧ u.preempt = none ∧ u.drained = 0 ∧ s.unit? u.id = some u
  apart  : s.latches = [] ∧ s.l1 = [] ∧ u.parkDue = false

/-- The unit has been saved: its place is free, its registers and its resumption point are kept, its fault record is empty (18 R403, R450). -/
structure Saved (s t : State) (u : HwUnit) (pc : Word) (n : Nat) : Prop where
  unit : ∃ w, t.unit? u.id = some w ∧ w.status = .saved ∧ (w.pc, w.widx) = (pc, n) ∧ w.preempt = none ∧ w.faultW = none ∧ w.v = u.v ∧
           w.active = u.active ∧ w.stack = u.stack ∧ w.fpstat = u.fpstat ∧ w.seed = u.seed ∧ w.lanes = u.lanes.map (fun l => { l with resv := none })
  free : t.at? u.cluster u.pipe u.slot u.team = none ∨ ∃ w, t.at? u.cluster u.pipe u.slot u.team = some w ∧ w.id ≠ u.id
  rest : ∀ k, k ≠ u.id → t.unit? k = s.unit? k

/-- A launch queue has a valid block: the first two doublewords of it (18 R380). -/
structure ValidBlock (s : State) (q : Nat) (d0 d1 : Word) : Prop where
  there : s.blockOf q + 16 < deviceBytes ∧ s.hub.lqbase.toNat % 4096 = 0 ∧ q < 64
  read  : d0 = BitVec.ofNat 64 (memRead s.mem (s.blockOf q) 8) ∧ d1 = BitVec.ofNat 64 (memRead s.mem (s.blockOf q + 8) 8)
  size  : 4 ≤ (d0.extractLsb' 0 6).toNat ∧ (d0.extractLsb' 0 6).toNat ≤ 20
  zero  : d0.extractLsb' 52 12 = 0 ∧ d1.extractLsb' 2 14 = 0

/-- A queue after a command: 0 advance, 1 drain, 2 abort, 3 reset, 4 run, where none of its records is in progress; its block shows it
(18 R380, R386). -/
structure Commanded (s t : State) (q cmd v : Nat) (super : Bool) (d0 d1 : Word) : Prop where
  kept  : (t.lq q).base = (d0.extractLsb' 6 46).toNat * 64 ∧ (t.lq q).size = (d0.extractLsb' 0 6).toNat ∧
            (t.lq q).asid = (d1.extractLsb' 16 16).toNat ∧ (t.lq q).prio = (d1.extractLsb' 0 2).toNat
  prod  : if cmd = 0 then (t.lq q).prod = v ∧ (t.lq q).ann = (s.lq q).ann ++ [(v, super)] else (t.lq q).prod = (s.lq q).prod ∧ (t.lq q).ann = (s.lq q).ann
  state : (t.lq q).st = (match cmd, (s.lq q).st with
            | 1, .run => .stop
            | 1, .drain => .stop
            | 1, .abort => .stop
            | 2, _ => .stop
            | 4, .stop => .run
            | _, x => x)
  next  : if cmd = 3 ∧ (s.lq q).st = .stop then
            (t.lq q).next = v ∧ (t.lq q).lastacc = (v + 2 ^ 32 - 1) % 2 ^ 32 ∧ (t.lq q).lastcmp = (v + 2 ^ 32 - 1) % 2 ^ 32
          else (t.lq q).next = (s.lq q).next ∧ (t.lq q).lastacc = (s.lq q).lastacc ∧ (t.lq q).lastcmp = (s.lq q).lastcmp
  others : ∀ k, k ≠ q → t.lq k = s.lq k
  block : memRead t.mem (s.blockOf q + 16) 8 = (t.lq q).lastacc % 2 ^ 32 * 2 ^ 32 + (t.lq q).lastcmp % 2 ^ 32 ∧
            memRead t.mem (s.blockOf q + 24) 8 / 2 ^ 62 = (t.lq q).st.code ∧ (cmd = 0 → memRead t.mem (s.blockOf q + 12) 4 = v % 2 ^ 32)

/-- The commands of LAUNCH's forms and of the doorbells. -/
def launchCmd : Instr → Option (Xr × Xr × Nat)
  | .launchDrain _ d a => some (d, a, 1)
  | .launchAbort _ d a => some (d, a, 2)
  | .launchReset _ d a => some (d, a, 3)
  | .launchRun _ d a => some (d, a, 4)
  | _ => none
def doorbellCmd : Ev → Option (Nat × Nat × Nat)
  | .doorbellAdvance q v => some (q % 64, 0, v)
  | .doorbellDrain q => some (q % 64, 1, 0)
  | .doorbellAbort q => some (q % 64, 2, 0)
  | .doorbellReset q v => some (q % 64, 3, v)
  | .doorbellRun q => some (q % 64, 4, 0)
  | _ => none

/-! ### Translation -/

/-- A doubleword of device memory, as a number. -/
def State.dw (s : State) (a : Nat) : Nat := memRead s.mem a 8

/-- The leaf that a walk of an address comes to, from a table of a level on: its doubleword and its level. Every entry passed is a valid
pointer, in device memory (16 R343, R347). -/
inductive TableWalk (s : State) (va : Nat) : Nat → Nat → Word → Nat → Prop
  | leaf (i tab a : Nat) (pte : Word) : s.classify (tab + 8 * (va / 2 ^ (12 + 9 * i) % 512)) = some ⟨.dev, a⟩ → a % 8 = 0 →
      pte = BitVec.ofNat 64 (s.dw a) → pte.getLsbD 0 = true → pte.extractLsb' 54 7 = 0 → pte.extractLsb' 61 2 ≠ 3 →
      (pte.getLsbD 1 = true ∨ pte.getLsbD 3 = true ∧ pte.getLsbD 2 = false) → TableWalk s va (i + 1) tab pte i
  | down (i tab a : Nat) (p pte : Word) (l : Nat) : s.classify (tab + 8 * (va / 2 ^ (12 + 9 * (i + 1)) % 512)) = some ⟨.dev, a⟩ → a % 8 = 0 →
      p = BitVec.ofNat 64 (s.dw a) → p.extractLsb' 0 5 = 1 → p.extractLsb' 6 2 = 0 → p.extractLsb' 54 7 = 0 → p.extractLsb' 61 2 ≠ 3 →
      p.getLsbD 63 = false → TableWalk s va (i + 1) ((p.extractLsb' 10 44).toNat * 4096) pte l → TableWalk s va (i + 2) tab pte l

/-- The ASID table entry of an address space: its root table, in device memory, its fwd and its ad bit (16 R341). -/
def State.hasRoot (s : State) (asid root : Nat) (fwd ad : Bool) : Prop :=
  let a := s.hub.asidtab.toNat / 2 ^ 20 * 2 ^ 20 % 2 ^ 52 + 16 * asid
  a < deviceBytes ∧ root < 2 ^ 44 ∧ s.dw a = 10 * 2 ^ 60 + root ∧
    s.dw (a + 8) = (if fwd then 2 ^ 63 else 0) + (if ad then 2 ^ 62 else 0)

/-- A shootdown's set (16 Table 16-9): the pages of an address space but its global ones, the address space but its global pages, everything,
or the pages of every address space. -/
def Shoot.covers (h : Shoot) (e : TlbEnt) : Prop :=
  let meets := e.base < h.base % 2 ^ 57 + 4096 * h.pages ∧ h.base % 2 ^ 57 < e.base + e.size
  match h.kind with
  | 0 => e.asid = h.asid ∧ e.pte.getLsbD 5 = false ∧ meets
  | 1 => e.asid = h.asid ∧ e.pte.getLsbD 5 = false
  | 2 => True
  | _ => meets

/-- The TLBSHOOT words, and the shootdowns of the mailbox with what they ask of their operands: kind, and address space, base and pages. -/
def shootWord : Instr → Option (Xr × Nat)
  | .tlbshoot _ d _ _ => some (d, 0)
  | .tlbshootAsid _ d _ => some (d, 1)
  | .tlbshootAll _ d => some (d, 2)
  | .tlbshootGlob _ d _ _ => some (d, 3)
  | _ => none
def imbShootdown : Ev → Option (Nat × Prop × Nat × Nat × Nat × Word)
  | .imbShootdownRange a b c => some (0, PageRange a b, (b.extractLsb' 0 16).toNat, a.toNat, (b.extractLsb' 16 32).toNat, c)
  | .imbShootdownAsid _ b c => some (1, b.extractLsb' 16 48 = 0, (b.extractLsb' 0 16).toNat, 0, 0, c)
  | .imbShootdownAll _ _ c => some (2, True, 0, 0, 0, c)
  | .imbShootdownGlobal a b c => some (3, PageRange a b ∧ b.extractLsb' 0 16 = 0, 0, a.toNat, (b.extractLsb' 16 32).toNat, c)
  | _ => none

/-- A request of the mailbox has been acknowledged (16 R359): the number, with bit 31 where it was refused, is written to the host, and then the
vector sent. -/
structure Acknowledged (s t : State) (cmd : Word) (bad : Bool) : Prop where
  wrote : memRead (t.extMem .host) (s.hub.imbAck.toNat / 4 * 4) 4 = (cmd.extractLsb' 0 28).toNat + if bad then 2 ^ 31 else 0
  msix  : t.msix = (if cmd.getLsbD 31 then [(cmd.extractLsb' 32 11).toNat] else []) ++ s.msix
  busy  : t.hub.imbBusy = s.hub.imbBusy - 1

/-- A word whose one access is held for its translation. -/
structure HeldFor (s : State) (r : Replay) (a : Acc) (o : OutWord) : Prop where
  one  : s.replays = [r] ∧ s.accs = [a] ∧ r.acc = a.id ∧ a.stage = .replay ∧ a.fault = 0 ∧ a.owner = .out o.id ∧ r.cause ≠ 0
  word : s.outw.find? (fun x => x.id == o.id) = some o ∧ o.due = false ∧ o.faults = []

/-- A word is to complete with this fault, of the lane of its access. -/
def State.refused (t : State) (o : OutWord) (a : Acc) (cause : Nat) : Prop :=
  ∃ x ∈ t.outw, x.id = o.id ∧ x.due = true ∧ x.faults.map (fun f => (f.cause, f.lane, f.dw24)) = [(cause, a.lane, BitVec.ofNat 64 a.va)]

/-- The numbers of the classes (15 R333). -/
def classNumber : RClass → Nat
  | .full => 0
  | .detect => 1
  | .none => 2

/-! ### Waiting, and the issue of words -/

/-- A unit that is blocked at a word that waits (06 R112). -/
structure Waits (s : State) (u : HwUnit) (w : Wait) (i : Instr) : Prop where
  unit : s.unit? u.id = some u
  wait : u.wait = some w
  word : u.waitingWord = some i

/-- A unit's test is due: what it waits for has changed since the latest, or the interval has passed (10 R204). -/
def State.due (s : State) (u : HwUnit) (w : Wait) : Prop :=
  w.poked = true ∨ w.last + 64 * ((s.cluster u.cluster).waitlim.extractLsb' 32 12).toNat ≤ s.now

/-- A failed test is counted, and the unit waits on, to test again (10 R204). -/
structure WaitsOn (s t : State) (u : HwUnit) (w : Wait) (e : Ev) : Prop where
  unit  : t.unit? u.id = some { u with wait := some { w with fails := w.fails + 1, last := s.now, poked := false } }
  again : Retries u { w with fails := w.fails + 1, last := s.now, poked := false } e
  rest  : t.mem = s.mem ∧ ∀ k, k ≠ u.id → t.unit? k = s.unit? k

/-- A unit's wait has ended: it stands at its word, whose clause is fetched anew (02 R20). -/
structure GoesOn (s t : State) (u : HwUnit) : Prop where
  unit : t.unit? u.id = some { u with wait := none, clause := none, begun := false }
  rest : t.mem = s.mem ∧ ∀ k, k ≠ u.id → t.unit? k = s.unit? k

/-- The waiter has failed as often as sr.waitlim allows (10 R206). -/
def State.atLimit (s : State) (u : HwUnit) (w : Wait) : Prop := ((s.cluster u.cluster).waitlim.extractLsb' 0 32).toNat ≤ w.fails

/-- The team t is the arbiter's choice among the ready teams rd (06 R113): an urgent team before its first clause; under RR the first after
the last slot; under GTO the current team, unless it yielded or has starved the others, else the oldest of the others. -/
def Chosen (h : Harness) (pol : Word) (rd : List HwUnit) (t : HwUnit) : Prop :=
  let starve := if pol.extractLsb' 8 8 = 0 then 256 else (pol.extractLsb' 8 8).toNat
  let others := rd.filter (fun v => some v.id != h.cur)
  let urgent := fun (v : HwUnit) => v.slot = 7 ∧ v.issued1 = false
  let after := fun (v : HwUnit) => (v.slot + 7 - h.curSlot) % 8
  t ∈ rd ∧ (urgent t ∨ (∀ v ∈ rd, ¬urgent v) ∧
    if pol.getLsbD 0 = true then ∀ v ∈ rd, after t ≤ after v
    else if ∃ c ∈ rd, h.cur = some c.id ∧ c.yielded = false ∧ ¬(starve ≤ c.run ∧ others ≠ []) then h.cur = some t.id
    else if others = [] then h.cur = some t.id else h.cur ≠ some t.id ∧ ∀ v ∈ others, t.order ≤ v.order)

/-- Two teams may issue their next clause as a pair (06 R115). -/
def MayPair (h : Harness) (pol : Word) (t q : HwUnit) : Prop :=
  pol.getLsbD 1 = true ∧ t.id ≠ q.id ∧ t.slot ≤ 6 ∧ q.slot ≤ 6 ∧ t.pc = q.pc ∧ t.widx = 1 ∧ q.widx = 1 ∧ t.asid = q.asid ∧ t.super = q.super ∧
    t.k = q.k ∧ t.active &&& q.active = 0 ∧ ∃ c, t.clause = some c ∧ c.hdr.getLsbD 48 = true ∧
      (c.hdr.getLsbD 49 = true ∨ h.lastPair = some (t.id, q.id) ∨ h.lastPair = some (q.id, t.id))

/-- The check of a clause (02 R23): the lowest cause of a reserved bit, an execution class, a word of the wrong class, and a control
word that is not the last. -/
def ClauseCause (c : Clause) (cause : Nat) : Prop :=
  let ks := c.words.map (fun w => kindOf (opOf w))
  let res := c.hdr.extractLsb' 0 40 ≠ 0
  let cls := (c.hdr.extractLsb' 57 3).toNat
  let wrong := ∃ x ∈ ks, (x = .k ∧ cls ≠ 5) ∨ (x ≠ .k ∧ x ≠ .c ∧ kindAllowed cls x = false)
  let early := ∃ x ∈ ks.dropLast, x = .c ∨ x = .k
  (res ∧ cause = 0x10) ∨ (¬res ∧ 6 ≤ cls ∧ cause = 0x11) ∨ (¬res ∧ cls < 6 ∧ wrong ∧ cause = 0x12) ∨
    (¬res ∧ cls < 6 ∧ ¬wrong ∧ early ∧ cause = 0x13) ∨ (¬res ∧ cls < 6 ∧ ¬wrong ∧ ¬early ∧ cause = 0)

/-- The unit has stopped with an exception where it stands. -/
structure Stopped (s t : State) (u : HwUnit) (cause lane : Nat) : Prop where
  unit  : ∃ w, t.unit? u.id = some w ∧ w.status = (if u.team then .parked else .halted) ∧ (w.pc, w.widx) = (u.pc, u.widx) ∧ w.clause = none ∧
            w.frec.getD 0 0 = msgDw0 cause u.asid false u.team false u.msgs ∧ w.v = u.v ∧ w.active = u.active ∧ w.stack = u.stack
  units : ∀ k, k ≠ u.id → t.unit? k = s.unit? k

/-! ### The directory -/

/-- At a frame of device memory nothing is under way in the directory and no cache holds anything: its home's words are memory's. -/
structure DirIdle (s : State) (pf : PAddr) : Prop where
  idle  : s.dirWait = [] ∧ s.slicesDown = [] ∧ s.gbusy = [] ∧ s.txns = []
  clean : s.l1 = [] ∧ s.l2 = [] ∧ s.errs = [] ∧ s.poison = []
  dev   : pf.space = .dev ∧ s.hole (pf.addr * 128) = false

/-- A word of a frame in memory. -/
def State.frameWord (s : State) (pf : PAddr) (i : Nat) : W32 := BitVec.ofNat 32 (memRead s.mem (pf.addr * 128 + 4 * i) 4)

/-- DAT is on its way to a die, with the words of a mask as memory has them, in the format of the die's record (13 R277, R284). -/
def State.sendsDat (s t : State) (die : Nat) (pf : PAddr) (m : Mask) (f : AssayFmt) (acc : Nat) : Prop :=
  ∃ n ws, s.now < n ∧ (n, .dat die pf m ws 0 acc) ∈ t.future ∧ ∀ i, m.getLsbD i = true → ws.getD i 0 = heldAs f (s.frameWord pf i)

/-- No die but these holds words of the mask. -/
def DirEnt.onlyOf (e : DirEnt) (xs : List Nat) (m : Mask) : Prop := ∀ x, x < 6 → x ∉ xs → (e.sharer x).mask &&& m = 0

/-- A store of a word changes what a sharer sees (13 R283). -/
def DirEnt.sees (e : DirEnt) (storer x i : Nat) (old new : W32) : Prop :=
  x ≠ storer ∧ (e.sharer x).mask.getLsbD i = true ∧
    if (e.sharer x).fmt = .exact then old ≠ new else roundTo (e.sharer x).fmt old ≠ roundTo (e.sharer x).fmt new

/-- The words of a mask of a frame in memory are those of a list, and every other byte is as it was. -/
def State.wroteFrame (s t : State) (pf : PAddr) (m : Mask) (ws : Nat → W32) : Prop :=
  (∀ i, m.getLsbD i = true → t.frameWord pf i = ws i) ∧
  ∀ b, (∀ i, m.getLsbD i = true → b < pf.addr * 128 + 4 * i ∨ pf.addr * 128 + 4 * i + 4 ≤ b) → memGet t.mem b = memGet s.mem b

/-- One line of a slice holds a frame, no L1 has any word of it, none of its words is poisoned. -/
structure OneLine (s : State) (die : Nat) (pf : PAddr) (l : L2Line) : Prop where
  line  : s.l2 = [l] ∧ l.die = die ∧ l.pf = pf ∧ die < 4 ∧ l.poison = 0
  l1    : s.l1 = [] ∧ s.wbufs = [] ∧ (∀ i p, l.stAt i ≠ .l p)
  dev   : pf.space = .dev ∧ s.hole (pf.addr * 128) = false ∧ s.errs = [] ∧ s.poison = []

/-! ### The dispatcher -/

/-- The launch queues but one have stopped, no unit is coming back, and no pipeline belongs to a harness or awaits one. -/
structure OneQueue (s : State) (q : Nat) : Prop where
  clean : Uncached s
  there : q < 64 ∧ (s.lq q).st = .run ∧ (∀ k, k ≠ q → (s.lq k).st = .stop) ∧ s.hub.returns = []
  open_ : s.harnesses = [] ∧ ∀ c, (s.cluster c).rdv = []

/-- A cluster has a free ordinary thread slot, on a die that a record allows (18 R384). -/
def State.roomIn (s : State) (r : Rec) (c : Nat) : Prop :=
  (r.dw 7 &&& 0xF = 0 ∨ (r.dw 7).getLsbD (c / 40) = true) ∧ ∃ p sl, p < 32 ∧ sl < 7 ∧ s.at? c p sl false = none

/-- The doubleword of a context descriptor (18 R376), in device memory. -/
def State.ctxIs (s : State) (ctx i : Nat) (v : Word) : Prop :=
  let a := s.hub.ctxtab.toNat + 64 * ctx + 8 * i
  a + 8 < deviceBytes ∧ a % 8 = 0 ∧ v = BitVec.ofNat 64 (s.dw a)

/-- An event of a source of 18 Table 18-15 is on its way to the event queue. -/
def State.eventComes (t : State) (src cause : Nat) (d0 d1 : Option Word) : Prop :=
  ∃ n q x0 x1 x2 x3, (n, .eventRecordWrite (.num src) q x0 x1 x2 x3 cause) ∈ t.future ∧ (∀ v, d0 = some v → x0 = v) ∧ ∀ v, d1 = some v → x1 = v

/-! ### Ports, links and management -/

/-- The plain registers of BAR0 (19 Table 19-3, 16 R359), each with the bits that a write sets. -/
def plainRegister : List (Nat × Word) :=
  [(0x20, 0x000FFFFFFFF00000), (0x28, 0x000FFFFFFFFC0000), (0x50, 0x000FFFFFFFFFF000), (0x68, 0xFFFFFFFF), (0x100, 0xFFFFFFFFFFFFFFFF),
   (0x108, 0x0000FFFFFFFFFFFF), (0x118, 0xFFFFFFFFFFFFFFFC)]

/-- The bits of a doubleword of a window entry (19 Table 19-4). -/
def windowBits (dw : Nat) : Word :=
  if dw = 0 then 0xF80FFFFFFFFFF000 else if dw = 1 then 0x000FFFFFFFFFF000 else if dw = 2 then 0xFFFFFFFFFFFFFFFF else 0xFFFFC00000000000

/-- Window entry i of port B admits a run of bytes, and leads it here (19 R420). -/
def State.admits (s : State) (i addr n dpa : Nat) : Prop :=
  let d := fun (k : Nat) => s.hub.windows.toList.getD (4 * i + k) 0
  i < 64 ∧ (d 0).extractLsb' 59 5 = 0x18 ∧ ((d 0).extractLsb' 12 40).toNat ≤ addr / 4096 ∧ (addr + n - 1) / 4096 ≤ ((d 1).extractLsb' 12 40).toNat ∧
    dpa = ((d 2).toNat + (addr - ((d 0).extractLsb' 12 40).toNat * 4096)) % 2 ^ 64

/-- The DPA of an inbound run of bytes: through the decoder of port A, or the first window entry of port B that admits it (19 R420, R421). -/
def State.leadsTo (s : State) (port addr n dpa : Nat) : Prop :=
  dpa + n ≤ deviceBytes ∧
  ((port = 0 ∧ Config.hdmBase ≤ addr ∧ dpa = addr - Config.hdmBase) ∨
   (port ≠ 0 ∧ port ≠ 2 ∧ ∃ i, s.admits i addr n dpa ∧ ∀ k, k < i → ∀ a, ¬s.admits k addr n a))

/-- Bytes of a list, where they are there, have replaced those of memory from an address on. -/
def replaced (old new : List Host.Cell) (at_ : Nat) (bytes : List (Option Byte)) : Prop :=
  ∀ a, memGet new a = if at_ ≤ a ∧ a < at_ + bytes.length then (bytes.getD (a - at_) none).getD (memGet old a) else memGet old a

/-- What an AtomicOp of PCIe leaves (19 R424). -/
def atomicLeaves (op : AtomicOp) (n old x y : Nat) : Nat :=
  match op with
  | .fetchAdd => (old + x) % 2 ^ (8 * n)
  | .swap => x % 2 ^ (8 * n)
  | .cas => if old = x % 2 ^ (8 * n) then y % 2 ^ (8 * n) else old

/-- No posted write of port A is under way (14 R315). -/
def State.portClear (s : State) : Prop :=
  (∀ f ∈ s.hub.frames, f.port ≠ 0) ∧ ∀ q ∈ s.future, (∀ off v, q.2 ≠ .registerWrite off v) ∧ ∀ addr bytes, q.2 ≠ .inboundPostedWrite 0 addr bytes false

/-- Nothing is cached, no granule is being re-classed, and no posted write of a port is under way. -/
structure PortsIdle (s : State) : Prop where
  clean : Uncached s
  idle  : s.gbusy = [] ∧ s.hub.frames = [] ∧ s.hub.reads = []
  port  : s.portClear

/-- The ceiling of a cluster (20 R437). -/
def State.ceilOf (s : State) (c : Nat) : Nat := ((s.cluster c).mbudget.extractLsb' 32 16).toNat

/-- The ceiling that a sample leaves (20 Table 20-1), but for its rise. -/
def lowered (c : Nat) (hot power : Bool) : Nat :=
  let a := if hot then (if c ≤ 0x20 then c else max 0x20 (c - 1024)) else c
  if power then (if a ≤ 0x400 then a else max 0x400 (a - 512)) else a

/-! ### A tripped module -/

/-- A module whose clocks have stopped: nothing is due but reads of BAR0, and no reset is on its way (20 R438). -/
structure Stilled (s : State) : Prop where
  trip   : s.hub.trip = true
  parts  : s.phase = 0 ∧ s.grants = [] ∧ s.lates = []
  lost   : s.future = [] ∧ s.hub.frames = []
  agenda : ∀ e ∈ s.agenda, ∃ addr n tag, e = .inboundReadRequest 2 addr n tag
  inputs : ∀ x ∈ s.inputs, x.2 ≠ .moduleReset

/-- A word as one of the sample words of the opcode map: the environment, the word and what it stands for. -/
def ReadsAs (e : Env) (w : Word) (i : Instr) : Prop := decodeWord e w = .ok i ∧ i.wf e = true ∧ encode i = some w

end Sys2Proof.Machine
end

