-- ==== Sys2Proof/Certificates/Slice0/Obligations.lean ====
section
/-! DEFINITION. Obligations.lean: what is claimed of the part. -/

open Sys2Proof Sys2Proof.Machine

/-! ### Steps and words -/

/-- When nothing earlier is due and it is a unit's turn, a step issues the word at which the unit stands: it is `exec` of what
the word decodes to, in the state in which the turn is taken and the unit is the issuer (02 R15, R28). A word that does not
decode raises its encoding fault in place of being executed (02 R38). A step of the part that is due is executed with what it
acts on: first a word whose release is performed, then the agenda of the cycle, then a retry whose turn it is; a step with
nothing left begins the next part of the cycle (the model's order, log 2). -/
def Obligations.EveryStepRunsTheDecodedWordOrWhatIsDue : Prop :=
  (∀ (s : State) (k : UKey) (r : List (UKey × Option Ev)) (u : HwUnit) (c : Clause) (w : Word),
     s.lates = [] → s.agenda = [] → s.grants = (k, none) :: r → s.unit? k = some u → u.able = true → u.clause = some c →
     c.words[u.widx - 1]? = some w →
     (∀ i, decodeWord u.env w = .ok i → step s = exec i { s with grants := r, cur := some k, arg := none, late := none }) ∧
     (∀ f, decodeWord u.env w = .error f → step s = .next ({ s with grants := r, late := none }.raiseAt u f.code u.active))) ∧
  (∀ (s : State) (id : Nat) (r : List Nat) (o : OutWord), s.lates = id :: r → s.lateWord id = some o →
    step s = exec o.instr { s with lates := r, late := some id, cur := some o.unit, arg := none }) ∧
  (∀ (s : State) (e : Ev) (r : List Ev), s.lates = [] → s.agenda = e :: r →
    step s = exec e.row { s with agenda := r, arg := some e, late := none }) ∧
  (∀ (s : State) (k : UKey) (e : Ev) (r : List (UKey × Option Ev)), s.lates = [] → s.agenda = [] → s.grants = (k, some e) :: r →
    step s = exec e.row { s with grants := r, arg := some e, late := none }) ∧
  (∀ s : State, s.lates = [] → s.agenda = [] → s.grants = [] → ∃ t, step s = .next t ∧ t = ({ s with late := none } : State).refill)

/-! ### Integer and predicate words -/

/-- The words that write one x register issue, write their result there in each executing lane, and change nothing else: the
two-operand integer words, the one-operand, immediate, address and bit-field words and VLEN, each computed at the width of the
word and extended; FMIN, FMAX and FCLASS from the fields of their operands' patterns, with no event (07 R139 to R142, R144 to
R148, Table 7-7; 08 R160, R163; 09 R177). -/
def Obligations.WordsThatWriteARegisterWriteTheirResult : Prop :=
  ∀ (i : Instr) (d : Xr) (f : Lane → Word) (s : State) (u : HwUnit) (e : LaneSet),
    binaryResult i = some (d, f) ∨ unaryResult i = some (d, f) ∨ patternResult i = some (d, f) → Ready i s u e → e ≠ 0 →
    ∃ t v, exec i s = .next t ∧ Issued i e .seq s t u v ∧ WritesX u v e d (fun _ => f)

/-- The comparisons and the words on predicates write their predicate in the executing lanes, and change nothing else (07 R143,
R149; 08 R161). -/
def Obligations.ComparisonsAndPredicateWordsWriteAPredicate : Prop :=
  ∀ (i : Instr) (d : Pr) (f : Lane → Bool) (s : State) (u : HwUnit) (e : LaneSet), predicateResult i = some (d, f) → Ready i s u e →
    e ≠ 0 → ∃ t v, exec i s = .next t ∧ Issued i e .seq s t u v ∧ WritesP u v e d f

/-- A word that its guards let execute nowhere changes nothing but its unit's place: no register, no counter, no other state (02
R28); but for BR.div and JOIN, which act on the divergence stack. -/
def Obligations.WordsThatExecuteNowhereOnlyIssue : Prop :=
  ∀ (i : Instr) (s : State) (u : HwUnit), i.isWord = true → (∀ h off, i ≠ .brDiv h off) → (∀ h, i ≠ .join h) → Ready i s u 0 →
    ∃ t, exec i s = .next t ∧
      (∃ w, t.unit? u.id = some w ∧ w.withoutPlace = u.withoutPlace ∧ (w.pc, w.widx) = u.place .seq ∧ w.retired = u.retired ∧ w.sb = u.sb) ∧
      Apart s t u.id

/-! ### Control -/

/-- BR, JMP, CALL and LOOP: where the lanes that take the transfer are none or all, and a target that is taken is canonical, it is
made or not, CALL links and LOOP counts in every executing lane, and nothing else changes (06 R122, R123, Table 6-3). JMPX,
RET and CALLX: where every active lane executes and names one aligned canonical target, execution goes there; CALLX links (06
R124, Table 6-4). In a thread, or a team that cannot split: a uniform transfer to a target that is not canonical takes the
exception 0x70, a uniform one to a misaligned target 0x14, and one that is not uniform 0x28. In a splittable team one that is
not uniform has no effect: the team is to split where it stands, and an event 0x28 is on its way (06 R122 to R125, 16 R344). -/
def Obligations.TransfersGoToTheirTargetOrTakeTheirException : Prop :=
  (∀ (i : Instr) (off : BitVec 30) (tk : Lane → Bool) (d : Xr) (f : HwUnit → Lane → Word) (s : State) (u : HwUnit) (e T : LaneSet),
     offsetTransfer i = some (off, tk, d, f) → Ready i s u e → e ≠ 0 → (∀ n, T.getLsbD n = (e.getLsbD n && tk (u.lane n))) →
     (u.team = false ∨ T = 0 ∨ T = u.active) → (T = 0 ∨ IsCanonical (u.target off)) →
     ∃ t v, exec i s = .next t ∧ Issued i e (if T = 0 then .seq else .to (u.target off)) s t u v ∧ WritesX u v e d (fun _ => f u)) ∧
  (∀ (i : Instr) (a d : Xr) (s : State) (u : HwUnit) (e : LaneSet) (pc : Word), registerTransfer i = some (a, d) → Ready i s u e → e ≠ 0 →
     (u.team = false ∨ e = u.active) → (∀ n, e.getLsbD n = true → (u.lane n).X a = pc) → pc.extractLsb' 0 3 = 0 → IsCanonical pc →
     ∃ t v, exec i s = .next t ∧ Issued i e (.to pc) s t u v ∧ WritesX u v e d (fun _ _ => followPc u)) ∧
  (∀ (i : Instr) (off : BitVec 30) (tk : Lane → Bool) (d : Xr) (f : HwUnit → Lane → Word) (s : State) (u : HwUnit) (e T : LaneSet),
     offsetTransfer i = some (off, tk, d, f) → Ready i s u e → e ≠ 0 → (∀ n, T.getLsbD n = (e.getLsbD n && tk (u.lane n))) → T ≠ 0 →
     ((u.team = false ∨ T = u.active) → ¬IsCanonical (u.target off) → u.status = .running → s.splittable u = false → u.widx ≠ 0 →
       ∃ t l, exec i s = .next t ∧ TookException s t u 0x70 l T) ∧
     (u.team = true → T ≠ u.active → u.status = .running → s.splittable u = false → u.widx ≠ 0 →
       ∃ t l, exec i s = .next t ∧ TookException s t u 0x28 l T) ∧
     (T ≠ u.active → s.splittable u = true → ∃ t, exec i s = .next t ∧ SplitsHere s t u 0x28)) ∧
  (∀ (i : Instr) (a d : Xr) (s : State) (u : HwUnit) (e : LaneSet), registerTransfer i = some (a, d) → Ready i s u e → e ≠ 0 →
     let uniform := fun (pc : Word) => (u.team = false ∨ e = u.active) ∧ ∀ n, e.getLsbD n = true → (u.lane n).X a = pc
     let took := fun (c : Nat) => u.status = .running → s.splittable u = false → u.widx ≠ 0 → ∃ t l, exec i s = .next t ∧ TookException s t u c l e
     (∀ pc, uniform pc → pc.extractLsb' 0 3 ≠ 0 → took 0x14) ∧
     (∀ pc, uniform pc → pc.extractLsb' 0 3 = 0 → ¬IsCanonical pc → took 0x70) ∧
     (u.team = true → (∀ pc, ¬uniform pc) → took 0x28 ∧ (s.splittable u = true → ∃ t, exec i s = .next t ∧ SplitsHere s t u 0x28)))

/-- VLEN writes 512 to the x register of its d field, and its word holds nothing else below bit 48 (09 R177). -/
def Obligations.VlenWrites512AndHasNoOtherField : Prop :=
  (∀ (h : Hdr) (d : Xr) (s : State) (u : HwUnit) (e : LaneSet), Ready (.vlen h d) s u e → e ≠ 0 →
    ∃ t v, exec (.vlen h d) s = .next t ∧ Issued (.vlen h d) e .seq s t u v ∧ WritesX u v e d (fun _ _ => 512)) ∧
  (∀ (e : Env) (w : Word) (h : Hdr) (d : Xr), decodeWord e w = .ok (.vlen h d) →
    w.extractLsb' 56 8 = 0x7A ∧ w.extractLsb' 42 6 = d ∧ w.extractLsb' 0 42 = 0)

/-- NOP has no effect but that it issues and is counted; YIELD sets yielded of its team for its clause: the team has yielded once
the clause retires, with this word or a later one; it keeps a thread from being ready for the next 7 core cycles (06 R127). -/
def Obligations.NopHasNoEffectAndYieldGivesWay : Prop :=
  (∀ (h : Hdr) (s : State) (u : HwUnit) (e : LaneSet), Ready (.nop h) s u e → e ≠ 0 →
    ∃ t, exec (.nop h) s = .next t ∧ Issued (.nop h) e .seq s t u u) ∧
  (∀ (h : Hdr) (s : State) (u : HwUnit) (e : LaneSet), Ready (.yield h) s u e → e ≠ 0 →
    ∃ t v w, exec (.yield h) s = .next t ∧ Issued (.yield h) e .seq s t u v ∧ t.unit? u.id = some w ∧
      (u.team = true → v = { u with yieldDue := true } ∧ (∀ c, u.after = none → u.clause = some c →
        (u.widx < c.words.length → w.yieldDue = true ∧ w.yielded = u.yielded) ∧ (c.words.length ≤ u.widx → w.yielded = true)) ∧
        ∀ (x : HwUnit) (c : Clause) (pc : Word), x.team = true → x.yieldDue = true → (x.retire c pc).yielded = true) ∧
      (u.team = false → { v with awake := u.awake } = u ∧ ∀ s' : State, s'.now ≤ s.now + 7 → s'.threadReady w = false))

/-- BR.div and JOIN in a team, on a stack that has room, change the active set and the stack as 05 R98 and R99 give, and where
execution goes; BR.div in a thread acts as BR, JOIN in a thread or on an empty stack does nothing. -/
def Obligations.DivergenceStackFollowsBrDivAndJoin : Prop :=
  (∀ (h : Hdr) (off : BitVec 30) (s : State) (u : HwUnit) (T : LaneSet), Ready (.brDiv h off) s u T → u.stack.length < 32 →
    (T = 0 ∨ IsCanonical (u.target off)) →
    ∃ t v nx, exec (.brDiv h off) s = .next t ∧ Issued (.brDiv h off) T nx s t u v ∧ { v with stack := u.stack, active := u.active } = u ∧
      (u.team = false → v = u ∧ nx = if T = 0 then .seq else .to (u.target off)) ∧
      (u.team = true → T = 0 → v.active = u.active ∧ v.stack = ⟨u.active, 0, u.target off, false, 0⟩ :: u.stack ∧ nx = .seq) ∧
      (u.team = true → T ≠ 0 → T = u.active → v.active = u.active ∧ v.stack = ⟨u.active, 0, 0, true, 0⟩ :: u.stack ∧ nx = .to (u.target off)) ∧
      (u.team = true → T ≠ 0 → T ≠ u.active → v.active = u.active &&& ~~~T ∧ nx = .seq ∧
        v.stack = ⟨u.active, T, u.target off, false, 0⟩ :: u.stack)) ∧
  (∀ (h : Hdr) (s : State) (u : HwUnit) (e : LaneSet), Ready (.join h) s u e →
    ∃ t v nx, exec (.join h) s = .next t ∧ Issued (.join h) e nx s t u v ∧ { v with stack := u.stack, active := u.active } = u ∧
      (u.stack = [] → v = u ∧ nx = .seq) ∧
      (∀ x r, u.stack = x :: r → x.two = false → x.m ≠ 0 → v.active = x.m ∧ nx = .to x.pc ∧
        v.stack = ⟨x.s, u.active, u.wordAddr, true, u.pc⟩ :: r) ∧
      (∀ x r, u.stack = x :: r → (x.two = true ∨ x.m = 0) → v.active = x.s ∧ nx = .seq ∧ v.stack = r))

/-- HALT: a thread with nothing outstanding leaves, and one with a counter above zero waits at the word; in a team the executing
lanes exit, wherever the stack names them too; where no lane is left active the stack unwinds, and the team leaves when no lane
is left (06 R126). SPLIT: a splittable team is
to split and goes on after the word; in a thread nothing happens; any other team takes the exception 0x25 and parks (05 R103). -/
def Obligations.HaltAndSplitEndAndDivideUnits : Prop :=
  (∀ (h : Hdr) (s : State) (u : HwUnit) (e : LaneSet), Ready (.halt h) s u e → e ≠ 0 →
     (u.team = false → u.sbZero = true → ∃ t v, exec (.halt h) s = .next t ∧ Issued (.halt h) e .seq s t u v ∧ v = { u with exiting := true }) ∧
     (u.team = false → u.sbZero = false → u.wait = none → ∃ t w x, exec (.halt h) s = .next t ∧ t.unit? u.id = some w ∧ w.wait = some x ∧
       x.kind = .counters ∧ (w.pc, w.widx) = (u.pc, u.widx) ∧ w.able = false ∧ Apart s t u.id) ∧
     (u.team = true → ∃ t v nx, exec (.halt h) s = .next t ∧ Issued (.halt h) e nx s t u v ∧
       { v with exited := u.exited, active := u.active, stack := u.stack, exiting := u.exiting } = u ∧ v.exited = u.exited ||| e ∧
       (u.active &&& ~~~e ≠ 0 → v.active = u.active &&& ~~~e ∧ v.exiting = false ∧ nx = .seq ∧
         v.stack = u.stack.map (fun x => { x with s := x.s &&& ~~~e, m := x.m &&& ~~~e })) ∧
       (u.active &&& ~~~e = 0 → v.exiting = decide (v.active = 0) ∧
         Unwinds (u.stack.map (fun x => { x with s := x.s &&& ~~~e, m := x.m &&& ~~~e })) v.active v.stack nx))) ∧
  (∀ (h : Hdr) (s : State) (u : HwUnit) (e : LaneSet), Ready (.split h) s u e → e ≠ 0 →
     (u.team = false → ∃ t, exec (.split h) s = .next t ∧ Issued (.split h) e .seq s t u u) ∧
     (s.splittable u = true → ∃ t, exec (.split h) s = .next t ∧ Issued (.split h) e .seq s t u { u with split := some [] }) ∧
     (u.team = true → s.splittable u = false → u.status = .running → u.widx ≠ 0 → u.active ≠ 0 → (∀ n, u.n ≤ n → u.active.getLsbD n = false) →
       ∃ t l, exec (.split h) s = .next t ∧ TookException s t u 0x25 l u.active))

/-- MOVSR reads a special register into each executing lane; MOVRS, MOVRS.set and MOVRS.clr issue and then write the register
from the highest executing lane: the value, or the register with the value's bits set or cleared (06 R128, R129). What a written
special register holds: the writable fields take their bits, every other field keeps its reset value or its own (00 R4, R5; 07
Table 7-2; the field maps of 04, 05, 06, 08, 10, 12, 13, 15, 16, 18). -/
def Obligations.SpecialRegistersAreReadAndWritten : Prop :=
  (∀ (h : Hdr) (d : Xr) (sri : BitVec 12) (s : State) (u : HwUnit) (e : LaneSet), Ready (.movsr h d sri) s u e → e ≠ 0 →
    ∃ t v, exec (.movsr h d sri) s = .next t ∧ Issued (.movsr h d sri) e .seq s t u v ∧ WritesX u v e d (fun n _ => s.sr u n sri)) ∧
  (∀ (i : Instr) (h : Hdr) (sri : BitVec 12) (a : Xr) (new : Word → Word → Word) (s : State) (u : HwUnit) (e : LaneSet) (n : Nat),
    (i = .movrs h sri a ∧ new = (fun _ v => v)) ∨ (i = .movrsSet h sri a ∧ new = (fun o v => o ||| v)) ∨
      (i = .movrsClr h sri a ∧ new = (fun o v => o &&& ~~~v)) →
    Ready i s u e → e.getLsbD n = true → (∀ m, n < m → e.getLsbD m = false) →
    ∃ m, exec i s = .next (m.setSr u sri (new (s.sr u 0 sri) ((u.lane n).X a))) ∧ Issued i e .seq s m u u) ∧
  (∀ (s : State) (u : HwUnit) (v : Word), s.unit? u.id = some u → u.cluster < s.clusters.length → u.cluster < 160 →
     let got := fun (sri : BitVec 12) => ((s.setSr u sri v).unit? u.id).map (fun w => (s.setSr u sri v).sr w 0 sri)
     got 0x010 = some ((if v.extractLsb' 16 3 = 0 ∨ 5 < (v.extractLsb' 16 3).toNat then (v &&& 0x1F1F) ||| 0x10000 else v &&& 0x71F1F) |||
       u.hwFlags.setWidth 64) ∧
     got 0x011 = some (if v.extractLsb' 0 32 = 0 then 1 else (v.extractLsb' 0 32).setWidth 64) ∧
     (u.team = true → got 0x012 = some (v &&& 0xFF)) ∧ got 0x014 = some (v &&& 0xFFFF) ∧ got 0x020 = some (v &&& 0xFF03) ∧
     got 0x021 = some (if v.extractLsb' 0 32 = 0 then 1 else v &&& 0xFFFFFFFF) ∧ got 0x024 = some v ∧
     got 0x025 = some (if v.extractLsb' 0 32 = 0 then 1 else v &&& 0xFFFFFFFF) ∧ got 0x026 = some (v &&& 0xFFFFFFFF) ∧
     got 0x027 = some (v &&& 0x80000003FFFFFFFF) ∧ got 0x030 = some (v &&& 0xFFFFFFFF) ∧ got 0x031 = some (v &&& 0x80000003FFFFFFFF) ∧
     got 0x040 = some (v &&& 0xFFFFFFFF) ∧
     (∀ sri ∈ ([0x000, 0x001, 0x002, 0x003, 0x004, 0x005, 0x006, 0x013] : List (BitVec 12)), s.setSr u sri v = s))

/-! ### Floating point -/

/-- FADD, FSUB, FMUL, FMA, FSCALE, FCVT and FCVTU, where no lane raises an enabled event: each executing lane takes its rounded
result, the events of all are recorded in sr.fpstat, and the generator has stepped once for each lane that drew (08 R151, R156,
R157, R159, R162; 04 R69, R74, R75). The same words in a thread that raises an enabled event: the exception 0x30, with no effect
of the word (08 R153, R154). FDIV, FSQRT and the special functions issue with their results on the way: each quiet lane's
register is written when the word completes, with its events; a lane that raises an enabled event faults then (08 R151, R154,
R157, R158, R164). -/
def Obligations.FloatingPointWordsRoundRecordAndTrap : Prop :=
  (∀ (i : Instr) (w : FpWord) (s : State) (u : HwUnit) (e : LaneSet), fixedFp i = some w → Ready i s u e → e ≠ 0 → w.raising u e = [] →
     ∃ t v v', exec i s = .next t ∧ Issued i e .seq s t u v' ∧ WritesX u v e w.d (fun n _ => w.ext (w.at_ u e n).1) ∧
       { v' with fpstat := v.fpstat, hwFlags := v.hwFlags, seed := v.seed, taint := v.taint } = v ∧
       v'.fpstat = u.fpstat ||| (w.events u e (lanesOf e u.n)).setWidth 64 ∧
       v'.seed = (if w.draws u then seedSteps (lanesOf e u.n).length u.seed else u.seed)) ∧
  (∀ (i : Instr) (w : FpWord) (s : State) (u : HwUnit) (e : LaneSet), fixedFp i = some w → Ready i s u e → e ≠ 0 → u.team = false → u.n = 1 →
     w.raising u e ≠ [] → u.status = .running → u.widx ≠ 0 →
     ∃ t, exec i s = .next t ∧ TookException s t u 0x30 0 e) ∧
  (∀ (i : Instr) (w : FpWord) (lat : Nat) (s : State) (u : HwUnit) (e : LaneSet), laterFp i = some (w, lat) → Ready i s u e → e ≠ 0 →
     ∃ t o, exec i s = .next t ∧
       InFlight i e s t u u o (s.now + (if u.team then s.occupancy u false else 1) - 1 + lat) ∧
       o.writes = (w.quiet u e).map (fun n => .x n w.d (w.ext (w.at_ u e n).1)) ∧ o.flags = w.events u e (w.quiet u e) ∧
       o.faults.map (fun f => (f.cause, f.lane)) = (w.raising u e).map (fun n => (0x30, n)))

/-- The sums and products that are rounded are exact; a quotient and a square root lie in the interval that their kept bits
give, at its lower end exactly where nothing is marked as left over (08 R157). -/
def Obligations.ExactArithmeticIsExact : Prop :=
  (∀ (rdn na nb : Bool) (ma mb : Nat) (ea eb : Int), ∃ n m e, (fAdd rdn (.fin na ma ea false) (.fin nb mb eb false)).1 = .fin n m e false ∧
    ratOf n m e = ratOf na ma ea + ratOf nb mb eb) ∧
  (∀ (na nb : Bool) (ma mb : Nat) (ea eb : Int), ∃ n m e, (fMul (.fin na ma ea false) (.fin nb mb eb false)).1 = .fin n m e false ∧
    ratOf n m e = ratOf na ma ea * ratOf nb mb eb) ∧
  (∀ (na nb : Bool) (ma mb : Nat) (ea eb : Int), ma ≠ 0 → mb ≠ 0 → ∃ n m e k, (fDiv (.fin na ma ea false) (.fin nb mb eb false)).1 = .fin n m e k ∧
    n = (na != nb) ∧ |ratOf false m e| ≤ |ratOf na ma ea / ratOf nb mb eb| ∧ |ratOf na ma ea / ratOf nb mb eb| < |ratOf false (m + 1) e| ∧
    (k = false ↔ |ratOf false m e| = |ratOf na ma ea / ratOf nb mb eb|)) ∧
  (∀ (m : Nat) (e : Int), m ≠ 0 → ∃ r q k, (fSqrt (.fin false m e false)).1 = .fin false r q k ∧
    ratOf false r q ^ 2 ≤ ratOf false m e ∧ ratOf false m e < ratOf false (r + 1) q ^ 2 ∧ (k = false ↔ ratOf false r q ^ 2 = ratOf false m e))

/-! ### Vector words -/

/-- An element-wise vector word that raises no enabled event writes its result to the computed elements of its destination; the
others are kept or zeroed; its events go to sr.fpstat, and the generator has stepped for each draw (09 R166 to R173, R175, R176,
R178, R180). An element-wise word that raises an enabled event takes the exception 0x30 whole: no element is written (09 R174).
VPAIR: both halves read before either writes, each writes its own register, and the draws of half B follow those of half A (02
R33 to R35, 09 R188). -/
def Obligations.ElementWordsWriteEveryElementOrTrapWhole : Prop :=
  (∀ (i : Instr) (w : VecWord) (s : State) (u : HwUnit) (e : LaneSet), elementWord i = some w → Ready i s u e → e ≠ 0 →
     u.trapped (w.events u) = false →
     ∃ t v v', exec i s = .next t ∧ Issued i e .seq s t u v' ∧ WritesV u v w.d ∧
       (∀ k, k < 512 / w.n → elemOf (v.V w.d) w.n k = w.result u k) ∧
       { v' with fpstat := v.fpstat, hwFlags := v.hwFlags, seed := v.seed } = v ∧ v'.fpstat = u.fpstat ||| (w.events u).setWidth 64 ∧
       v'.seed = (if w.draws u then seedSteps (w.elems u).length u.seed else u.seed)) ∧
  (∀ (i : Instr) (w : VecWord) (s : State) (u : HwUnit) (e : LaneSet), elementWord i = some w → Ready i s u e → e ≠ 0 → u.team = false →
     u.trapped (w.events u) = true → u.status = .running → u.widx ≠ 0 →
     ∃ t, exec i s = .next t ∧ TookException s t u 0x30 0 1) ∧
  (∀ (a b : VHalf) (s : State) (u : HwUnit) (e : LaneSet), Ready (.vpair a b) s u e → e ≠ 0 →
     let wa := a.asWord false
     let ub := { u with seed := if a.draws u then seedSteps (wa.elems u).length u.seed else u.seed }
     let wb := b.asWord true
     u.trapped (wa.events u ||| wb.events ub) = false →
     ∃ t v, exec (.vpair a b) s = .next t ∧ Issued (.vpair a b) e .seq s t u v ∧
       (∀ k, k < 512 / wa.n → elemOf (v.V wa.d) wa.n k = wa.result u k) ∧
       (∀ k, k < 512 / wb.n → elemOf (v.V wb.d) wb.n k = wb.result ub k) ∧
       (∀ r, r ≠ wa.d → r ≠ wb.d → v.V r = u.V r) ∧ v.lanes = u.lanes ∧ v.fpstat = u.fpstat ||| (wa.events u ||| wb.events ub).setWidth 64)

/-- VCOMPRESS packs the active elements from element 0 on, zeroes the rest, and writes their number to an x register (09 R179).
The reductions, and VSCAN, issue with their result on the way, or with the fault 0x30 in its place where a combination raises an
enabled event; while an event is enabled, a floating-point VREDADD or VSCAN leaves its thread waiting for its completion (09
R174, R181, R182, R189). An integer VREDADD without saturation is the sum of the initial value and the active elements, whatever
the tree; VREDMIN gives the least, VREDMAXU the greatest (09 R181). -/
def Obligations.VectorReductionsCompressAndScan : Prop :=
  (∀ (h : Hdr) (t : Ty) (gv : Bool) (pg d a : Vr) (c : Xr) (s : State) (u : HwUnit) (e : LaneSet),
     Ready (.vcompress h t gv pg d a c) s u e → e ≠ 0 →
     ∃ t' v v', exec (.vcompress h t gv pg d a c) s = .next t' ∧ Issued (.vcompress h t gv pg d a c) e .seq s t' u v' ∧ WritesV u v d ∧
       (∀ k, k < t.elems → elemOf (v.V d) t.bits k = (activeElems u ⟨gv, pg, false⟩ t.bits a).getD k 0) ∧
       WritesX v v' e c (fun _ _ => BitVec.ofNat 64 (activeElems u ⟨gv, pg, false⟩ t.bits a).length)) ∧
  (∀ (i : Instr) (t : Ty) (g : Gov) (d a b : Vr) (c : HwUnit → Comb) (s : State) (u : HwUnit) (e : LaneSet),
    reduction i = some (t, g, d, a, b, c) → Ready i s u e → e ≠ 0 →
    let res := reduce (c u) ((List.range t.elems).map (fun k =>
      if g.active u t.bits k then some ((elemOf (u.V a) t.bits k).toNat, k) else none)) (elemOf (u.V b) t.bits 0).toNat
    let sums := (∃ h gv pg rm sat, i = .vredadd h t gv pg rm sat d a b) ∧ t.isInt = false
    ∃ t' o, exec i s = .next t' ∧ (∀ float : Bool, (float = true ↔ sums) → InFlight i e s t' u (u.heldUntil float o.id s.now) o
        (s.now + (if u.team then s.occupancy u false else 1) - 1 + if t.isInt then 6 else 10)) ∧
      (¬anyTrapped u res.2 → o.faults = [] ∧ o.flags = evUnion res.2 ∧ ∃ r, o.writes = [.v d r] ∧ (∀ k, 0 < k → k < t.elems → elemOf r t.bits k = 0) ∧
        elemOf r t.bits 0 = BitVec.ofNat t.bits res.1) ∧
      (anyTrapped u res.2 → o.writes = [] ∧ o.flags = 0 ∧ o.faults.map (fun f => (f.cause, f.lane)) = [(0x30, 0)])) ∧
  (∀ (h : Hdr) (t : Ty) (g : Gov) (rm : Rm) (d a b : Vr) (s : State) (u : HwUnit) (e : LaneSet), Ready (.vscan h t g rm d a b) s u e → e ≠ 0 →
    let steps := scanSteps (addComb u t rm false) (fun j => (elemOf (u.V a) t.bits j).toNat) ((List.range t.elems).filter (g.active u t.bits))
      (elemOf (u.V b) t.bits (t.elems - 1)).toNat
    let evs := steps.map (fun x => (x.1, x.2.2))
    ∃ t' o, exec (.vscan h t g rm d a b) s = .next t' ∧
      InFlight (.vscan h t g rm d a b) e s t' u (u.heldUntil (!t.isInt) o.id s.now) o
        (s.now + (if u.team then s.occupancy u false else 1) - 1 + if t.isInt then 8 else 14) ∧
      (¬anyTrapped u evs → o.faults = [] ∧ o.flags = evUnion evs ∧ ∃ r, o.writes = [.v d r] ∧ ∀ k, k < t.elems →
        (∀ v ev, (k, v, ev) ∈ steps → elemOf r t.bits k = BitVec.ofNat t.bits v) ∧
        (g.active u t.bits k = false → elemOf r t.bits k = if g.z then 0 else elemOf (u.V d) t.bits k)) ∧
      (anyTrapped u evs → o.writes = [] ∧ o.flags = 0 ∧ o.faults.map (fun f => (f.cause, f.lane)) = [(0x30, 0)])) ∧
  (∀ (u : HwUnit) (t : Ty) (l : List (Option (BitVec t.bits))) (first : BitVec t.bits), t.isInt = true → l.length = t.elems →
     let parts : List Part := l.mapIdx (fun k x => x.map (fun b => (b.toNat, k)))
     let xs := l.filterMap id
     (∀ rm, BitVec.ofNat t.bits (reduce (addComb u t rm false) parts first.toNat).1 = first + sumOf xs) ∧
     (let r := BitVec.ofNat t.bits (reduce (mmComb t false false) parts first.toNat).1;
       r ∈ first :: xs ∧ ∀ x ∈ first :: xs, r.toInt ≤ x.toInt) ∧
     (let r := BitVec.ofNat t.bits (reduce (mmComb t true true) parts first.toNat).1;
       r ∈ first :: xs ∧ ∀ x ∈ first :: xs, x.toNat ≤ r.toNat))

/-- The ordered merges issue with the merged register and the counts on the way (09 R183). Merging two sorted sources gives a
sorted result, made of their first items, each source's in its order (09 R183). -/
def Obligations.OrderedMergesSortTheirSources : Prop :=
  (∀ (i : Instr) (w : Wd) (kv uns : Bool) (d a b : Vr) (c : Xr) (s : State) (u : HwUnit) (e : LaneSet),
     orderedMerge i = some (w, kv, uns, d, a, b, c) → Ready i s u e → e ≠ 0 →
     let cap := 512 / w.bits / (if kv then 2 else 1)
     let na := min (((u.lane 0).X c).extractLsb' 0 8).toNat cap
     let nb := min (((u.lane 0).X c).extractLsb' 8 8).toNat cap
     let m := mergeItems uns w.bits cap (itemsOf (u.V a) w.bits kv na) (itemsOf (u.V b) w.bits kv nb) 0 0
     ∃ t o, exec i s = .next t ∧ InFlight i e s t u u o (s.now + (if u.team then s.occupancy u false else 1) - 1 + 4) ∧ o.faults = [] ∧
       o.writes = [.v d (vBuild w.bits m.1.flatten), .x 0 c (BitVec.ofNat 64 (m.1.length * 65536 + m.2.2 * 256 + m.2.1))] ∧
       m.1.length = min cap (na + nb) ∧ m.1.length = m.2.1 + m.2.2) ∧
  (∀ (uns : Bool) (w n : Nat) (as bs : List (List Nat)),
     let le := fun (x y : List Nat) => if uns then x.headD 0 ≤ y.headD 0 else sgn (x.headD 0) w ≤ sgn (y.headD 0) w
     let m := mergeItems uns w n as bs 0 0
     as.Pairwise le → bs.Pairwise le →
     m.1.Pairwise le ∧ m.1.Perm (as.take m.2.1 ++ bs.take m.2.2) ∧ m.1.length = min n (as.length + bs.length))

/-! ### Memory words -/

/-- The memory words, where every executing lane's address fits: the word issues and is outstanding, the lanes' reservations
are gone but for LDLK, STCK and the barrier words (and where an STCK came before that is still to be decided), and each
executing lane makes its one access, at X(a) + off, with the request span, scope, operands and destination of the word;
BARWAIT is not among them (13 R264, R287 to R296; 14 R303; 17 R366). A memory word of a thread whose address is misaligned,
whose span leaves its frame or whose address is not canonical takes the exception 0x50, 0x51 or 0x70, in this order, with
the address in its fault record (13 R264, 16 R344, 18 R393); BARINIT with a count that is not 1 to 32,767 takes 0x84 (17
R366). -/
def Obligations.MemoryWordsMakeTheirAccessesOrFault : Prop :=
  (∀ (i : Instr) (m : MemReq) (s : State) (u : HwUnit) (e : LaneSet), memoryReq i = some m → Ready i s u e → e ≠ 0 →
     (∀ n, e.getLsbD n = true → m.fits (u.lane n)) →
     ∃ t o, exec i s = .next ((t.addAccs ((lanesOf e u.n).map (m.acc u o.id))).outCheck o.id) ∧
       Outstanding i e (s.unlessKept u e m.keeps) t u (s.unitUnlessKept u e m.keeps) o ∧ o.writes = []) ∧
  (∀ (i : Instr) (m : MemReq) (s : State) (u : HwUnit) (e : LaneSet), memoryReq i = some m → Ready i s u e → e ≠ 0 → u.team = false →
     u.n = 1 → u.status = .running → u.widx ≠ 0 →
     let ea := m.ea (u.lane 0)
     let took := fun (c : Nat) => ∃ t, exec i s = .next t ∧ TookException s t u c 0 e ∧
       ∃ w, t.unit? u.id = some w ∧ w.frec.getD 24 0 = if c = 0x84 then 0 else ea
     (ea.toNat % m.align ≠ 0 → took 0x50) ∧
     (ea.toNat % m.align = 0 → 32 < ea.toNat % 128 / 4 + m.words → took 0x51) ∧
     (ea.toNat % m.align = 0 → ea.toNat % 128 / 4 + m.words ≤ 32 → ¬IsCanonical ea → (∀ h rt sp a off, i ≠ .pref h rt sp a off) → took 0x70) ∧
     (∀ h rt sc a b off, i = .barinit h rt sc a b off → Fits ea 16 4 → ((u.lane 0).X b = 0 ∨ 32767 < ((u.lane 0).X b).toNat) → took 0x84))

/-- VLD, VST, VLDX and VSTX, where the address of every active element is aligned to it and canonical: the word issues, and
makes one access for each active element; where it zeroes, the other elements of the destination are to be zero (09 R184,
R185). They take the exception 0x34 where an active element's address is not aligned to it, else 0x70 where one is not
canonical, and access nothing (09 R186, 16 R344). -/
def Obligations.VectorMemoryWordsAccessEachActiveElementOrFault : Prop :=
  (∀ (i : Instr) (w : Wd) (st : Bool) (g : Gov) (d : Vr) (rt : ReqType) (sc : Scope) (at_ : HwUnit → Nat → Word) (s : State) (u : HwUnit)
     (e : LaneSet), vectorReq i = some (w, st, g, d, rt, sc, at_) → Ready i s u e → e ≠ 0 →
     let els := List.range (512 / w.bits)
     (∀ k, k < 512 / w.bits → g.active u w.bits k = true → (at_ u k).toNat % wdBytes w = 0 ∧ IsCanonical (at_ u k)) →
     ∃ t o, exec i s = .next ((t.addAccs ((els.filter (g.active u w.bits)).map (fun k => elemAcc u w st d rt sc (at_ u k) o.id k))).outCheck o.id) ∧
       Outstanding i e (s.spoilLocks u e) t u (s.unlock u e) o ∧
       o.writes = (if st = false ∧ g.z = true then (els.filter (fun k => !g.active u w.bits k)).map (fun k => .ve d (k * wdBytes w) (wdBytes w) 0) else [])) ∧
  (∀ (i : Instr) (w : Wd) (st : Bool) (g : Gov) (d : Vr) (rt : ReqType) (sc : Scope) (at_ : HwUnit → Nat → Word) (s : State) (u : HwUnit)
     (e : LaneSet), vectorReq i = some (w, st, g, d, rt, sc, at_) → Ready i s u e → e ≠ 0 → u.team = false → u.n = 1 → u.status = .running →
     u.widx ≠ 0 →
     let bad := fun (p : Word → Prop) => ∃ k, k < 512 / w.bits ∧ g.active u w.bits k = true ∧ p (at_ u k)
     (bad (fun a => a.toNat % wdBytes w ≠ 0) → ∃ t, exec i s = .next t ∧ TookException s t u 0x34 0 1 ∧ t.accs = s.accs) ∧
     (¬bad (fun a => a.toNat % wdBytes w ≠ 0) → bad (fun a => ¬IsCanonical a) →
       ∃ t, exec i s = .next t ∧ TookException s t u 0x70 0 1 ∧ t.accs = s.accs))

/-- A load of a thread, at .ln or .tm, whose request span its L1 holds: the register is to take the sign-extended bytes of the
line 8 cycles on, and neither memory nor a cache changes (13 R265, R288, Table 13-2; 21 R444). The hypotheses single out the
one access. A store of a thread into words that its L1 owns is performed there: the line holds the bytes of the register
where it held others, those words are dirty, every other byte of it and all of memory stand (13 R266, R270, Table 13-2).
That a hit looks at what its line recorded at its fill, and not at the D bit again, is the model's reading (log 16). -/
def Obligations.LoadsAndStoresInTheL1TouchExactlyTheirBytes : Prop :=
  (∀ (h : Hdr) (rt : ReqType) (sc : Scope) (span : BitVec 5) (w : Wd) (d a : Xr) (off : BitVec 18) (s : State) (u : HwUnit) (l : L1Line),
     let ea := (u.lane 0).addr a off
     let m := spanBits ea (spanLen span w)
     Ready (.ld h rt sc span w d a off) s u 1 → u.team = false → u.n = 1 → u.w ≤ 1 → s.accs = [] → s.outw = [] →
     (sc = .ln ∨ sc = .tm) → Fits ea (wdBytes w) (spanLen span w) →
     s.l1At (32 * u.cluster + u.pipe) u.asid (ea.toNat % 2 ^ 57 / 128) = some l → l.poison = 0 → l.perm.getLsbD 1 = true →
     (u.super = true ∨ l.perm.getLsbD 4 = true) → (rt = .si ∨ rt = .wt ∨ rt = .ow ∧ m &&& ~~~l.owned = 0) → m &&& ~~~l.valid = 0 →
     ∃ t o v, exec (.ld h rt sc span w d a off) s = .next t ∧ t.outw = [o] ∧ o.unit = u.id ∧ o.writes = [.x 0 d v] ∧ o.faults = [] ∧
       t.future = s.future ++ [(s.now + 8, .wordComplete o.id)] ∧ t.mem = s.mem ∧ t.l1 = s.l1 ∧ t.l2 = s.l2 ∧ t.accs = [] ∧
       v = (v.setWidth w.bits).signExtend 64 ∧ ∀ k, k < wdBytes w → v.extractLsb' (8 * k) 8 = l.byteAt (ea.toNat % 128 + k)) ∧
  (∀ (h : Hdr) (rt : ReqType) (sc : Scope) (span : BitVec 5) (w : Wd) (b a : Xr) (off : BitVec 18) (s : State) (u : HwUnit) (l : L1Line),
     let ea := (u.lane 0).addr a off
     let m := spanBits ea (max 1 (wdBytes w / 4))
     Ready (.st h rt sc span w b a off) s u 1 → rt ≠ .uc → Fits ea (wdBytes w) (spanLen span w) → OwnsLine s u ea m l →
     ∃ t k, exec (.st h rt sc span w b a off) s = .next t ∧ t.lineFor u ea = some k ∧
       k.With l (ea.toNat % 128) (wdBytes w) ((u.lane 0).X b).toNat ∧ k.dirty = l.dirty ||| m ∧ k.owned = l.owned ∧ t.mem = s.mem ∧
       t.l2 = s.l2 ∧ t.accs = [] ∧ t.l1.length = s.l1.length ∧ ∀ x ∈ s.l1, x.same l = false → x ∈ t.l1)

/-- An atomic, LDLK, or a barrier word but STCK and BARWAIT, under .ow on words that its L1 owns: the step is made on the line
at once, its bytes become what the step leaves, and the word is to write what the step answers; a step that faults changes
nothing and the fault is reported as the word completes (13 R289, R292; 17 R365, R366). -/
def Obligations.StepsOnOwnedWordsAreMadeInTheL1 : Prop :=
  ∀ (i : Instr) (q : MemReq) (s : State) (u : HwUnit) (l : L1Line), memoryReq i = some q → Ready i s u 1 →
    let a := q.acc u s.ids 0
    let ea := q.ea (u.lane 0)
    let r := a.step (datumOf l.words (ea.toNat % 128) a.n)
    a.kind.atomic = true → a.kind ≠ .cond → a.rt = .ow → q.fits (u.lane 0) → OwnsLine s u ea a.mask l →
    ∃ t o k, exec i s = .next t ∧ t.outw = [o] ∧ o.id = s.ids ∧ o.due = true ∧ t.lineFor u ea = some k ∧ t.mem = s.mem ∧ t.l2 = s.l2 ∧ t.accs = [] ∧
      (r.fault = 0 → o.faults = [] ∧ o.writes = (a.dst.map (fun w => fillWrite w r.res)).toList ∧
        (∀ v, r.new = some v → k.With l (ea.toNat % 128) a.n v) ∧ (r.new = none → k.With l (ea.toNat % 128) 0 0)) ∧
      (r.fault ≠ 0 → o.faults.map (fun f => (f.cause, f.lane)) = [(r.fault, 0)] ∧ o.writes = [] ∧ k.With l (ea.toNat % 128) 0 0)

/-- What a step computes: an atomic's new datum and its sign-extended old one; a barrier's arrival, expectation and decrement,
after which the phase completes exactly where remain and pending are both 0, and which wrap modulo 2^48 (13 R289; 17 R364,
R366). -/
def Obligations.StepsComputeTheirNewDatum : Prop :=
  (∀ (a : Acc) (op : AmoOp) (w : Wd) (old b c : BitVec w.bits), a.kind = .amo op → a.n = wdBytes w → a.arg = b.toNat → a.cmp = c.toNat →
    a.step old.toNat = ⟨some (amoBits op old b c).toNat, (old.signExtend 64).toNat, 0⟩) ∧
  (∀ (a : Acc) (ph rm pd ct : Nat), ph < 2 → rm < 2 ^ 15 → pd < 2 ^ 48 → ct < 2 ^ 15 →
    let o := barrierObj ph rm pd ct
    let x := a.arg % 2 ^ 48
    let bit := fun (p : Prop) [Decidable p] => if p then 1 else 0
    (a.kind = .bar .arr → rm = 0 → a.step o = ⟨none, 0, 0x85⟩) ∧
    (a.kind = .bar .arr → rm ≠ 0 → a.step o =
      ⟨some (afterStep ph (rm - 1) ((pd + x) % 2 ^ 48) ct), ph + 2 * bit (rm = 1 ∧ (pd + x) % 2 ^ 48 = 0), 0⟩) ∧
    (a.kind = .bar .exp → a.step o = ⟨some (afterStep ph rm ((pd + x) % 2 ^ 48) ct), 2 * bit (rm = 0 ∧ (pd + x) % 2 ^ 48 = 0), 0⟩) ∧
    (a.kind = .bar .dec → a.step o =
      ⟨some (afterStep ph rm ((pd + (2 ^ 48 - x)) % 2 ^ 48) ct), 2 * bit (rm = 0 ∧ (pd + (2 ^ 48 - x)) % 2 ^ 48 = 0), 0⟩) ∧
    (a.kind = .bar .wait ∨ a.kind = .bar .test → a.step o = ⟨none, bit (ph ≠ a.arg % 2), 0⟩) ∧
    (a.kind = .bar .init → a.arg < 2 ^ 15 → a.step o = ⟨some (barrierObj 0 a.arg 0 a.arg), 0, 0⟩))

/-- LDLK under .ow holds its reservation in the owning L1; STCK stores, and says so, exactly where its datum lies within a
reservation that its thread holds, and either way the reservation is gone (13 R292, R293). BARWAIT, where every executing lane's
address fits: once every such lane is done it issues; else it blocks, and each lane not yet done tests the object (17 R366,
R367). -/
def Obligations.ReservationsAndBarrierWaitsHold : Prop :=
  (∀ (h : Hdr) (sc : Scope) (span : BitVec 5) (w : Wd) (d a : Xr) (off : BitVec 18) (s : State) (u : HwUnit) (l : L1Line),
    let ea := (u.lane 0).addr a off
    Ready (.ldlk h .ow sc span w d a off) s u 1 → Fits ea (wdBytes w) (spanLen span w) → OwnsLine s u ea (spanBits ea (spanLen span w)) l → u.lanes.length = 1 →
    ∃ t v r, exec (.ldlk h .ow sc span w d a off) s = .next t ∧ t.unit? u.id = some v ∧ (v.lane 0).resv = some r ∧ r.pf = l.pf ∧
      r.mask = spanBits ea (spanLen span w) ∧ r.place = .l1 (32 * u.cluster + u.pipe) ∧ r.atC = s.now ∧
      (s.now + 1024, .reservationTimeout u.id 0 r.id) ∈ t.future) ∧
  (∀ (h : Hdr) (sc : Scope) (w : Wd) (pd : Pr) (b a : Xr) (off : BitVec 18) (s : State) (u : HwUnit) (l : L1Line),
    let ea := (u.lane 0).addr a off
    let m := spanBits ea (wdBytes w / 4)
    let i := Instr.stck h .ow sc w pd b a off
    Ready i s u 1 → Fits ea (wdBytes w) (wdBytes w / 4) → OwnsLine s u ea m l → u.lanes.length = 1 →
    ∃ t o v k, exec i s = .next t ∧ t.outw = [o] ∧ t.unit? u.id = some v ∧ (v.lane 0).resv = none ∧ t.lineFor u ea = some k ∧ t.mem = s.mem ∧
      ((∃ r, (u.lane 0).resv = some r ∧ r.pf = l.pf ∧ m &&& ~~~r.mask = 0) → o.writes = [.p 0 pd true] ∧
        k.With l (ea.toNat % 128) (wdBytes w) ((u.lane 0).X b).toNat) ∧
      ((∀ r, (u.lane 0).resv = some r → r.pf ≠ l.pf ∨ m &&& ~~~r.mask ≠ 0) → o.writes = [.p 0 pd false] ∧ k.With l (ea.toNat % 128) 0 0)) ∧
  (∀ (h : Hdr) (rt : ReqType) (sc : Scope) (a b : Xr) (off : BitVec 18) (s : State) (u : HwUnit) (e : LaneSet),
     let i := Instr.barwait h rt sc a b off
     Ready i s u e → e ≠ 0 → (∀ n, e.getLsbD n = true → Fits ((u.lane n).addr a off) 16 4) →
     (e &&& ~~~u.done = 0 → ∃ t, exec i s = .next t ∧ Issued i e .seq s t u { u with done := 0 }) ∧
     (e &&& ~~~u.done ≠ 0 → u.wait = none → ∃ t, Blocked s t u .barrier ∧ exec i s = .next (t.addAccs ((lanesOf (e &&& ~~~u.done) u.n).map (fun n =>
       { u.access n (.bar .wait) rt sc (.unit u.id) ((u.lane n).addr a off).toNat 16 (spanBits ((u.lane n).addr a off) 4) with
         arg := ((u.lane n).X b).toNat })))))

/-- PINW with an aligned base and length makes its stope exactly where the context's quota, the die's list and every slice have
room and no stope of the address space overlaps it; UNPINW removes the stope at its base; both say whether they did (13 R296). -/
def Obligations.StopesAreMadeWhereTheyFitAndRemoved : Prop :=
  (∀ (h : Hdr) (pd : Pr) (a b : Xr) (off : BitVec 18) (s : State) (u : HwUnit) (e : LaneSet),
    let i := Instr.pinw h pd a b off
    let top := u.lane (topLane e u.n)
    let ea := top.addr a off
    let len := (top.X b).toNat
    let new : Stope := ⟨u.cluster / Config.clustersPerDie, u.asid, u.ctx, ea.toNat % 2 ^ 57, len / 128, 255, false⟩
    let mine := s.stopes.filter (fun x => x.die == new.die)
    let r := s.ctxDw u.ctx 1
    let ok := r.2.pinned? u.ctx + new.frames ≤ (r.1.extractLsb' 0 32).toNat ∧ mine.length < 256 ∧
      (∀ k, k < 80 → pinsIn (new :: s.stopes) new.die k ≤ 19660) ∧
      ∀ x ∈ mine, x.asid = u.asid → x.base + x.frames * 128 ≤ new.base ∨ new.base + len ≤ x.base
    Ready i s u e → e ≠ 0 → ea.toNat % 128 = 0 → len % 128 = 0 → len ≤ 2 ^ 26 → IsCanonical ea → r.2.stopes = s.stopes →
    r.2.unit? u.id = some u →
    (ok → ∃ t o, exec i s = .next t ∧ (let x : State := { r.2 with stopes := s.stopes ++ [new] }
      Later i e (x.spoilLocks u e) t u (x.unlock u e) o) ∧ o.writes = toEachP u e pd true) ∧
    (¬ok → ∃ t o, exec i s = .next t ∧ Later i e (r.2.spoilLocks u e) t u (r.2.unlock u e) o ∧ o.writes = toEachP u e pd false)) ∧
  (∀ (h : Hdr) (pd : Pr) (a : Xr) (off : BitVec 18) (s : State) (u : HwUnit) (e : LaneSet),
    let i := Instr.unpinw h pd a off
    let ea := (u.lane (topLane e u.n)).addr a off
    let hit := fun (x : Stope) => decide (x.die = u.cluster / Config.clustersPerDie ∧ x.asid = u.asid ∧ x.base = ea.toNat % 2 ^ 57)
    Ready i s u e → e ≠ 0 → IsCanonical ea →
    ∃ t o, exec i s = .next t ∧ (let x : State := { s with stopes := s.stopes.filter (fun x => !hit x) }
      Later i e (x.spoilLocks u e) t u (x.unlock u e) o) ∧ o.writes = toEachP u e pd (s.stopes.any hit))

/-! ### Scratchpad words -/

/-- A scratchpad word of a thread whose bytes it may use, whose address is aligned and whose bits are as it waits for them: its
bytes and its full/empty bits are as 10 Table 10-3 leaves them, all others stand, and its register is to take the old datum (10
R190 to R192, R202, R209, R210). -/
def Obligations.ScratchpadWordsActOnTheirBytesAndBits : Prop :=
  ∀ (i : Instr) (q : SpadReq) (s : State) (u : HwUnit), spadReq i = some q → Ready i s u 1 → AloneAtBank s u →
    let c := s.cluster u.cluster
    let l := u.lane 0
    let ea := (q.ea l).toNat
    let n := q.n l
    (n = 0 ∨ ea < 0x200000) → (∀ k, k < n → s.mayUse u (ea + k)) → ea % q.align = 0 → n ≤ 131072 →
    (∀ b, q.wait = some b → ∀ w, touches ea n w → c.full.contains w = b) →
    ∃ t o w, exec i s = .next t ∧ t.outw = s.outw ++ [o] ∧ o.unit = u.id ∧ o.faults = [] ∧
      o.writes = (q.out.map (fun r => RegWrite.x 0 r.1 (r.2 (memRead c.spad ea n)))).toList ∧
      (∃ m, s.now < m ∧ (m, .wordComplete o.id) ∈ t.future) ∧
      (∀ a, memGet (t.cluster u.cluster).spad a =
        if ea ≤ a ∧ a < ea + n then ((q.new l (memRead c.spad ea n)).map (fun v => BitVec.ofNat 8 (v / 256 ^ (a - ea)))).getD (memGet c.spad a)
        else memGet c.spad a) ∧
      (∀ x, touches ea n x → (t.cluster u.cluster).full.contains x = q.leave.getD (c.full.contains x)) ∧
      (∀ x, ¬touches ea n x → (t.cluster u.cluster).full.contains x = c.full.contains x) ∧
      (∀ k, k ≠ u.cluster → t.cluster k = s.cluster k) ∧ t.mem = s.mem ∧ t.unit? u.id = some w ∧ w.lanes = u.lanes ∧ w.v = u.v ∧
      (w.pc, w.widx) = u.place .seq ∧ ∀ k, k ≠ u.id → t.unit? k = s.unit? k

/-- The checks of a scratchpad word, first to last: bytes that the unit may not use, 0x38; an address that is not aligned, 0x39.
Of a run of bits: alignment 0x39, a count above 32,768 0x3B, then 0x38 (10 R191, R192, R209). A scratchpad word whose bits
are not as it waits for them blocks its thread, which is registered as their waiter and retries at the latest when
sr.waitlim.interval × 64 cycles have passed; nothing at the bank changes (10 R204). When a waiter tries again is the model's
reading (log 26). -/
def Obligations.ScratchpadWordsCheckAddressesAndWaitForBits : Prop :=
  (∀ (i : Instr) (q : SpadReq) (s : State) (u : HwUnit), spadReq i = some q → Ready i s u 1 → AloneAtBank s u → u.status = .running → u.widx ≠ 0 →
     let l := u.lane 0
     let ea := (q.ea l).toNat
     let run := (∃ h a b, i = .feopf h a b) ∨ (∃ h a b, i = .feope h a b)
     let bad := 0x200000 ≤ ea ∨ ∃ k, k < q.n l ∧ ¬s.mayUse u (ea + k)
     let took := fun (c : Nat) => ∃ t, exec i s = .next t ∧ TookException s t u c 0 1
     (¬run → bad → took 0x38) ∧ (¬run → ¬bad → ea % q.align ≠ 0 → took 0x39) ∧ (run → ea % 4 ≠ 0 → took 0x39) ∧
     (run → ea % 4 = 0 → 131072 < q.n l → took 0x3B) ∧
     (run → ea % 4 = 0 → 0 < q.n l → q.n l ≤ 131072 → (0x200000 ≤ ea ∨ ∃ k, 4 * k < q.n l ∧ ¬s.mayUse u (ea + 4 * k)) → took 0x38)) ∧
  (∀ (i : Instr) (q : SpadReq) (b : Bool) (s : State) (u : HwUnit), spadReq i = some q → q.wait = some b → Ready i s u 1 → AloneAtBank s u →
     u.wait = none →
     let c := s.cluster u.cluster
     let l := u.lane 0
     let ea := (q.ea l).toNat
     ea < 0x200000 → (∀ k, k < q.n l → s.mayUse u (ea + k)) → ea % q.align = 0 → (∃ w, touches ea (q.n l) w ∧ c.full.contains w ≠ b) →
     ∃ t id, exec i s = .next t ∧ Blocked s t u .fe ∧ (let f : FeWait := ⟨u.id, id, false, 0, ea, q.n l, 0, s.now, false, false⟩
       f ∈ (t.cluster u.cluster).feWaits ∧ FeTests u f) ∧ (t.cluster u.cluster).spad = c.spad ∧ (t.cluster u.cluster).full = c.full)

/-- SALLOC takes the lowest run of free units that one allowed bank holds, which then reads 0 and is empty, and answers its
address; where there is none it answers the longest free run; a request that is out of range takes 0x3B (10 R194). SFREE of an
allocation of the unit drains it, and completes later; of anything else it takes 0x3B. SFMT reads a bank's format register, and
writes it as the word completes; a value that is not legal, or a bank in which another ASID has memory, takes 0x3C (10 R195,
R198, R199). -/
def Obligations.ScratchpadIsAllocatedFreedAndFormatted : Prop :=
  (∀ (h : Hdr) (d : Xr) (pc : Pr) (a : Xr) (s : State) (u : HwUnit) (e : LaneSet),
     let i := Instr.salloc h d pc a
     let req := (u.lane (topLane e u.n)).X a
     let size := (req.extractLsb' 0 18).toNat
     let n := (size + 4095) / 4096
     let c := s.cluster u.cluster
     let legal := 0 < size ∧ size ≤ 131072 ∧ req.extractLsb' 18 14 = 0 ∧ req.extractLsb' 37 27 = 0
     Ready i s u e → e ≠ 0 → u.cluster < s.clusters.length →
     (legal → ∀ k, c.hasRun req n k → (∀ j, j < k → ¬c.hasRun req n j) →
       ∃ t o x, exec i s = .next t ∧ Later i e (s.modCluster u.cluster (fun _ => x)) t u u o ∧
         o.writes = toEachX u e d (BitVec.ofNat 64 (4096 * k)) ++ toEachP u e pc true ∧ x.allocs = c.allocs ++ [⟨4096 * k, n, true, u.id, u.asid⟩] ∧
         { x with allocs := c.allocs, spad := c.spad, full := c.full, spadBad := c.spadBad } = c ∧
         (∀ b, memGet x.spad b = if 4096 * k ≤ b ∧ b < 4096 * (k + n) then 0 else memGet c.spad b) ∧
         ∀ w, x.full.contains w = (c.full.contains w && !decide (1024 * k ≤ w ∧ w < 1024 * (k + n)))) ∧
     (legal → (∀ k, ¬c.hasRun req n k) → ∃ t o len, exec i s = .next t ∧ Later i e s t u u o ∧
       o.writes = toEachX u e d (BitVec.ofNat 64 len) ++ toEachP u e pc false ∧ (len ≠ 0 → ∃ k, c.hasRun req len k) ∧
       ∀ k, ¬c.hasRun req (len + 1) k) ∧
     (¬legal → u.team = false → u.status = .running → u.widx ≠ 0 → ∃ t, exec i s = .next t ∧ TookException s t u 0x3B 0 e)) ∧
  (∀ (h : Hdr) (a : Xr) (s : State) (u : HwUnit) (e : LaneSet),
    let i := Instr.sfree h a
    let v := (u.lane (topLane e u.n)).X a
    let mine := fun (x : Alloc) => x.live = true ∧ x.base = v.toNat ∧ (u.super = true ∨ x.owner = u.id)
    Ready i s u e → e ≠ 0 → u.cluster < s.clusters.length →
    ((∃ x ∈ (s.cluster u.cluster).allocs, mine x) → ∃ t o n, exec i s = .next t ∧ t.outw = s.outw ++ [o] ∧ o.unit = u.id ∧ o.due = false ∧
      (t.cluster u.cluster).allocs = (s.cluster u.cluster).allocs.map (fun x => if x.base = v.toNat then { x with live := false } else x) ∧
      (n, .sfreeComplete u.cluster v.toNat) ∈ t.future ∧ (t.cluster u.cluster).spad = (s.cluster u.cluster).spad ∧ t.mem = s.mem) ∧
    (¬(∃ x ∈ (s.cluster u.cluster).allocs, mine x) → u.team = false → u.status = .running → u.widx ≠ 0 →
      ∃ t, exec i s = .next t ∧ TookException s t u 0x3B 0 e)) ∧
  (∀ (h : Hdr) (bf : BitVec 4) (a : Xr) (s : State) (u : HwUnit) (e : LaneSet),
    let i := Instr.sfmtWrite h bf a
    let v := (u.lane (topLane e u.n)).X a
    let legal := (v.extractLsb' 0 4 = 0 ∨ 4 ≤ (v.extractLsb' 0 4).toNat ∧ (v.extractLsb' 0 4).toNat ≤ 9) ∧
      1 ≤ (v.extractLsb' 4 3).toNat ∧ (v.extractLsb' 4 3).toNat ≤ 4 ∧ v.extractLsb' 8 56 = 0
    let mine := ∀ x ∈ (s.cluster u.cluster).allocs, x.base / 131072 = bf.toNat → x.asid = u.asid
    Ready i s u e → e ≠ 0 →
    (legal → (u.super = true ∨ mine) → ∃ t o, exec i s = .next t ∧ InFlight i e s t u u o (s.now + 1) ∧ o.val = v ∧ o.writes = [] ∧ o.faults = []) ∧
    (¬(legal ∧ (u.super = true ∨ mine)) → u.team = false → u.status = .running → u.widx ≠ 0 →
      ∃ t, exec i s = .next t ∧ TookException s t u 0x3C 0 e)) ∧
  (∀ (h : Hdr) (d : Xr) (bf : BitVec 4) (s : State) (u : HwUnit) (e : LaneSet), Ready (.sfmtRead h d bf) s u e → e ≠ 0 →
    ∃ t o, exec (.sfmtRead h d bf) s = .next t ∧ Later (.sfmtRead h d bf) e s t u u o ∧
      o.writes = toEachX u e d ((s.cluster u.cluster).bf.toList.getD bf.toNat 0))

/-! ### Queue words and commands -/

/-- The queue words in their own effect: QBIND binds an unbound queue, QBIND.off unbinds one that is empty and idle, QPUSH adds
an entry at the end where there is room, QPOP takes the first entry and QPEEK reads it, QSTAT reports the queue, QDRAIN ends
once nothing of the queue is left to do, and QDRAIN.abort discards what has not been accepted (11 R213 to R220). Where a queue
word cannot act: a push to a full queue, a pop or peek of an empty one and a drain that is not over block the team, which tries
again after sr.waitlim.interval × 64 cycles; the .nb forms answer 0 at once; a wrong direction or an unbound queue takes 0x42, a
binding of a bound or unbinding of a busy queue 0x41 (11 R216 to R220). -/
def Obligations.QueueWordsActWaitOrFault : Prop :=
  (∀ (s : State) (u : HwUnit) (e : LaneSet) (h : Hdr) (q : Qr), e ≠ 0 →
     let r := u.qr q.toNat
     let into := fun (r' : QReg) => { u with q := u.q.set q.toNat r' q.isLt }
     let ok := fun (nb : Bool) (pd : Pr) => if nb then toEachP u e pd true else []
     (∀ port, Ready (.qbind h q port) s u e → r.bound = none →
       ∃ t o, exec (.qbind h q port) s = .next t ∧ Later (.qbind h q port) e s t u (into { r with bound := some port.toNat }) o ∧ o.writes = []) ∧
     (Ready (.qbindOff h q) s u e → r.ents = [] → r.resvd = 0 → r.infl = 0 → r.err = false →
       ∃ t o, exec (.qbindOff h q) s = .next t ∧ Later (.qbindOff h q) e s t u (into { r with bound := none }) o ∧ o.writes = []) ∧
     (∀ a nb pd, Ready (.qpush h q a nb pd) s u e → (∃ p, r.bound = some p ∧ p ≤ 3) → r.ents.length + r.resvd < 8 →
       ∃ t o, exec (.qpush h q a nb pd) s = .next t ∧
         Later (.qpush h q a nb pd) e s t u (into { r with ents := r.ents ++ [((u.lane (topLane e u.n)).X a, s.ids)] }) o ∧ o.writes = ok nb pd) ∧
     (∀ d nb pd x l, Ready (.qpop h d q nb pd) s u e → r.bound = some 0x10 → r.ents = x :: l → s.noDirtyL1 →
       ∃ t o, exec (.qpop h d q nb pd) s = .next t ∧ Popped (.qpop h d q nb pd) s t u o (into { r with ents := l }).q ∧
         o.writes = toEachX u e d x.1 ++ ok nb pd) ∧
     (∀ d nb pd x l, Ready (.qpeek h d q nb pd) s u e → r.bound = some 0x10 → r.ents = x :: l → s.noDirtyL1 →
       ∃ t o, exec (.qpeek h d q nb pd) s = .next t ∧ Popped (.qpeek h d q nb pd) s t u o u.q ∧ o.writes = toEachX u e d x.1 ++ ok nb pd) ∧
     (∀ d, Ready (.qstat h d q) s u e → r.ents.length + r.resvd ≤ 8 → r.infl < 256 → r.last < 16 →
       ∃ t o v, exec (.qstat h d q) s = .next t ∧ Later (.qstat h d q) e s t u u o ∧ o.writes = toEachX u e d v ∧
         (v.extractLsb' 0 8).toNat = r.ents.length ∧ (v.extractLsb' 8 8).toNat = 8 - r.ents.length - r.resvd ∧
         (v.extractLsb' 16 8).toNat = r.resvd ∧ (v.extractLsb' 24 8).toNat = r.infl ∧ (v.extractLsb' 32 4).toNat = r.last ∧
         v.extractLsb' 36 10 = 0 ∧ v.getLsbD 46 = r.err ∧ v.getLsbD 47 = r.bound.isSome ∧ v.extractLsb' 48 16 = BitVec.ofNat 16 (r.bound.getD 0)) ∧
     (Ready (.qdrain h q) s u e → r.bound.isSome = true → r.holds .drained = true → r.ents.length ≤ 8 →
       ∃ t o l, exec (.qdrain h q) s = .next t ∧ Later (.qdrain h q) e s t u (into { r with ents := l }) o ∧ o.writes = [] ∧
         (r.isCmd = false → l = r.ents) ∧ (r.isCmd = true → r.err = false → l = []) ∧
         (r.isCmd = true → ∃ m, r.ents = l ++ m ∧ WholeCommands l ∧ ∀ x n, m = x :: n → n.length < (x.1.extractLsb' 58 2).toNat)) ∧
     (Ready (.qdrainAbort h q) s u e → r.bound.isSome = true → r.holds .aborted = true →
       ∃ t o, exec (.qdrainAbort h q) s = .next t ∧ Later (.qdrainAbort h q) e s t u (into { r with ents := [], err := false }) o ∧ o.writes = [])) ∧
  (∀ (s : State) (u : HwUnit) (e : LaneSet) (h : Hdr) (q : Qr), e ≠ 0 →
     let r := u.qr q.toNat
     let waits := fun (i : Instr) (u' : HwUnit) => ∃ t, exec i s = .next t ∧ BlockedTesting s t u' .queue (.queueRetry u.id)
     let took := fun (i : Instr) (c : Nat) => ∃ t l, exec i s = .next t ∧ TookException s t u c l e
     (∀ a pd, Ready (.qpush h q a false pd) s u e → u.wait = none → (∃ p, r.bound = some p ∧ p ≤ 3) → 8 ≤ r.ents.length + r.resvd →
       waits (.qpush h q a false pd) u) ∧
     (∀ a pd, Ready (.qpush h q a true pd) s u e → (∃ p, r.bound = some p ∧ p ≤ 3) → 8 ≤ r.ents.length + r.resvd →
       ∃ t o, exec (.qpush h q a true pd) s = .next t ∧ Later (.qpush h q a true pd) e s t u u o ∧ o.writes = toEachP u e pd false) ∧
     (∀ d pd, Ready (.qpop h d q false pd) s u e → u.wait = none → r.bound = some 0x10 → r.ents = [] → waits (.qpop h d q false pd) u) ∧
     (∀ d pd, Ready (.qpop h d q true pd) s u e → r.bound = some 0x10 → r.ents = [] →
       ∃ t o, exec (.qpop h d q true pd) s = .next t ∧ Later (.qpop h d q true pd) e s t u u o ∧ o.writes = toEachP u e pd false) ∧
     (∀ d pd, Ready (.qpeek h d q false pd) s u e → u.wait = none → r.bound = some 0x10 → r.ents = [] → waits (.qpeek h d q false pd) u) ∧
     (∀ d pd, Ready (.qpeek h d q true pd) s u e → r.bound = some 0x10 → r.ents = [] →
       ∃ t o, exec (.qpeek h d q true pd) s = .next t ∧ Later (.qpeek h d q true pd) e s t u u o ∧ o.writes = toEachP u e pd false) ∧
     (Ready (.qdrain h q) s u e → u.wait = none → r.bound.isSome = true → r.holds .drained = false → waits (.qdrain h q) u) ∧
     (Ready (.qdrainAbort h q) s u e → u.wait = none → r.bound.isSome = true → r.holds .aborted = false →
       waits (.qdrainAbort h q) { u with q := u.q.set q.toNat (if r.isCmd then { r with ents := [] } else r) q.isLt }) ∧
     (Whole s u → ∀ port, Ready (.qbind h q port) s u e → r.bound.isSome = true → took (.qbind h q port) 0x41) ∧
     (Whole s u → Ready (.qbindOff h q) s u e → (r.ents ≠ [] ∨ r.resvd ≠ 0 ∨ r.infl ≠ 0 ∨ r.err = true) → took (.qbindOff h q) 0x41) ∧
     (Whole s u → ∀ a nb pd, Ready (.qpush h q a nb pd) s u e → (∀ p, r.bound = some p → 3 < p) → took (.qpush h q a nb pd) 0x42) ∧
     (Whole s u → ∀ d nb pd, Ready (.qpop h d q nb pd) s u e → r.bound ≠ some 0x10 → took (.qpop h d q nb pd) 0x42) ∧
     (Whole s u → ∀ d nb pd, Ready (.qpeek h d q nb pd) s u e → r.bound ≠ some 0x10 → took (.qpeek h d q nb pd) 0x42) ∧
     (Whole s u → Ready (.qdrain h q) s u e → r.bound = none → took (.qdrain h q) 0x42) ∧
     (Whole s u → Ready (.qdrainAbort h q) s u e → r.bound = none → took (.qdrainAbort h q) 0x42))

/-- The channels: one accepts the command at the head of the queue whose turn it is, behind those it has accepted and not
ended; the command leaves the queue for it. A FILL, and the other commands that move bytes, once they have read their sources
(COPY, COPY2D, GATHER, SCATTER, CONVERT, TILELD, TILEST), land exactly their bytes in a scratchpad; a FLAGSET stores or adds its
flag there; BARDEC binds its barrier. A command that has landed its bytes, FLAGSET and BARDEC end: its queue counts one less in
flight, the entry reserved for it takes its completion word, and the slot of a TILELD has its tag (11 R220, R222, R226 to R232,
R236, Table 11-7). That a channel accepts a command while it works on an earlier one, and that a command goes by these stages,
is the model's reading (log 27). -/
def Obligations.ChannelsAcceptLandAndEndCommands : Prop :=
  (∀ (s : State) (c ch q : Nat) (x : Chan) (u : HwUnit) (ws : List (Word × Nat)) (r : List (HwUnit × Nat × List (Word × Nat))),
    let hd := (ws.headD (0, 0)).1
    s.accs = [] → s.noDirtyL1 → c < s.clusters.length → (s.cluster c).chans[ch]? = some x → s.offersOf c ch = (u, q, ws) :: r →
    s.unit? u.id = some u → q < 16 → (hd.extractLsb' 60 4).toNat ≤ 9 → (hd.getLsbD 54 = true → (u.qr (hd.extractLsb' 50 4).toNat).isRes = true) →
    ∃ t k w, s.runs (.channelAccept c ch) t ∧ (t.cluster c).chans[ch]? = some ⟨some (u.pipe, u.slot, q), x.cmds ++ [k]⟩ ∧ k.words = ws.map (·.1) ∧
      k.team = u.id ∧ k.q = q ∧ k.stage = 0 ∧ k.resv = hd.getLsbD 54 ∧ (x.cmds = [] → (s.now, cmdEv k.code c k.id) ∈ t.future) ∧ t.unit? u.id = some w ∧
      (w.qr q).ents = (u.qr q).ents.drop ws.length ∧ (w.qr q).infl = (u.qr q).infl + 1) ∧
  (∀ (s : State) (c : Nat) (k : Cmd) (u : HwUnit), InHand s c k u → k.code = 4 → k.stage = 2 → k.status = 0 → k.pois = [] → k.ds = 1 →
    k.team.cluster < s.clusters.length → k.team.cluster < 160 → (k.word 1).toNat < 2 ^ 21 →
    let a := (k.word 1).toNat
    let n := k.fld 0 32
    let z := if k.head.getLsbD 39 then 8 else 4
    (∀ i, i < n → ∃ x ∈ k.areas, x.1 = k.team.cluster ∧ x.2.1 ≤ a + i ∧ a + i < x.2.1 + 4096 * x.2.2) →
    ∃ t k', s.runs (.fill c k.id) t ∧ (t.cluster c).cmd? k.id = some k' ∧ k'.stage = 3 ∧ k'.landed = k.landed + n ∧ (s.now, .fill c k.id) ∈ t.future ∧
      ∀ b, memGet (t.cluster k.team.cluster).spad b =
        if a ≤ b ∧ b < a + n then BitVec.ofNat 8 ((k.word 2).toNat / 2 ^ (8 * ((b - a) % z))) else memGet (s.cluster k.team.cluster).spad b) ∧
  (∀ (s : State) (c : Nat) (k : Cmd) (u : HwUnit) (ms : List Move), InHand s c k u → k.code ≤ 7 → k.code ≠ 4 → k.stage = 2 → k.status = 0 → k.pois = [] →
    k.moves k.idx = some ms → k.team.cluster < s.clusters.length → k.team.cluster < 160 →
    let l := ms.flatMap (fun m => m.bytes k)
    l ≠ [] → (∀ x ∈ l, keyHi x.1 = k.team.cluster + 1 ∧ k.mayUse x.1 = true) →
    ∃ t k', s.runs (cmdEv k.code c k.id) t ∧ (t.cluster c).cmd? k.id = some k' ∧ k'.stage = 3 ∧ k'.landed = k.landed + l.length ∧
      (s.now, cmdEv k.code c k.id) ∈ t.future ∧ t.mem = s.mem ∧
      ∀ b, memGet (t.cluster k.team.cluster).spad b =
        ((l.reverse.find? (fun x => keyLo x.1 == b)).map (fun x => x.2.1)).getD (memGet (s.cluster k.team.cluster).spad b)) ∧
  (∀ (s : State) (c : Nat) (k : Cmd) (u : HwUnit) (d : Loc), InHand s c k u → k.code = 8 → k.stage = 0 → k.status = 0 → k.headOk = true → k.argsOk = true →
    k.feOk [] = true → k.bd = false → k.pois = [] → (s.cluster c).chans.flatMap (·.cmds) = [k] → k.loc 1 true = some d → d.space = 1 →
    d.cl < s.clusters.length → d.cl < 160 →
    let n := if k.head.getLsbD 38 then 8 else 4
    let v := (k.word 2).toNat % 2 ^ (8 * n)
    let new := if k.fld 36 2 = 1 then memRead (s.cluster d.cl).spad d.base n + v else v
    (∀ i, i < n → k.mayUse (d.key i) = true) →
    ∃ t, s.runs (.flagset c k.id) t ∧ (t.cluster c).cmd? k.id = none ∧ t.mem = s.mem ∧
      ∀ b, memGet (t.cluster d.cl).spad b =
        if d.base ≤ b ∧ b < d.base + n then BitVec.ofNat 8 (new / 256 ^ (b - d.base)) else memGet (s.cluster d.cl).spad b) ∧
  (∀ (s : State) (c : Nat) (k : Cmd) (u : HwUnit), InHand s c k u → k.code = 9 → k.stage = 0 → k.status = 0 → k.headOk = true → k.argsOk = true →
    k.feOk [] = true → k.bd = false → k.pois = [] → k.head.getLsbD 39 = true → k.head.getLsbD 38 = false →
    ∃ t w, s.runs (.bardec c k.id) t ∧ (t.cluster c).cmd? k.id = none ∧ t.mem = s.mem ∧ t.unit? k.team = some w ∧ (w.qr k.q).bar = some (k.word 1)) ∧
  (∀ (s : State) (c : Nat) (k : Cmd) (u : HwUnit), InHand s c k u → k.code ≤ 9 → (if k.code ≤ 7 then k.stage = 3 else k.stage ≠ 0) →
    k.status = 0 → k.pois = [] → k.bd = false →
    ∃ t w, s.runs (cmdEv k.code c k.id) t ∧ (t.cluster c).cmd? k.id = none ∧ t.unit? k.team = some w ∧
      (w.qr k.q).infl = (u.qr k.q).infl - 1 ∧ (w.qr k.q).err = (u.qr k.q).err ∧
      (k.code = 6 ∨ k.code = 7 → ∀ y ∈ (t.cluster c).tiles, y.slot = k.slot → y.owner = k.team → y.busy = false ∧
        (k.code = 6 → y.tagOk = true ∧ y.tag = k.fld 16 16)) ∧
      (k.resv = true → (w.qr k.rq).resvd = (u.qr k.rq).resvd - 1 ∧ ∃ v, (w.qr k.rq).ents = (u.qr k.rq).ents ++ [(v, rank k.sc)] ∧
        v.extractLsb' 60 4 = 0 ∧ (v.extractLsb' 56 4).toNat = k.code ∧ (v.extractLsb' 54 2).toNat = k.ch % 4 ∧
        (v.extractLsb' 0 40).toNat = (if 8 ≤ k.code then 0 else k.landed % 2 ^ 40)))

/-! ### Matrix words -/

/-- The words of the engine enter its queue: the slots that they name are in use once more, the one they write loses its tag,
and no operand changes yet. A slot that the team does not hold takes 0x4A; a busy slot or a full queue blocks (12 R244, R247 to
R249, R251 to R254). -/
def Obligations.MatrixWordsEnterTheirEngine : Prop :=
  ∀ (i : Instr) (s : State) (u : HwUnit) (e : LaneSet), isEngineWord i = true → Ready i s u e → e ≠ 0 →
    (SlotsReady i s u e → ∃ t o, exec i s = .next t ∧ Queued i s t u o ∧ t.outw = s.outw ++ [o] ∧
      ∀ n, t.tile? u.cluster n = (s.tile? u.cluster n).map (fun x =>
        { x with inUse := x.inUse + (if n ∈ matrixSlots u i then 1 else 0), tagOk := x.tagOk && losesTag i != some n })) ∧
    ((∃ n ∈ matrixSlots u i, ∀ x, s.tile? u.cluster n = some x → x.owner ≠ u.id) → tagRegOk u i e = true → u.team = true →
      u.status = .running → u.widx ≠ 0 → ∃ t l, exec i s = .next t ∧ TookException s t u 0x4A l e) ∧
    ((∀ n ∈ matrixSlots u i, s.holds u n = true) → matrixClash u i = false → tagRegOk u i e = true → s.engineClear u i = false → u.wait = none →
      ∃ t, exec i s = .next t ∧ Blocked s t u .engine)

/-- TCLAIM takes every slot of its mask or none; TREL gives up slots that nothing uses, as it completes; where one of them is in
use it issues, and holds its team back until it completes; TGANG sets sr.gang to a legal list with the issuer's place in it,
or clears it (12 R241, R242, R256). -/
def Obligations.SlotsAreClaimedReleasedAndGanged : Prop :=
  (∀ (h : Hdr) (pd : Pr) (c : Xr) (s : State) (u : HwUnit) (e : LaneSet),
    let i := Instr.tclaim h pd c
    let m := (u.lane (topLane e u.n)).X c
    let free := fun (n : Nat) => s.tile? u.cluster n = none
    let ok := ∀ n, n < 64 → m.getLsbD n = true → free n ∨ s.holds u n = true
    Ready i s u e → e ≠ 0 → (m.extractLsb' 60 4 = 0 ∨ u.slot = 7) → u.cluster < s.clusters.length →
    (ok → ∃ t o x, exec i s = .next t ∧ Later i e (s.modCluster u.cluster (fun _ => x)) t u u o ∧ o.writes = toEachP u e pd true ∧
      { x with tiles := (s.cluster u.cluster).tiles } = s.cluster u.cluster ∧
      (∀ y ∈ (s.cluster u.cluster).tiles, y ∈ x.tiles) ∧ ∀ n, n < 64 → m.getLsbD n = true → t.holds u n = true) ∧
    (¬ok → ∃ t o, exec i s = .next t ∧ Later i e s t u u o ∧ o.writes = toEachP u e pd false)) ∧
  (∀ (h : Hdr) (c : Xr) (s : State) (u : HwUnit) (e : LaneSet),
    let i := Instr.trel h c
    let m := (u.lane (topLane e u.n)).X c
    let idle := ∀ x ∈ (s.cluster u.cluster).tiles, m.getLsbD x.slot = true → x.owner = u.id → x.busy = false ∧ x.inUse = 0
    Ready i s u e → e ≠ 0 → (∀ n, n < 64 → m.getLsbD n = true → s.holds u n = true) →
    (idle → ∃ t o, exec i s = .next t ∧ InFlight i e s t u u o (s.now + 1) ∧ o.val = m ∧ o.writes = [] ∧ o.faults = []) ∧
    (¬idle → ∃ t o w, exec i s = .next t ∧ t.outw = s.outw ++ [o] ∧ o.unit = u.id ∧ o.instr = i ∧ o.due = false ∧ o.val = m ∧
      t.unit? u.id = some w ∧ w.wait.map (fun x => (x.kind, x.id)) = some (.other, o.id) ∧ w.lanes = u.lanes ∧ (w.pc, w.widx) = u.place .seq ∧
      t.clusters = s.clusters)) ∧
  (∀ (h : Hdr) (c : Xr) (s : State) (u : HwUnit) (e : LaneSet) (me : Nat),
    let i := Instr.tgang h c
    let v := (u.lane (topLane e u.n)).X c
    let n := (v.extractLsb' 57 3).toNat
    Ready i s u e → e ≠ 0 →
    (v = 0 → ∃ t, exec i s = .next t ∧ Issued i e .seq s t u { u with gang := 0 }) ∧
    (2 ≤ n → n ≤ 6 → v.extractLsb' 60 4 = 0 → v.extractLsb' 54 3 = 0 → (∀ k, n ≤ k → k < 6 → gangEntry v k = 0) →
      (∀ k, k < n → gangEntry v k / 8 < 40) → (∀ k j, k < j → j < n → gangEntry v k ≠ gangEntry v j) → me < n → gangEntry v me = u.gangId →
      ∃ t, exec i s = .next t ∧ Issued i e .seq s t u { u with gang := v ||| BitVec.ofNat 64 (me * 2 ^ 54) }))

/-- TJOIN and TJOINS: an arrival that is not the last of its gang waits at the latch; at the last one every member's word issues
and goes to its engine, with the leader's A (12 R257). That slots are in use from the arrival on, and when the leader's A is
read, is the model's reading (log 28). -/
def Obligations.GangsIssueWhenTheLastMemberArrives : Prop :=
  ∀ (i : Instr) (s : State) (u : HwUnit) (e : LaneSet) (l : Latch),
    ((∃ h fa fb td ta tb ha hb sat, i = .tjoin h fa fb td ta tb ha hb sat) ∨ (∃ h fa fb td ta tb ha hb c, i = .tjoins h fa fb td ta tb ha hb c)) →
    Ready i s u e → e ≠ 0 → SlotsReady i s u e → u.wait = none → u.waitingWord = some i → gangN u.gang ≠ 0 →
    (s.latches.filter (fun x => x.die == u.id.cluster / Config.clustersPerDie)).find? (fun x =>
      x.list_ == u.gang.toNat % 2 ^ 54 && x.n == gangN u.gang) = some l → (∀ x ∈ s.latches, x.die = l.die → x.id = l.id → x = l) → l.key = joinKey i →
    (∀ q ∈ l.arrived, (q.1.cluster ≠ u.cluster ∨ q.1.pipe ≠ u.pipe) ∧ q.1 ≠ u.id ∧ ∃ v, s.unit? q.1 = some v ∧ v.waitingWord.isSome = true ∧
      (v.cluster ≠ u.cluster ∨ v.pipe ≠ u.pipe)) →
    (∀ x ∈ s.latches, ∀ q ∈ x.arrived, ∃ v y, s.unit? q.1 = some v ∧ v.wait = some y ∧ y.id = q.2) →
    (l.arrived.length + 1 < l.n → ∃ t, exec i s = .next t ∧ Blocked s t u .engine ∧
      ∃ x ∈ t.latches, x.id = l.id ∧ x.arrived.map (·.1) = l.arrived.map (·.1) ++ [u.id]) ∧
    (l.arrived.length + 1 = l.n → gangMe u.gang = 0 → (∀ q ∈ l.arrived, ∀ v, s.unit? q.1 = some v → gangMe v.gang ≠ 0) →
      ∃ t o, exec i s = .next t ∧ Queued i s t u o ∧ (∀ x ∈ t.latches, ¬(x.die = l.die ∧ x.id = l.id)) ∧
        ∀ q ∈ l.arrived, ∃ o' ∈ t.outw, o'.unit = q.1 ∧ o'.val = o.val ∧ o'.val2 = o.val2)

/-- The engines: an idle one takes the oldest word of its queue for its cycles at the harness's width; a grant spends a cycle,
and at the last the word leaves in its slot what it computes: zeros, a copy, an INT8 product added to the sums mod 2^32; a
gang's wait ends at its limit; a window starts its budget anew (12 R248, R251, R253, R258, R260, R261, Table 12-4; 04 R79).
The order of the engines within a cycle is the model's (log 2). -/
def Obligations.EnginesComputeWhatTheirWordsSay : Prop :=
  (∀ (s : State) (c b id : Nat) (h : Harness) (r : List Nat) (o : OutWord), s.harness? c b = some h → h.engCur = none → h.engine = id :: r →
    s.outw.find? (fun x => x.id == id) = some o → s.awaitsA o = false → h.width = 4 ∨ h.width = 8 ∨ h.width = 16 ∨ h.width = 32 →
    ∃ t h', s.runs (.engineStart c b) t ∧ t.harness? c b = some h' ∧ h'.engine = r ∧ h'.engCur = some (id, engineCycles o.instr * (32 / h.width))) ∧
  (∀ (s : State) (c j : Nat) (h : Harness) (o : OutWord) (u : HwUnit), j < 8 → s.harnesses = [h] → h.cluster = c → h.base = 4 * j →
    h.engCur = some (o.id, 1) → s.outw.find? (fun x => x.id == o.id) = some o → s.unit? o.unit = some u → o.unit.cluster = c →
    c < s.clusters.length → (s.cluster c).govUsed + h.width ≤ (s.cluster c).govLimit → s.engineBad o = false →
    let leaves := fun (n : Nat) (f : Tile → Nat → Byte) => ∃ t, s.runs (.governorGrant c) t ∧ .wordComplete o.id ∈ t.agenda ∧
      (∃ h', t.harness? c (4 * j) = some h' ∧ h'.engCur = none) ∧ t.mem = s.mem ∧
      ∀ x, s.tile? c n = some x → ∃ y, t.tile? c n = some y ∧ ∀ k, k < 16384 → memGet y.data k = f x k
    (∀ hd td hf, o.instr = .tzero hd td hf → leaves td.toNat (fun x k =>
      if halfBase hf ≤ k ∧ k < halfBase hf + halfSize hf then 0 else memGet x.data k)) ∧
    (∀ hd td ta hf ha a, o.instr = .tmov hd td ta hf ha ∨ o.instr = .tmovt hd td ta hf ha → halfSize hf = halfSize ha → s.tile? c ta.toNat = some a →
      leaves td.toNat (fun x k =>
        if halfBase hf ≤ k ∧ k < halfBase hf + halfSize hf then memGet a.data (k - halfBase hf + halfBase ha) else memGet x.data k)) ∧
    (∀ hd td ta tb ha hb a b, o.instr = .mma hd .i8 .i8 td ta tb ha hb false → s.tile? c ta.toNat = some a → s.tile? c tb.toNat = some b →
      leaves td.toNat (fun x k =>
        let row := k / 4 / 64
        let col := k / 4 % 64
        let sum := sumOf ((List.range 128).map (fun q =>
          (memGet a.data (halfBase ha + row * 128 + q)).signExtend 32 * (memGet b.data (halfBase hb + col * 128 + q)).signExtend 32))
        (BitVec.ofNat 32 (memRead x.data (k / 4 * 4) 4) + sum).extractLsb' (8 * (k % 4)) 8))) ∧
  (∀ (s : State) (die id w : Nat) (l : Latch) (u : HwUnit) (i : Instr), s.latches = [l] → l.die = die → l.id = id → l.since + l.limit ≤ s.now →
    l.arrived = [(u.id, w)] → s.unit? u.id = some u → u.wait.map (·.id) = some w → u.waitingWord = some i → u.team = true → u.status = .running → u.widx ≠ 0 →
    ∃ t n, s.runs (.gangLatchTimeout die id) t ∧ TookException s t u 0x4D n (u.exec i.hdr) ∧ t.latches = []) ∧
  (∀ (s : State) (c : Nat), c < s.clusters.length → ∃ t, s.runs (.governorWindowEnd c) t ∧ (t.cluster c).govUsed = 0 ∧ (t.cluster c).govDenied = false ∧
    (t.cluster c).govLimit = max 32 (min 8192 (min ((s.cluster c).mbudget.extractLsb' 0 16).toNat ((s.cluster c).mbudget.extractLsb' 32 16).toNat)) ∧
    ((s.cluster c).govDenied = false → (t.cluster c).mstall = (s.cluster c).mstall) ∧ t.units = s.units ∧ t.mem = s.mem)

/-! ### Groups -/

/-- A group word releases, arrives, waits for its phase and takes the result: each of its stages in turn. The last arrival of a
phase ends it with the fold of the contributions; a unit that is in no such group takes 0x80 (17 R370 to R373). Where an
arrival is kept, and the order of the fold, are the model's reading (log 30). -/
def Obligations.GroupWordsArriveWaitAndTakeTheResult : Prop :=
  (∀ (i : Instr) (gi idx : Nat) (ws : HwUnit → LaneSet → Word → List RegWrite) (s : State) (u : HwUnit) (e : LaneSet) (g : Group),
    groupReq i = some (gi, ws) → Ready i s u e → e ≠ 0 → u.groups.getD gi none = some idx → s.group? u.cluster idx = some g →
    u.cluster < s.clusters.length →
    let u' := { u with arr := some (idx, g.phase), released := false }
    let g' := { g with op := groupOp i, arrived := g.arrived ++ [u.bit],
                       contrib := g.contrib ++ [(u.bit, (lanesOf e u.n).map (fun n => contribution i (u.lane n)))] }
    (∀ ph, u.arr = some (idx, ph) → u.clashed = false → g.phase ≠ ph → s.noDirtyL1 →
      ∃ t o w, exec i s = .next t ∧ t.outw = s.outw ++ [o] ∧ o.unit = u.id ∧ o.due = true ∧ o.writes = ws u e g.result ∧ t.unit? u.id = some w ∧
        w.arr = none ∧ w.lanes = u.lanes ∧ (w.pc, w.widx) = u.place .seq ∧ t.mem = s.mem) ∧
    (u.arr = none → u.released = false → u.wait = none → ∃ t, Blocked s t u .release ∧ exec i s = .next (t.addAccs ((lanesOf e u.n).map (fun n =>
      { u.access n .fence .si .cl (.unit u.id) 0 4 0 with rel := some .cl, need := 6 })))) ∧
    (u.arr = none → u.released = true → u.wait = none → u.bit ∉ g.arrived → (g.arrived = [] ∨ g.op = groupOp i) →
      (g.due ≠ 0 ∨ ∃ m ∈ g.members, m ∉ g'.arrived) →
      ∃ t, exec i s = .next t ∧ Blocked s t u' (.group g.phase) ∧ t.group? u.cluster idx = some g') ∧
    (u.arr = none → u.released = true → u.wait = none → u.bit ∉ g.arrived → (g.arrived = [] ∨ g.op = groupOp i) →
      g.due = 0 → g.members ≠ [] → (∀ m ∈ g.members, m ∈ g'.arrived) →
      ∃ t v w, exec i s = .next t ∧ t.unit? u.id = some v ∧ { v with wait := none, lanes := u.lanes } = u' ∧ v.wait = some w ∧ w.kind = .group g.phase ∧
        w.poked = true ∧ Retries u w (.groupWaitRetry u.id w.id) ∧
        (∀ k, k ≠ u.id → t.unit? k = (s.unit? k).map (fun x => { x with wait := x.wait.map (fun (y : Wait) =>
          if (k, y.id, idx) ∈ (s.cluster u.cluster).grpWaits then { y with poked := true } else y) })) ∧
        t.group? u.cluster idx = some { g' with result := g'.fold, phase := !g.phase, arrived := [], contrib := [] })) ∧
  (∀ (i : Instr) (gi : Nat) (ws : HwUnit → LaneSet → Word → List RegWrite) (s : State) (u : HwUnit) (e : LaneSet), groupReq i = some (gi, ws) →
    Ready i s u e → e ≠ 0 → u.groups.getD gi none = none → u.team = false → u.status = .running → u.widx ≠ 0 →
    ∃ t, exec i s = .next t ∧ TookException s t u 0x80 0 e) ∧
  (∀ g : Group, (∀ q ∈ g.contrib, q.1 < 256) →
    let all := g.contrib.flatMap (·.2)
    ((g.op = 3 ∨ g.op = 4) → g.fold = sumOf all) ∧
    (g.op = 1 → all ≠ [] → (∀ v ∈ all, v = 0 ∨ v = 1) → (g.fold = 1 ↔ ∀ v ∈ all, v = 1)) ∧
    (g.op = 2 → (∀ v ∈ all, v = 0 ∨ v = 1) → (g.fold = 1 ↔ ∃ v ∈ all, v = 1)) ∧
    (g.op = 5 → all ≠ [] → g.fold ∈ all ∧ ∀ v ∈ all, g.fold.toInt ≤ v.toInt))

/-! ### Units that come and go -/

/-- CINCH parks its thread at the rendezvous it names, a new one or one that agrees; a full rendezvous forms its harness, whose
team takes the first registers of the threads; a rendezvous that waits too long ends in 0x23; operands out of range take 0x20
(05 R88 to R90, R93). A unit that exits with nothing left of it goes, and its save area is free again; a team that splits with
one live lane goes too, and that lane's thread has its registers and stands where it stood (05 R102; 10 R197; 18 R378). -/
def Obligations.UnitsFormLeaveAndSplit : Prop :=
  (∀ (h : Hdr) (a b : Xr) (kc wc : BitVec 2) (entry : BitVec 24) (s : State) (u : HwUnit) (e : LaneSet),
    let i := Instr.cinch h a b kc wc entry
    let n := ((u.lane 0).X a).toNat
    let x := (u.lane 0).X b
    let base := (x.extractLsb' 8 5).toNat
    let w := 4 * 2 ^ wc.toNat
    let k := 16 * (kc.toNat + 1)
    let hid := (x.extractLsb' 0 8).toNat
    let tgt := u.pc + entry.signExtend 64 * 8
    let legal := x.extractLsb' 13 51 = 0 ∧ base % w = 0 ∧ n ≠ 0 ∧ n % w = 0 ∧ n ≤ 1024 ∧ n / w * k ≤ 2240 ∧ base ≤ u.pipe ∧ u.pipe < base + w
    Ready i s u e → e ≠ 0 → u.sbZero = true → u.cluster < s.clusters.length →
    (legal → u.released = true → u.wait = none → (∀ y ∈ s.harnesses, y.cluster = u.cluster → base + w ≤ y.base ∨ y.base + y.width ≤ base) →
      (∀ r, (s.cluster u.cluster).rdv.find? (fun r => r.hid == hid) = some r → r.w = w → r.n = n → r.k = k → r.base = base → r.tgt = tgt →
        r.asid = u.asid → r.super = u.super → (∀ q ∈ r.parked, q.pipe ≠ u.pipe) →
        ∃ t, exec i s = .next t ∧ Blocked s t { u with released := false } .rendezvous ∧ { r with parked := r.parked ++ [u.id] } ∈ (t.cluster u.cluster).rdv) ∧
      ((∀ r ∈ (s.cluster u.cluster).rdv, r.hid ≠ hid ∧ r.id ≠ s.ids) → (s.cluster u.cluster).rdv.length < 8 →
        ∃ t r, exec i s = .next t ∧ Blocked s t { u with released := false } .rendezvous ∧ r ∈ (t.cluster u.cluster).rdv ∧ r.parked = [u.id] ∧ r.hid = hid ∧
          r.w = w ∧ r.n = n ∧ r.k = k ∧ r.base = base ∧ r.tgt = tgt ∧ r.start = s.now ∧
          (s.now + ((s.cluster u.cluster).cinchlim.extractLsb' 0 32).toNat, .rendezvousTimeout u.cluster r.id) ∈ t.future)) ∧
    (¬legal → u.team = false → u.status = .running → u.widx ≠ 0 → ∃ t, exec i s = .next t ∧ TookException s t u 0x20 0 e)) ∧
  (∀ (s : State) (c : Nat) (r : Rdv) (of : Nat → HwUnit) (ix : Nat) (l : List Nat), Uncached s → (s.cluster c).rdv.find? (fun x => x.hid == r.hid) = some r →
    s.rdvReady c r = true → 0 < r.w → r.w ≤ r.n →
    (∀ j, j < r.w → s.units.find? (fun u => r.parked.contains u.id && u.pipe == r.base + j) = some (of j)) →
    (s.freeAreas (of 0).ctx true 1).1 = ix :: l →
    ∃ t v, s.runs (.harnessFormation c r.hid) t ∧ v ∈ t.units ∧ v.team = true ∧ v.cluster = c ∧ v.pipe = r.base ∧ v.slot = 0 ∧ v.n = r.n ∧ v.k = r.k ∧
      v.w = r.w ∧ v.pc = r.tgt ∧ v.widx = 1 ∧ v.asid = r.asid ∧ v.super = r.super ∧ v.status = .running ∧
      (∀ j, j < r.w → ∀ x : Xr, x.toNat < r.k → (v.lane j).X x = ((of j).lane 0).X x) ∧ (∀ j, r.w ≤ j → j < r.n → v.lane j = Lane.zero) ∧
      ∃ h ∈ t.harnesses, h.cluster = c ∧ h.base = r.base ∧ h.width = r.w) ∧
  (∀ (s : State) (c : Nat) (r : Rdv) (u : HwUnit) (i : Instr), (s.cluster c).rdv.find? (fun x => x.id == r.id) = some r → r.start + r.limit ≤ s.now →
    r.parked = [u.id] → s.unit? u.id = some u → u.waitingWord = some i → u.team = false → u.n = 1 → u.status = .running → u.widx ≠ 0 →
    c < s.clusters.length → ∃ t, s.runs (.rendezvousTimeout c r.id) t ∧ TookException s t u 0x23 0 1 ∧ ∀ x ∈ (t.cluster c).rdv, x.id ≠ r.id) ∧
  (∀ (s : State) (u : HwUnit), Uncached s → s.unit? u.id = some u → u.team = false → u.exiting = true → u.killed = false → u.sbZero = true →
    s.allocsOf u = [] → s.slotsOf u = [] → u.queuesDrained = true → u.preempt = none → u.areaIdx < 65536 → 8192 * (u.areaIdx + 1) ≤ u.area →
    s.solid (u.area - 8192 * (u.areaIdx + 1)) (8192 * (u.areaIdx + 2)) →
    ∃ t, s.runs (.unitExit u.id) t ∧ t.unit? u.id = none ∧ memRead t.mem (u.area + 8) 8 = 0 ∧
      (memGet t.mem (u.area - 8192 * (u.areaIdx + 1) + u.areaIdx / 8)).getLsbD (u.areaIdx % 8) = false) ∧
  (∀ (s : State) (u : HwUnit) (l ix : Nat) (r : List Nat), Uncached s → s.unit? u.id = some u → u.team = true → u.split = some [] →
    u.wait = none → u.released = true → s.outOf u.id = [] → s.slotsOf u = [] → u.queuesDrained = true → u.preempt = none →
    u.liveLanes = [l] → (s.freeAreas u.ctx false 1).1 = ix :: r → u.id.cluster = u.cluster → u.id.team = true → l < 64 →
    ∃ t v, s.runs (.teamSplit u.id) t ∧ t.unit? u.id = none ∧ v ∈ t.units ∧ v.team = false ∧ v.n = 1 ∧ v.cluster = u.cluster ∧
      v.pipe = u.pipe + l % u.w ∧ v.slot = l / u.w ∧ (v.pc, v.widx) = u.standsAt l ∧ v.seed = seedSteps (l + 1) u.seed ∧ v.fpstat = u.fpstat ∧
      v.status = .running ∧ (∀ x : Xr, (v.lane 0).X x = if x.toNat < u.k then (u.lane l).X x else 0) ∧ (v.lane 0).p = (u.lane l).p)

/-! ### Exceptions, messages and the window -/

/-- TRAP takes the exception 0xE0 with the value of its register as the detail; ERET waits for the counters, gives up supervisor
privilege and goes to its target, or takes 0x14 or 0x70 where that is misaligned or not canonical (18 R407, R408). -/
def Obligations.TrapTakesItsExceptionAndEretLeavesSupervisor : Prop :=
  (∀ (h : Hdr) (a : Xr) (code : BitVec 14) (s : State) (u : HwUnit) (e : LaneSet), Ready (.trap h a code) s u e → e ≠ 0 → u.status = .running →
    s.splittable u = false → u.widx ≠ 0 →
    ∃ t l w, exec (.trap h a code) s = .next t ∧ TookException s t u 0xE0 l e ∧ t.unit? u.id = some w ∧
      w.frec.getD 3 0 = (u.lane (topLane e u.n)).X a) ∧
  (∀ (h : Hdr) (a : Xr) (s : State) (u : HwUnit) (e : LaneSet), Ready (.eret h a) s u e → e ≠ 0 →
    let pc := (u.lane (topLane e u.n)).X a
    let took := fun (c : Nat) => u.status = .running → s.splittable u = false → u.widx ≠ 0 → ∃ t l, exec (.eret h a) s = .next t ∧ TookException s t u c l e
    (u.sbZero = true → pc.extractLsb' 0 3 = 0 → IsCanonical pc →
      ∃ t, exec (.eret h a) s = .next t ∧ Issued (.eret h a) e (.to pc) s t u { u with super := false }) ∧
    (u.sbZero = false → u.wait = none → ∃ t, exec (.eret h a) s = .next t ∧ Blocked s t u .counters) ∧
    (u.sbZero = true → pc.extractLsb' 0 3 ≠ 0 → took 0x14) ∧
    (u.sbZero = true → pc.extractLsb' 0 3 = 0 → ¬IsCanonical pc → took 0x70))

/-- WAKE, SENDM, WINRD, WINWR, the TLBSHOOT words and LAUNCH issue with a release at their scope in each executing lane, and
stay outstanding with their operands; a thread whose operands are not legal takes the exception of the word (16 R355, R356; 18
R409, R410, R412, R414). -/
def Obligations.WordsThatReleaseFirstStayOutstanding : Prop :=
  ∀ (i : Instr) (sc : Scope) (ok : State → HwUnit → Lane → Nat → Prop) (keep : HwUnit → Lane → Word × Word) (s : State) (u : HwUnit)
    (e : LaneSet), lateReq i = some (sc, ok, keep) → Ready i s u e → e ≠ 0 →
    let l := u.lane (topLane e u.n)
    (ok s u l 0 → ∃ t o, exec i s = .next (t.addAccs ((lanesOf e u.n).map (fun n =>
        { u.access n .fence .si sc (.late o.id) 0 4 0 with rel := some sc, need := 6 }))) ∧
      Outstanding i e s t u u o ∧ o.writes = [] ∧ (o.val, o.val2) = keep u l) ∧
    (∀ c, ok s u l c → c ≠ 0 → Alone u → ∃ t, exec i s = .next t ∧ TookException s t u c 0 e)

/-- Once its release is performed, WAKE of a unit of this device answers 2 where there is no such unit and 1 where it runs; a
stopped unit goes on at the word that its action names, or exits; a saved one takes the action with it. SENDM sends its
message behind the earlier ones of its unit, and answers 2 where there is no such target (18 R400, R409, R410). WINRD
answers the register of the stopped unit that its selector names, WINWR changes it and no other; a unit that has gone, or
goes on, ends them with 0x90 (18 R412). The waiting forms of these words are the model's reading (log 40). -/
def Obligations.WordsReachTheUnitTheyName : Prop :=
  (∀ (h : Hdr) (d a b : Xr) (s : State) (o : OutWord), s.lateOut = some o → idDev o.val = s.devnum % 2 ^ 18 →
    let i := Instr.wake h d a b
    let act := (o.val2.extractLsb' 0 3).toNat
    let done := fun (n : Nat) (p : State → Prop) => ∃ t, exec i s = .next t ∧ Completes s t o (o.toEach d n) ∧ p t
    (s.named o.val = none → done 2 (fun t => t.units = s.units)) ∧
    (∀ v, s.named o.val = some v → v.status = .running → done 1 (fun t => t.units = s.units)) ∧
    (∀ v, s.named o.val = some v → (v.status = .halted ∨ v.status = .parked) → act < 3 → s.noDirtyL1 →
      done 0 (fun t => ∃ w, t.unit? v.id = some w ∧ w.status = .running ∧ w.wait = none ∧ w.lanes = v.lanes ∧ w.v = v.v ∧ w.active = v.active ∧
        (∀ pc n f, act = 0 → v.faultW = some (pc, n, f) → (w.pc, w.widx) = (pc, n) ∧ w.after = some (v.pc, v.widx) ∧ w.only = if v.team then some f else none) ∧
        (act = 0 → v.faultW = none → (w.pc, w.widx) = (v.pc, v.widx)) ∧ (act = 1 → (w.pc, w.widx) = (v.pc, v.widx)) ∧
        (act = 2 → (w.pc, w.widx) = (o.val2 &&& ~~~7, 1)))) ∧
    (∀ v, s.named o.val = some v → (v.status = .halted ∨ v.status = .parked) → act = 3 → s.accs = [] → s.outOf v.id = [] →
      done 0 (fun t => ∃ w, t.unit? v.id = some w ∧ w.exiting = true ∧ w.killed = true)) ∧
    (∀ v, s.named o.val = some v → v.status = .saved → done 0 (fun t => ∃ w, t.unit? v.id = some w ∧ w.status = .saved ∧ w.act = act))) ∧
  (∀ (h : Hdr) (sc : Scope) (d a b : Xr) (s : State) (o : OutWord) (u : HwUnit), s.lateOut = some o → s.unit? o.unit = some u →
    idDev o.srcA = s.devnum % 2 ^ 18 →
    let i := Instr.sendm h sc d a b
    (s.named o.srcA = none → ∃ t, exec i s = .next t ∧ Completes s t o (o.toEach d 2)) ∧
    (∀ v, s.named o.srcA = some v → ∃ t n w, exec i s = .next t ∧ s.now < n ∧ t.unit? u.id = some w ∧ w = { u with msgs := u.msgs + 1 } ∧
      t.future = s.future ++ [(n, .messageDelivery (.unit u.id) v.id (msgDw0 0xF0 u.asid false false false u.msgs) (u.id.word s.devnum) o.val o.val2 0 o.id)])) ∧
  (∀ (h : Hdr) (d a b : Xr) (sel : BitVec 14) (s : State) (o : OutWord) (v : HwUnit), s.lateOut = some o → Uncached s →
    s.windowTo o.srcA o.val sel false v → (v.status = .halted ∨ v.status = .parked) →
    let j := selIdx sel
    let l := v.lane (if v.team then (o.val.extractLsb' 0 10).toNat else 0)
    ∃ t n, exec (.winrd h d a b sel) s = .next t ∧ Completes s t o (o.toEach d n) ∧ t.mem = s.mem ∧
      (selFile sel = 0 → n = (l.X (BitVec.ofNat 6 j)).toNat) ∧ (selFile sel = 1 → n = if l.P (BitVec.ofNat 4 j) then 1 else 0) ∧
      (selFile sel = 2 → n = ((v.V (BitVec.ofNat 5 (j / 8))).extractLsb' (64 * (j % 8)) 64).toNat) ∧
      (selFile sel = 4 → ∀ k, k < 6 → n / 2 ^ (6 * k) % 64 = (v.counter (BitVec.ofNat 3 (k + 1))).toNat) ∧
      (selFile sel = 5 → n = if j = 0 then v.pc.toNat else v.widx % 2 ^ 64) ∧
      (selFile sel = 6 → v.area = 0 → n = (v.frec.getD j 0).toNat)) ∧
  (∀ (h : Hdr) (d a b : Xr) (sel : BitVec 14) (s : State) (o : OutWord) (v : HwUnit), s.lateOut = some o → Uncached s →
    s.windowTo (o.src 1) o.val sel true v → (v.status = .halted ∨ v.status = .parked) → o.unit ≠ v.id →
    let j := selIdx sel
    let m := if v.team then (o.val.extractLsb' 0 10).toNat else 0
    ∃ t w, exec (.winwr h d a b sel) s = .next t ∧ Completes s t o [] ∧ t.unit? v.id = some w ∧ w.status = v.status ∧
      (selFile sel = 0 → m < v.lanes.length → w.v = v.v ∧ (w.pc, w.widx) = (v.pc, v.widx) ∧
        ∀ n r, (w.lane n).X r = if n = m ∧ r = BitVec.ofNat 6 j ∧ r ≠ 0 then o.val2 else (v.lane n).X r) ∧
      (selFile sel = 1 → m < v.lanes.length → w.v = v.v ∧ (w.pc, w.widx) = (v.pc, v.widx) ∧
        ∀ n r, (w.lane n).P r = if n = m ∧ r = BitVec.ofNat 4 j ∧ r ≠ 0 then o.val2.getLsbD 0 else (v.lane n).P r) ∧
      (selFile sel = 5 → w.lanes = v.lanes ∧ w.v = v.v ∧ (w.pc, w.widx) = if j = 0 then (o.val2 &&& ~~~7, v.widx) else (v.pc, (o.val2.extractLsb' 0 5).toNat))) ∧
  (∀ (i : Instr) (id : OutWord → Word) (s : State) (o : OutWord), s.lateOut = some o → (s.named (id o) = none ∨ ∃ v, s.named (id o) = some v ∧ v.status = .running) →
    ((∃ h d a b sel, i = .winrd h d a b sel) ∧ id = OutWord.srcA ∨ (∃ h d a b sel, i = .winwr h d a b sel) ∧ id = fun o => o.src 1) →
    ∃ t, exec i s = .next t ∧ Fails s t o 0x90 ∧ t.units = s.units)

/-- WAITM takes the oldest message into four registers, else blocks until one comes; WAITM.nb answers zeros. A delivered message
goes to the end of an inbox that has room, is tried again where it has none, and goes to the host's event queue after 256
refusals; the sender's answer says so (18 R390, R391, R394, R410, R411). The payload of the event that stands for a message
is the model's reading (log 17). -/
def Obligations.MessagesAreDeliveredAndTakenInOrder : Prop :=
  (∀ (i : Instr) (sc : Scope) (d : Xr) (s : State) (u : HwUnit) (e : LaneSet),
    ((∃ h, i = .waitm h sc d) ∨ ∃ h, i = .waitmNb h sc d) → Ready i s u e → e ≠ 0 → s.noDirtyL1 →
    (∀ m r, u.inbox = m :: r → u.pending = true → ∃ t o w n, exec i s = .next t ∧ t.outw = s.outw ++ [o] ∧ o.unit = u.id ∧ o.due = true ∧ o.faults = [] ∧
      o.writes = toEachX u e d m.dw0 ++ toEachX u e (d + 1) m.dw1 ++ toEachX u e (d + 2) m.dw2 ++ toEachX u e (d + 3) m.dw3 ∧
      (n, .wordComplete o.id) ∈ t.future ∧ t.unit? u.id = some w ∧ w.inbox = r ∧ w.pending = !r.isEmpty ∧ w.lanes = u.lanes ∧
      (w.pc, w.widx) = u.place .seq ∧ t.mem = s.mem) ∧
    ((u.inbox = [] ∨ u.pending = false) → (∃ h, i = .waitm h sc d) → u.wait = none → ∃ t, exec i s = .next t ∧
      BlockedTesting s t u .inbox (.waitmTimedRetry u.id)) ∧
    ((u.inbox = [] ∨ u.pending = false) → (∃ h, i = .waitmNb h sc d) → ∃ t o, exec i s = .next t ∧ Later i e s t u u o ∧
      o.writes = toEachX u e d 0 ++ toEachX u e (d + 1) 0 ++ toEachX u e (d + 2) 0 ++ toEachX u e (d + 3) 0)) ∧
  (∀ (s : State) (src : Source) (k : UKey) (d0 d1 d2 d3 : Word) (tries oid : Nat),
    let ev := fun (n : Nat) => Ev.messageDelivery src k d0 d1 d2 d3 n oid
    (∀ q ∈ s.future, ∀ a b c d n x, q.2 = .messageDelivery src k a b c d n x →
      (d0 - a).extractLsb' 0 32 = 0 ∨ 2 ^ 31 ≤ ((d0 - a).extractLsb' 0 32).toNat) →
    (∀ u, s.unit? k = some u → u.resident = true → u.inbox.length < 4 → ∃ t w, s.runs (ev tries) t ∧ t.unit? k = some w ∧
      w.inbox = u.inbox ++ [⟨d0, d1, d2, d3⟩] ∧ w.pending = true ∧ w.lanes = u.lanes ∧
      (∀ x, u.wait = some x → w.wait = some (if x.kind = .inbox then { x with poked := true } else x)) ∧
      (∀ o, oid ≠ 0 → s.outw.find? (fun x => x.id == oid) = some o → Completes s t o (o.toEach (sendDst o.instr) 0))) ∧
    (∀ u, s.unit? k = some u → 4 ≤ u.inbox.length → (oid ≠ 0 ∨ tries < 255) → ∃ t, s.runs (ev tries) t ∧ t.units = s.units ∧
      t.future = s.future ++ [(s.now + 32 * 2 ^ min (tries + 1) 8, ev (tries + 1))]) ∧
    (∀ u, s.unit? k = some u → 4 ≤ u.inbox.length → oid = 0 → 255 ≤ tries → ∃ t n, s.runs (ev tries) t ∧ t.units = s.units ∧
      t.future = s.future ++ [(n, .eventRecordWrite src (d0.extractLsb' 0 32).toNat d0 d1 d2 d3 (d0.extractLsb' 56 8).toNat)]) ∧
    (∀ o, s.unit? k = none → oid ≠ 0 → s.outw.find? (fun x => x.id == oid) = some o →
      ∃ t, s.runs (ev tries) t ∧ t.units = s.units ∧ Completes s t o (o.toEach (sendDst o.instr) 2))) ∧
  (∀ (s : State) (src : Source) (seq cause : Nat) (d0 d1 d2 d3 : Word),
    let ev := Ev.eventRecordWrite src seq d0 d1 d2 d3 cause
    let size := (s.hub.eqCtl.extractLsb' 0 5).toNat
    let at_ := s.hub.eqBase.toNat / 4096 * 4096 % 2 ^ 52 + 64 * (s.hub.eqProd % 2 ^ size)
    let used := (s.hub.eqProd + 2 ^ 32 - s.hub.eqCons) % 2 ^ 32
    (used < 2 ^ size → ∃ t, s.runs ev t ∧ t.hub.eqProd = (s.hub.eqProd + 1) % 2 ^ 32 ∧ t.mem = s.mem ∧ t.units = s.units ∧
      memRead (t.extMem .host) at_ 8 = (s.hub.eqProd % 2 ^ 32 * 2 ^ 32 + seq % 2 ^ 32) ∧ memRead (t.extMem .host) (at_ + 16) 8 = d0.toNat ∧
      memRead (t.extMem .host) (at_ + 24) 8 = d1.toNat ∧ memRead (t.extMem .host) (at_ + 32) 8 = d2.toNat ∧
      memRead (t.extMem .host) (at_ + 40) 8 = d3.toNat ∧
      t.msix = (if s.hub.eqCtl.getLsbD 63 then [(s.hub.eqCtl.extractLsb' 32 11).toNat] else []) ++ s.msix) ∧
    (2 ^ size ≤ used → ∃ t id n, s.runs ev t ∧ t.hub = s.hub ∧ t.ext = s.ext ∧ t.future = s.future ++ [(n, .nakRetry id)] ∧ s.now + 32 ≤ n))

/-! ### Pre-emption and launch -/

/-- The words that ask for a pre-emption set it out for the unit that they name, to arrive within 512 core cycles, and stay
outstanding until it is answered; for a unit that is not there they answer so. CTXLOAD queues the saved unit of the area
that it names for its return (18 R403, R413, R415). A pre-emption that arrives at a quiet unit: a thread, a stopped unit, or
a team asked to save is saved where it stands; a team is drained where its weight lets it, its region begun again where that
is idempotent and untainted, else saved; a kill ends it; a unit that is gone is answered so. A drain that has not ended in
time is chosen for again (18 R401 to R404, R450). What becomes of halted and parked units, and of the word that asks, is the
model's reading (log 31, log 36). -/
def Obligations.PreemptionsArriveDrainFlushSaveOrKill : Prop :=
  (∀ (i : Instr) (d a : Xr) (m : PreemptMode) (no : Nat) (s : State) (u : HwUnit) (e : LaneSet), preemptReq i = some (d, a, m, no) →
    Ready i s u e → e ≠ 0 →
    let id := (u.lane (topLane e u.n)).X a
    (∀ v, s.named id = some v → ∃ t o n, exec i s = .next t ∧ Outstanding i e s { t with fresh := s.fresh, future := s.future } u u o ∧
      t.future = s.future ++ [(n, .preemptionArrival v.id m o.id)] ∧ s.now < n ∧ n ≤ s.now + 512) ∧
    (s.named id = none → ∃ t o, exec i s = .next t ∧ Later i e s t u u o ∧ o.writes = toEachX u e d (BitVec.ofNat 64 no))) ∧
  (∀ (h : Hdr) (d a : Xr) (s : State) (u : HwUnit) (e : LaneSet), Ready (.ctxload h d a) s u e → e ≠ 0 →
    let at_ := ((u.lane (topLane e u.n)).X a).toNat
    (∀ v ∈ s.units, v.status = .saved → v.area = at_ → at_ ≠ 0 → (∀ w ∈ s.units, w.status = .saved → w.area = at_ → w = v) →
      (∀ q ∈ s.hub.returns, q.2 ≠ v.id) → ∃ t o, exec (.ctxload h d a) s = .next t ∧
      Later (.ctxload h d a) e { s with hub := { s.hub with returns := s.hub.returns ++ [(s.now, v.id)] } } t u u o ∧ o.writes = toEachX u e d 0) ∧
    ((∀ v ∈ s.units, v.status = .saved → v.area = 0 ∨ v.area ≠ at_) → ∃ t o, exec (.ctxload h d a) s = .next t ∧
      Later (.ctxload h d a) e s t u u o ∧ o.writes = toEachX u e d 1)) ∧
  (∀ (s : State) (k : UKey) (m : PreemptMode) (o : OutWord), s.outw.find? (fun x => x.id == o.id) = some o → (∀ x ∈ s.outw, x.id = o.id → x = o) →
    o.id ≠ 0 →
    let ev := Ev.preemptionArrival k m o.id
    (s.unit? k = none → ∃ t, s.runs ev t ∧ t.answered o 4 ∧ t.units = s.units) ∧
    (∀ u, s.unit? k = some u → Quiet s u → m ≠ .kill → (u.status = .halted ∨ u.status = .parked ∨ u.status = .running ∧ u.team = false ∨
        u.status = .running ∧ u.begun = false ∧ u.widx = 1 ∧ m = .save) → ∃ t, s.runs ev t ∧ Saved s t u u.pc u.widx ∧ t.answered o 2) ∧
    (∀ u, s.unit? k = some u → Quiet s u → m = .adaptive → u.team = true → u.status = .running → u.begun = false → u.widx = 1 →
      let lim := ((s.cluster u.cluster).drainlim.extractLsb' 0 32).toNat
      let p := u.prog.toNat
      let drains := lim ≠ 0 ∧ p ≠ 0 ∧ p < u.wexit ∧ (u.wexit - p) * u.resid.toNat ≤ lim * p
      (drains → ∃ t w x, s.runs ev t ∧ t.unit? k = some w ∧ w.drained = s.now + 2 * lim ∧ w.status = .running ∧ w.able = true ∧
        w.preempt = some x ∧ (s.now + 2 * lim, .drainTimeout k x.id) ∈ t.future ∧ t.answered o 0) ∧
      (¬drains → ∀ entry, u.idem = some entry → u.taint = false → ∃ t, s.runs ev t ∧ Saved s t u entry 1 ∧ t.answered o 1) ∧
      (¬drains → (u.idem = none ∨ u.taint = true) → ∃ t, s.runs ev t ∧ Saved s t u u.pc 1 ∧ t.answered o 2)) ∧
    (∀ u, s.unit? k = some u → Quiet s u → m = .kill → ∃ t w, s.runs ev t ∧ t.unit? k = some w ∧ w.exiting = true ∧ w.killed = true ∧
      w.able = false)) ∧
  (∀ (s : State) (u : HwUnit) (p : Preempt), s.unit? u.id = some u → s.outOf u.id = [] → s.accs = [] → s.latches = [] → s.l1 = [] → u.awaiting = [] →
    u.wait = none → u.exiting = false → u.split = none → u.team = true → u.status = .running → u.begun = false → u.widx = 1 → u.preempt = some p →
    p.mode = .adaptive → p.saving = false → p.by_ = [] → u.drained ≠ 0 → u.idem = none →
    ∃ t, s.runs (.drainTimeout u.id p.id) t ∧ Saved s t u u.pc 1)

/-- LAUNCH takes effect after its release, the other forms as they issue: the queue that they name takes the command, and the
register the doubleword of what it last accepted and completed; an invalid block, or another address space's queue, ends them
with 0x93. A doorbell does as much for the host; on an invalid block it is dropped, with the event 0xA3 (18 R380, R386, R414; 19
R419). -/
def Obligations.LaunchQueuesTakeTheirCommands : Prop :=
  (∀ (h : Hdr) (d a : Xr) (s : State) (o : OutWord) (d0 d1 : Word), s.lateOut = some o → Uncached s →
    let q := (o.val.extractLsb' 0 6).toNat
    let v := (o.val.extractLsb' 32 32).toNat
    ValidBlock s q d0 d1 → s.solid (s.blockOf q) 64 →
    (o.val2.getLsbD 16 = true ∨ d1.extractLsb' 16 16 = o.val2.extractLsb' 0 16 → ∃ t, exec (.launch h d a) s = .next t ∧
      Commanded s t q 0 v (o.val2.getLsbD 16) d0 d1 ∧ Completes s t o (o.toEach d (t.lq q).dw2.toNat)) ∧
    (o.val2.getLsbD 16 = false → d1.extractLsb' 16 16 ≠ o.val2.extractLsb' 0 16 → ∃ t, exec (.launch h d a) s = .next t ∧ Fails s t o 0x93 ∧
      t.hub = s.hub ∧ t.mem = s.mem)) ∧
  (∀ (h : Hdr) (d a : Xr) (s : State) (o : OutWord), s.lateOut = some o → Uncached s → (∀ d0 d1, ¬ValidBlock s (o.val.extractLsb' 0 6).toNat d0 d1) →
    s.hub.lqbase.toNat % 4096 = 0 → ∃ t, exec (.launch h d a) s = .next t ∧ Fails s t o 0x93 ∧ t.hub = s.hub ∧ t.mem = s.mem) ∧
  (∀ (i : Instr) (d a : Xr) (cmd : Nat) (s : State) (u : HwUnit) (e : LaneSet) (d0 d1 : Word), launchCmd i = some (d, a, cmd) → Ready i s u e → e ≠ 0 →
    Uncached s →
    let x := (u.lane (topLane e u.n)).X a
    let q := (x.extractLsb' 0 6).toNat
    (x.extractLsb' 6 26 = 0 → ValidBlock s q d0 d1 → s.solid (s.blockOf q) 64 → s.hub.recs = [] → ∃ t o w, exec i s = .next t ∧
      Commanded s t q cmd (x.extractLsb' 32 32).toNat true d0 d1 ∧ t.outw = s.outw ++ [o] ∧ o.unit = u.id ∧ o.due = true ∧
      o.writes = toEachX u e d (t.lq q).dw2 ∧ t.unit? u.id = some w ∧ (w.pc, w.widx) = u.place .seq ∧ ∀ n r, (w.lane n).X r = (u.lane n).X r) ∧
    ((x.extractLsb' 6 26 ≠ 0 ∨ s.hub.lqbase.toNat % 4096 = 0 ∧ ∀ d0 d1, ¬ValidBlock s q d0 d1) → Alone u →
      ∃ t, exec i s = .next t ∧ TookException s t u 0x93 0 e)) ∧
  (∀ (ev : Ev) (q cmd v : Nat) (s : State) (d0 d1 : Word), doorbellCmd ev = some (q, cmd, v) → Uncached s →
    (s.hub.ready = true → s.hub.trip = false → ValidBlock s q d0 d1 → s.solid (s.blockOf q) 64 → s.hub.recs = [] → ∃ t, s.runs ev t ∧ Commanded s t q cmd v true d0 d1 ∧
      t.units.map (fun u => { u with lanes := [] }) = s.units.map (fun u => { u with lanes := [] })) ∧
    (s.hub.ready = true → s.hub.trip = false → s.hub.lqbase.toNat % 4096 = 0 → (∀ d0 d1, ¬ValidBlock s q d0 d1) → ∃ t n seq c a d, s.runs ev t ∧
      t.hub.queues = s.hub.queues ∧ t.mem = s.mem ∧ t.future = s.future ++ [(n, .eventRecordWrite (.num 3) seq c a 0 d 0xA3)]) ∧
    (s.hub.ready = false ∨ s.hub.trip = true → s.runs ev { s with arg := some ev }))

/-! ### Translation -/

/-- A walk follows the tables to the leaf of an address, whose permissions, alignment and A and D bits it checks, with the
causes 0x71 to 0x75; an access whose walk fails ends with the cause where nobody pages for it, and is held and reported where
somebody does; a page that migrates holds it silently; an answered one is walked again (16 R341, R343, R347, R348, R350 to R353,
R360; 18 R397). FAULTACK, and its like in the mailbox, answer a held request: refused, its word completes with the cause that it
met; an answer for one that is not held changes nothing. A request for another device leaves on a link, and 0x94 or 0xA4 is
taken where the operand is not legal or leads nowhere (16 R352, R359; 18 R416). -/
def Obligations.TranslationFollowsTheTablesAndHoldsRequests : Prop :=
  (∀ (s : State) (asid va root l : Nat) (need : Need) (super fwd ad : Bool) (pte : Word) (p : PAddr), Uncached s → s.hasRoot asid root fwd ad →
    TableWalk s va 5 (root * 4096) pte l →
    let ppn := (pte.extractLsb' 10 44).toNat
    let size := if pte.getLsbD 63 then 65536 else 2 ^ (12 + 9 * l)
    let pa := ppn * 4096 / size * size + va % size
    let aligned := ppn % 2 ^ (9 * l) = 0 ∧ (pte.getLsbD 63 = true → l = 0 ∧ ppn % 16 = 8)
    let allowed := (super = true ∨ pte.getLsbD 4 = true) ∧
      (match need with | .read => pte.getLsbD 1 = true | .exec => pte.getLsbD 3 = true | .write => pte.getLsbD 1 = true ∧ pte.getLsbD 2 = true)
    let fresh := pte.getLsbD 6 = true ∧ (need = .write → pte.getLsbD 7 = true)
    (¬aligned → s.walk asid va need super = (.fault 0x74 l, s)) ∧ (aligned → ¬allowed → s.walk asid va need super = (.fault 0x72 l, s)) ∧
    (aligned → allowed → ¬fresh → ad = false → s.walk asid va need super = (.fault 0x73 l, s)) ∧
    (aligned → allowed → fresh → s.classify pa = none → s.walk asid va need super = (.fault 0x75 l, s)) ∧
    (aligned → allowed → fresh → s.classify pa = some p → ∃ x a, s.walk asid va need super = (.ok x size pte l a, s) ∧ x.pf = p.frameOf ∧
      x.perm = pte.extractLsb' 0 8 ∧ x.glob = pte.getLsbD 5)) ∧
  (∀ (s : State) (asid va root a : Nat) (need : Need) (super fwd ad : Bool), Uncached s → s.hasRoot asid root fwd ad →
    s.classify (root * 4096 + 8 * (va / 2 ^ 48 % 512)) = some ⟨.dev, a⟩ → a % 8 = 0 →
    (s.dw a % 2 = 0 → s.dw a / 256 % 2 = 0 → s.walk asid va need super = (.fault 0x71 4, s)) ∧
    (s.dw a % 2 = 0 → s.dw a / 256 % 2 = 1 → s.walk asid va need super = (.mig 4, s))) ∧
  (∀ (s : State) (a : Acc) (o : OutWord) (c l : Nat),
    let at_ := { s with arg := some (.translationWalk a.id) }
    s.accs = [a] → a.stage = .walk → a.fault = 0 → a.kind ≠ .pref → a.owner = .out o.id → s.outw.find? (fun x => x.id == o.id) = some o → o.due = false →
    o.faults = [] → c ≠ 0 → s.cachedLeaf a.die a.asid a.v57 = none →
    (∀ root ad, at_.walk a.asid a.v57 a.kind.need a.super = (.fault c l, at_) → at_.asidEntry a.asid = (some (root, false, ad), at_) →
      (s.pagerdst.toList.getD a.die 0).getLsbD 63 = false → ∃ t, s.runs (.translationWalk a.id) t ∧ t.refused o a c ∧ t.replays = s.replays) ∧
    (∀ root ad fwd, at_.walk a.asid a.v57 a.kind.need a.super = (.fault c l, at_) → at_.asidEntry a.asid = (some (root, fwd, ad), at_) →
      (fwd = true ∨ (s.pagerdst.toList.getD a.die 0).getLsbD 63 = true) → s.replays = [] → a.unit = none →
      ∃ t r n ev, s.runs (.translationWalk a.id) t ∧ t.replays = [r] ∧ r.acc = a.id ∧ r.cause = c ∧ r.mig = false ∧ t.outw = s.outw ∧
        (∃ b, t.accs = [b] ∧ b.stage = .replay ∧ b.id = a.id) ∧ t.future = s.future ++ [(n, ev)] ∧
        ((∃ dst d0 d1 d2 d3, ev = .messageDelivery (.num (0x80 + 16 * a.die + r.unit)) dst d0 d1 d2 d3 0 0 ∧ d1 = BitVec.ofNat 64 a.va) ∨
         (∃ seq d0 d1 d2 d3, ev = .eventRecordWrite (.num (0x80 + 16 * a.die + r.unit)) seq d0 d1 d2 d3 c ∧ d1 = BitVec.ofNat 64 a.va) ∨
         ∃ x dst p, ev = .linkMessage x dst 0 p 0)) ∧
    (at_.walk a.asid a.v57 a.kind.need a.super = (.mig l, at_) → s.replays = [] → ∃ t r, s.runs (.translationWalk a.id) t ∧ t.replays = [r] ∧
      r.acc = a.id ∧ r.mig = true ∧ t.outw = s.outw ∧ t.future = s.future ++ [(s.now + 4096, .migrationRewalk r.tag)])) ∧
  (∀ (s : State) (r : Replay) (a : Acc) (o : OutWord) (x : Xl) (size l : Nat) (pte : Word) (p : PAddr), HeldFor s r a o →
    let at_ := { s with arg := some (.migrationRewalk r.tag) }
    at_.walk a.asid a.v57 a.kind.need a.super = (.ok x size pte l p, at_) →
    ∃ t, s.runs (.migrationRewalk r.tag) t ∧ t.replays = [] ∧ .heldRequestComplete a.id ∈ t.agenda ∧ t.outw = s.outw ∧
      ∃ b, t.accs = [b] ∧ b.id = a.id ∧ b.stage = .held ∧ b.xl = some x) ∧
  (∀ (s : State) (a : Acc) (u : HwUnit) (oid : Nat), s.accs = [a] → a.owner = .out oid → a.unit = some u.id → s.unit? u.id = some u → a.stage ≠ .held →
    ∃ t, s.runs (.heldRequestComplete a.id) t ∧ t.accs = s.accs ∧ t.unit? u.id = some { u with
      awaiting := u.awaiting.filter (· ≠ a.id), logged := u.logged.filter (· ≠ (oid, a.lane / max 1 u.w)) }) ∧
  (∀ (s : State) (u : HwUnit) (a : Acc) (oid : Nat) (r : List Nat), s.unit? u.id = some u → u.awaiting = a.id :: r → s.acc? a.id = some a →
    a.owner = .out oid → (oid, a.lane / max 1 u.w) ∉ u.logged → u.team = false →
    ∃ t, s.runs (.operandLogRecord u.id) t ∧
      t.unit? u.id = some (if u.logged.length < 8 then { u with awaiting := r, logged := u.logged ++ [(oid, a.lane / max 1 u.w)] } else u)) ∧
  (∀ (i : Instr) (h : Hdr) (a : Xr) (no : Bool) (s : State) (u : HwUnit) (e : LaneSet), (i = .faultack h a ∧ no = false ∨ i = .faultackRefuse h a ∧ no = true) →
    Ready i s u e → e ≠ 0 →
    let v := (u.lane (topLane e u.n)).X a
    let dev := (v.extractLsb' 40 18).toNat
    (v.extractLsb' 58 6 = 0 → dev = s.devnum % 2 ^ 18 →
      (∀ r ∈ s.replays, ¬(r.tag % 2 ^ 32 = (v.extractLsb' 0 32).toNat ∧ r.die = (v.extractLsb' 32 4).toNat ∧ r.unit = (v.extractLsb' 36 4).toNat)) →
      ∃ t, exec i s = .next t ∧ Issued i e .seq s t u u) ∧
    (v.extractLsb' 58 6 = 0 → dev ≠ s.devnum % 2 ^ 18 → s.route dev 0 ≠ none → ∃ t, exec i s = .next t ∧
      Issued i e .seq s { t with agenda := s.agenda } u u ∧ t.agenda = s.agenda ++ [.linkMessage s.devnum dev 0 [if no then 1 else 0, v] 0]) ∧
    (v.extractLsb' 58 6 = 0 → dev ≠ s.devnum % 2 ^ 18 → s.route dev 0 = none → Alone u → ∃ t, exec i s = .next t ∧ TookException s t u 0xA4 0 e) ∧
    (v.extractLsb' 58 6 ≠ 0 → Alone u → ∃ t, exec i s = .next t ∧ TookException s t u 0x94 0 e) ∧
    (no = true → v.extractLsb' 58 6 = 0 → dev = s.devnum % 2 ^ 18 → ∀ r b o, HeldFor s r b o → o.unit ≠ u.id → o.id < s.ids →
      r.tag % 2 ^ 32 = (v.extractLsb' 0 32).toNat → r.die = (v.extractLsb' 32 4).toNat → r.unit = (v.extractLsb' 36 4).toNat →
      ∃ t w, exec i s = .next t ∧ t.refused o b r.cause ∧ t.replays = [] ∧ t.unit? u.id = some w ∧ (w.pc, w.widx) = u.place .seq)) ∧
  (∀ (s : State) (addr arg cmd : Word),
    let names := fun (r : Replay) => r.tag % 2 ^ 32 = (addr.extractLsb' 0 32).toNat ∧ r.die = (addr.extractLsb' 32 4).toNat ∧ r.unit = (addr.extractLsb' 36 4).toNat
    (∀ r a o, HeldFor s r a o → names r → ∃ t, s.runs (.imbFaultRefuse addr arg cmd) t ∧ t.refused o a r.cause ∧ t.replays = [] ∧
      Acknowledged s t cmd false) ∧
    (∀ r a o x size pte l p, HeldFor s r a o → names r →
      let at_ := { s with arg := some (.imbFaultRetry addr arg cmd) }
      at_.walk a.asid a.v57 a.kind.need a.super = (.ok x size pte l p, at_) →
      ∃ t, s.runs (.imbFaultRetry addr arg cmd) t ∧ t.replays = [] ∧ .heldRequestComplete a.id ∈ t.agenda ∧ Acknowledged s t cmd false) ∧
    ((∀ r ∈ s.replays, ¬names r) → (∃ t, s.runs (.imbFaultRetry addr arg cmd) t ∧ Acknowledged s t cmd false ∧ t.units = s.units ∧ t.mem = s.mem) ∧
      ∃ t, s.runs (.imbFaultRefuse addr arg cmd) t ∧ Acknowledged s t cmd false ∧ t.units = s.units ∧ t.mem = s.mem) ∧
    ∃ t, s.runs (.imbKindRejected addr arg cmd) t ∧ Acknowledged s t cmd true ∧ t.units = s.units ∧ t.mem = s.mem)

/-- A shootdown takes the next ticket; once its turn comes every cached leaf of its set is gone and no other, and it is over
when the accesses under way by then are: its mailbox request is acknowledged, and TLBSYNC, which blocks while one of its
ticket or an earlier one is in progress, but not on a ticket more than 2^31 behind the hub's, goes on (16 R354 to R359). Details of when a shootdown is over are the model's
reading (log 18). -/
def Obligations.ShootdownsRemoveTheirLeavesInTicketOrder : Prop :=
  (∀ (i : Instr) (d : Xr) (kind : Nat) (s : State) (o : OutWord), shootWord i = some (d, kind) → s.lateOut = some o →
    ∃ t x n, exec i s = .next t ∧ Completes s t o (o.toEach d s.hub.ticket) ∧ t.hub.ticket = (s.hub.ticket + 1) % 2 ^ 32 ∧
      t.hub.shoots = s.hub.shoots ++ [x] ∧ x.ticket = s.hub.ticket ∧ x.kind = kind ∧ x.base = o.val.toNat ∧ x.pages = (o.val2.extractLsb' 16 32).toNat ∧
      (kind < 2 → x.asid = (o.val2.extractLsb' 0 16).toNat) ∧ x.applied = false ∧ x.host = none ∧ (n, .shootdownComplete x.ticket) ∈ t.future ∧
      t.mem = s.mem ∧ t.units = s.units) ∧
  (∀ (h : Hdr) (a : Xr) (s : State) (u : HwUnit) (e : LaneSet), Ready (.tlbsync h a) s u e → e ≠ 0 →
    let v := (u.lane (topLane e u.n)).X a
    let waits := (s.hub.ticket + 2 ^ 32 - v.toNat) % 2 ^ 32 ≤ 2 ^ 31 ∧ ∃ x ∈ s.hub.shoots, (v.toNat + 2 ^ 32 - x.ticket) % 2 ^ 32 < 2 ^ 31
    (v.extractLsb' 32 32 = 0 → waits → u.wait = none → ∃ t, exec (.tlbsync h a) s = .next t ∧ Blocked s t u .sync) ∧
    (v.extractLsb' 32 32 = 0 → ¬waits → s.noDirtyL1 → ∃ t w, exec (.tlbsync h a) s = .next t ∧ t.unit? u.id = some w ∧ (w.pc, w.widx) = u.place .seq ∧
      w.lanes = u.lanes ∧ t.mem = s.mem) ∧
    (v.extractLsb' 32 32 ≠ 0 → Alone u → ∃ t, exec (.tlbsync h a) s = .next t ∧ TookException s t u 0x77 0 e)) ∧
  (∀ (s : State) (x : Shoot), s.hub.shoots.find? (fun y => y.ticket == x.ticket) = some x →
    (x.applied = false → s.l1 = [] → s.l2 = [] → s.replays = [] → s.accs = [] → ∃ t y n, s.runs (.shootdownComplete x.ticket) t ∧
      (∀ e, e ∈ t.tlb ↔ e ∈ s.tlb ∧ ¬x.covers e) ∧ t.hub.shoots.find? (fun z => z.ticket == x.ticket) = some y ∧ y = { x with applied := true, waits := [], backs := [] } ∧
      (n, .shootdownComplete x.ticket) ∈ t.future ∧ t.units = s.units) ∧
    (x.applied = true → (∀ i ∈ x.waits, s.acc? i = none) → s.wbufs = [] → ∃ t, s.runs (.shootdownComplete x.ticket) t ∧
      (∀ y ∈ t.hub.shoots, y.ticket ≠ x.ticket) ∧ (∀ u ∈ t.units, ∀ w, u.wait = some w → w.kind ≠ .sync) ∧
      ∀ seq irq vec, x.host = some (seq, irq, vec) → memRead (t.extMem .host) (s.hub.imbAck.toNat / 4 * 4) 4 = seq % 2 ^ 28 ∧
        t.msix = (if irq then [vec] else []) ++ s.msix ∧ t.hub.imbBusy = s.hub.imbBusy - 1)) ∧
  (∀ (ev : Ev) (kind asid base pages : Nat) (ok : Prop) (cmd : Word) (s : State), imbShootdown ev = some (kind, ok, asid, base, pages, cmd) →
    (ok → ∃ t x n, s.runs ev t ∧ t.hub.shoots = s.hub.shoots ++ [x] ∧ x.ticket = s.hub.ticket ∧ x.kind = kind ∧ x.asid = asid ∧ x.base = base ∧ x.pages = pages ∧
      x.host = some ((cmd.extractLsb' 0 28).toNat, cmd.getLsbD 31, (cmd.extractLsb' 32 11).toNat) ∧ (n, .shootdownComplete x.ticket) ∈ t.future ∧
      t.hub.ticket = (s.hub.ticket + 1) % 2 ^ 32) ∧
    (¬ok → ∃ t, s.runs ev t ∧ Acknowledged s t cmd true ∧ t.hub.shoots = s.hub.shoots))

/-! ### Reliability -/

/-- ERRB.add adds to the count of its context and answers the old one; each charge lowers it, and the one that exhausts it halts
the agent that made it: ERRB.rep at its word, a memory word as it completes, a command's team at its next clause; an access
that its charge ends takes 0x62 then, else 0x60 (15 R326, R331, R332). A bit error: a single one in SRAM is corrected; another leaves its place to fail as it is read, and touches nothing
else: of a block of memory only the bytes, of a bank only the pair of words, of a unit only the register (15 R324, R336; 07
R132). Who is charged in cases that the rules leave open is the model's reading (log 29), and what a failed place holds is
free (log 13). -/
def Obligations.ErrorsAreChargedAndTouchOnlyTheirPlace : Prop :=
  (∀ (h : Hdr) (d a : Xr) (s : State) (u : HwUnit) (e : LaneSet), Ready (.errbAdd h d a) s u e → e ≠ 0 →
    let v := (u.lane (topLane e u.n)).X a
    let old := s.errbudget u.ctx
    let n := (old.extractLsb' 0 32).toNat
    (v.extractLsb' 32 32 = 0 → ∃ t o new, exec (.errbAdd h d a) s = .next t ∧ Later (.errbAdd h d a) e (s.setErrbudget u.ctx new) t u u o ∧
      o.writes = toEachX u e d (BitVec.ofNat 64 n) ∧ (new.extractLsb' 0 32).toNat = min (n + v.toNat) (2 ^ 32 - 1) ∧ new.extractLsb' 32 32 = old.extractLsb' 32 32) ∧
    (v.extractLsb' 32 32 ≠ 0 → Alone u → ∃ t, exec (.errbAdd h d a) s = .next t ∧ TookException s t u 0x65 0 e)) ∧
  (∀ (h : Hdr) (s : State) (u : HwUnit) (e : LaneSet) (a : Xr), Ready (.errbRep h a) s u e → e ≠ 0 →
    let old := s.errbudget u.ctx
    let n := (old.extractLsb' 0 32).toNat
    (1 < n → ∃ t o, exec (.errbRep h a) s = .next t ∧ Later (.errbRep h a) e (s.setErrbudget u.ctx (old - 1)) t u u o ∧ o.writes = []) ∧
    (n ≤ 1 → Alone u → ∃ t w, exec (.errbRep h a) s = .next t ∧ t.unit? u.id = some w ∧ w.status = .halted ∧ (w.pc, w.widx) = u.place .seq ∧
      w.frec.getD 0 0 = msgDw0 0x62 u.asid false false false u.msgs ∧ w.frec.getD 1 0 = u.pc + BitVec.ofNat 64 (8 * u.widx) ∧
      (∃ o ∈ t.outw, o.unit = u.id ∧ o.instr = .errbRep h a ∧ o.due = true) ∧ ((t.errbudget u.ctx).extractLsb' 0 32 = 0) ∧
      (n = 1 → (t.errbudget u.ctx).getLsbD 63 = true))) ∧
  (∀ (s : State) (ctx lane widx : Nat) (pc : Word) (who : Option UKey) (cmd : Bool),
    let ev := Ev.errorCharge ctx who lane pc widx cmd 0
    let old := s.errbudget ctx
    (1 < (old.extractLsb' 0 32).toNat → s.runs ev { s.setErrbudget ctx (old - 1) with arg := some ev }) ∧
    ((old.extractLsb' 0 32).toNat ≤ 1 → ∀ u, who = some u.id → s.unit? u.id = some u →
      (cmd = true → ∃ t w, s.runs ev t ∧ t.unit? u.id = some w ∧ w.parkDue = u.team ∧ w.lanes = u.lanes ∧ w.status = u.status ∧ w.msgs = u.msgs + 1) ∧
      (cmd = false → ∀ o, s.outw = [o] → o.unit = u.id → o.pc = pc → o.widx = widx → ∃ t, s.runs ev t ∧ t.units = s.units ∧
        ∃ f, t.outw = [{ o with post := o.post ++ [f] }] ∧ f.cause = 0x62 ∧ f.lane = lane))) ∧
  (∀ (s : State) (ctx lane widx : Nat) (pc : Word) (who : Option UKey) (a : Acc) (o : OutWord), s.accs = [a] → a.id ≠ 0 → a.fault = 0 →
    a.owner = .out o.id → s.outw.find? (fun x => x.id == o.id) = some o → o.due = false → o.faults = [] →
    ∃ t, s.runs (.errorCharge ctx who lane pc widx false a.id) t ∧ t.refused o a (if ((s.errbudget ctx).extractLsb' 0 32).toNat ≤ 1 then 0x62 else 0x60)) ∧
  (∀ (s : State) (site : ErrSite), ((∃ c a, site = .sramSpad c a true) ∨ (∃ c n, site = .sramTile c n true) ∨ (∃ c p v k w, site = .sramL1 c p v k w true) ∨
    ∃ d v k w, site = .sramL2 d v k w true) → s.runs (.bitError site) { s with arg := some (.bitError site) }) ∧
  (∀ (s : State) (b : Nat) (r : Bool), 64 * b < deviceBytes → ∃ t, s.runs (.bitError (.block b r)) t ∧ t.units = s.units ∧
    (∀ x, x < 64 * b ∨ 64 * b + 64 ≤ x → memGet t.mem x = memGet s.mem x) ∧
    (s.cls (64 * b / granuleBytes) = .none → t.errs = s.errs) ∧
    (s.cls (64 * b / granuleBytes) ≠ .none → ∃ q, (b, q) ∈ t.errs) ∧
    (s.cls (64 * b / granuleBytes) = .full → r = true → t.mem = s.mem)) ∧
  (∀ (s : State) (c a : Nat), c < s.clusters.length → ∃ t, s.runs (.bitError (.sramSpad c a false)) t ∧ t.mem = s.mem ∧ t.units = s.units ∧
    a / 4 ∈ (t.cluster c).spadBad ∧ (∀ x, x < a / 8 * 8 ∨ a / 8 * 8 + 8 ≤ x → memGet (t.cluster c).spad x = memGet (s.cluster c).spad x) ∧
    ∀ k, k ≠ c → t.cluster k = s.cluster k) ∧
  (∀ (s : State) (u : HwUnit) (l : Nat) (r : Xr), s.unit? u.id = some u → r ≠ 0 → ∃ t w, s.runs (.bitError (.regX u.id l r)) t ∧ t.unit? u.id = some w ∧
    ⟨.x, l, r.toNat⟩ ∈ w.bad ∧ (∀ n q, n ≠ l ∨ q ≠ r → (w.lane n).X q = (u.lane n).X q) ∧ w.v = u.v ∧ t.mem = s.mem)

/-- RECLASS marks its two granules busy and completes once the class has changed: the data below the hole are kept, the hole of
FULL is zero, no other granule but the stage is touched, and no other class. RECLASS.rd answers the class and whether it is
changing. Operands that name no two free granules take 0x65 (15 R322, R333, R334). What is left of the stage is free (log
13). -/
def Obligations.ReclassingKeepsTheDataOfItsGranule : Prop :=
  (∀ (h : Hdr) (a b : Xr) (c : RClass) (s : State) (u : HwUnit) (e : LaneSet), Ready (.reclass h a b c) s u e → e ≠ 0 →
    let l := u.lane (topLane e u.n)
    let va := (l.X a).toNat
    let vb := (l.X b).toNat
    let g := va / granuleBytes
    let t := vb / granuleBytes
    let free := fun (x : Nat) => ∀ q ∈ s.gbusy, q.1 ≠ x ∧ q.2 ≠ x
    let ok := va % granuleBytes = 0 ∧ vb % granuleBytes = 0 ∧ va < deviceBytes ∧ vb < deviceBytes ∧ g ≠ t ∧ free g ∧ free t
    (ok → ∃ t' o n, exec (.reclass h a b c) s = .next t' ∧ Outstanding (.reclass h a b c) e s { t' with gbusy := s.gbusy, fresh := s.fresh, future := s.future } u u o ∧
      t'.gbusy = s.gbusy ++ [(g, t)] ∧ t'.future = s.future ++ [(n, .reclassComplete g t)] ∧ o.val = BitVec.ofNat 64 (classNumber c) ∧ o.val2 = BitVec.ofNat 64 g) ∧
    (¬ok → Alone u → ∃ t', exec (.reclass h a b c) s = .next t' ∧ TookException s t' u 0x65 0 e)) ∧
  (∀ (h : Hdr) (d a : Xr) (s : State) (u : HwUnit) (e : LaneSet), Ready (.reclassRd h d a) s u e → e ≠ 0 →
    let g := ((u.lane (topLane e u.n)).X a).toNat / granuleBytes
    ∃ t o v, exec (.reclassRd h d a) s = .next t ∧ Later (.reclassRd h d a) e s t u u o ∧ o.writes = toEachX u e d (BitVec.ofNat 64 v) ∧ v < 8 ∧
      (granuleBytes * (g + 1) ≤ deviceBytes → v = classNumber (s.cls g) + if ∃ q ∈ s.gbusy, q.1 = g ∨ q.2 = g then 4 else 0)) ∧
  (∀ (h : Hdr) (a b : Xr) (c : RClass) (s : State) (o : OutWord) (g k : Nat), s.outw = [o] → o.instr = .reclass h a b c → o.val2.toNat = g → o.due = false →
    o.val = BitVec.ofNat 64 (classNumber c) → s.txns = [] → s.dir = [] → s.l2 = [] → s.errs = [] → g ≠ k →
    (∀ x ∈ s.future, (∀ d f m ws bad acc, x.2 ≠ .dat d f m ws bad acc) ∧ ∀ d f m y acc, x.2 ≠ .fwd d f m y acc) →
    let inHole := fun (x : Nat) => granuleBytes * g + 0x380000 ≤ x ∧ x < granuleBytes * (g + 1)
    ∃ t, s.runs (.reclassComplete g k) t ∧ Completes s t o [] ∧ t.cls g = c ∧ (∀ x, x ≠ g → t.cls x = s.cls x) ∧ (g, k) ∉ t.gbusy ∧
      (∀ x, ¬inHole x → (x < granuleBytes * k ∨ granuleBytes * (k + 1) ≤ x) → memGet t.mem x = memGet s.mem x) ∧
      (∀ x, inHole x → memGet t.mem x = if c = .full ∨ s.cls g = .full then 0 else memGet s.mem x))

/-! ### Waiting -/

/-- Blocked words test again once what they wait for has changed or the interval has passed: a queue word when its queue allows
it, a group word when its phase has ended, and WAITM when there is a message go on, their clause fetched anew; a scratchpad
word whose bits are as it waits for them has its effect then; else the failed test is counted, and at the limit the word
takes its exception: 0x40, 0x82, 0x95, 0x3A (10 R204 to R206; 11 R216; 17 R372; 18 R411). The steps by which words wait are
the model's (log 26, log 40). -/
def Obligations.WaitersTryAgainUntilTheirLimit : Prop :=
  (∀ (s : State) (u : HwUnit) (w : Wait) (i : Instr) (q : Nat) (c : QWait), Waits s u w i → w.kind = .queue → qWaitOf i = some (q, c) →
    let ev := Ev.queueRetry u.id w.id
    s.due u w →
    ((u.qr q).holds c = true → ∃ t, s.runs ev t ∧ GoesOn s t u) ∧
    ((u.qr q).holds c = false → ¬s.atLimit u w → ∃ t, s.runs ev t ∧ WaitsOn s t u w ev) ∧
    ((u.qr q).holds c = false → s.atLimit u w → Whole s u → u.exec i.hdr ≠ 0 →
      ∃ t n, s.runs ev t ∧ TookException s t u 0x40 n (u.exec i.hdr))) ∧
  (∀ (s : State) (u : HwUnit) (w : Wait) (i : Instr) (idx : Nat) (ph : Bool) (g : Group), Waits s u w i → w.kind = .group ph →
    u.arr = some (idx, ph) → s.group? u.cluster idx = some g →
    let ev := Ev.groupWaitRetry u.id w.id
    s.due u w →
    (g.phase ≠ ph → ∃ t, s.runs ev t ∧ GoesOn s t u) ∧ (g.phase = ph → ¬s.atLimit u w → ∃ t, s.runs ev t ∧ WaitsOn s t u w ev) ∧
    (g.phase = ph → s.atLimit u w → Alone u → u.exec i.hdr ≠ 0 → ∃ t, s.runs ev t ∧ TookException s t u 0x82 0 (u.exec i.hdr))) ∧
  (∀ (s : State) (u : HwUnit) (w : Wait) (i : Instr), Waits s u w i → w.kind = .inbox →
    let ev := Ev.waitmTimedRetry u.id w.id
    let none_ := u.inbox = [] ∨ u.pending = false
    s.due u w →
    (¬none_ → ∃ t, s.runs ev t ∧ GoesOn s t u) ∧ (none_ → ¬s.atLimit u w → ∃ t, s.runs ev t ∧ WaitsOn s t u w ev) ∧
    (none_ → s.atLimit u w → Alone u → u.exec i.hdr ≠ 0 → ∃ t, s.runs ev t ∧ TookException s t u 0x95 0 (u.exec i.hdr))) ∧
  (∀ (s : State) (u : HwUnit) (w : Wait) (i : Instr) (q : SpadReq) (b : Bool) (f : FeWait) (ev : Ev), Waits s u w i → w.kind = .fe → w.faults = [] →
    spadReq i = some q → q.wait = some b → AloneAtBank s u → u.lanes.length = 1 → u.exec i.hdr = 1 →
    let c := s.cluster u.cluster
    let l := u.lane 0
    let ea := (q.ea l).toNat
    c.feWaits = [f] → { f with last := 0, fails := 0, poked := false } = ⟨u.id, w.id, false, 0, ea, q.n l, 0, 0, false, false⟩ →
    (f.poked = true ∨ f.last + 64 * (c.waitlim.extractLsb' 32 12).toNat ≤ s.now) → (ev = .feTimedRetry u.id w.id ∨ ev = .feWaiterRetry u.id w.id) →
    ea < 0x200000 → (∀ k, k < q.n l → s.mayUse u (ea + k)) → ea % q.align = 0 →
    ((∀ x, touches ea (q.n l) x → c.full.contains x = b) → ∃ t v o n, s.runs ev t ∧ t.unit? u.id = some v ∧ v.wait = none ∧
      (v.pc, v.widx) = u.place .seq ∧ v.clause = none ∧ v.done = 0 ∧ t.outw = s.outw ++ [o] ∧ o.unit = u.id ∧ o.instr = i ∧ o.faults = [] ∧ o.writes = [] ∧
      (n, .wordComplete o.id) ∈ t.future ∧ (t.cluster u.cluster).feWaits = [] ∧
      (∀ r : Xr, (v.lane 0).X r = match q.out with
        | some (d, f) => if r = d ∧ r ≠ 0 then f (memRead c.spad ea (q.n l)) else l.X r
        | none => l.X r) ∧
      (∀ a, memGet (t.cluster u.cluster).spad a = if ea ≤ a ∧ a < ea + q.n l then
        ((q.new l (memRead c.spad ea (q.n l))).map (fun v => BitVec.ofNat 8 (v / 256 ^ (a - ea)))).getD (memGet c.spad a) else memGet c.spad a) ∧
      (∀ x, touches ea (q.n l) x → (t.cluster u.cluster).full.contains x = q.leave.getD (c.full.contains x)) ∧ t.mem = s.mem) ∧
    ((∃ x, touches ea (q.n l) x ∧ c.full.contains x ≠ b) → ¬s.atLimit u w → ∃ t, s.runs ev t ∧
      t.unit? u.id = some { u with wait := some { w with fails := w.fails + 1, last := s.now, poked := false } } ∧
      (let g : FeWait := ⟨u.id, w.id, false, 0, ea, q.n l, 0, s.now, false, false⟩; (t.cluster u.cluster).feWaits = [g] ∧ FeTests u g) ∧
      (t.cluster u.cluster).spad = c.spad ∧ (t.cluster u.cluster).full = c.full ∧ t.mem = s.mem ∧ ∀ k, k ≠ u.id → t.unit? k = s.unit? k) ∧
    ((∃ x, touches ea (q.n l) x ∧ c.full.contains x ≠ b) → s.atLimit u w → u.status = .running → u.widx ≠ 0 →
      ∃ t, s.runs ev t ∧ TookException s t u 0x3A 0 1))

/-- Steps after an interval or a wait: a reservation ends 1,024 cycles after its LDLK; a waiter of a barrier object tests again,
once its tests before have ended, when the object has completed a phase or the interval has passed; the stopes of a die fade; a scratchpad store whose release is
performed acts at its bank; an allocation whose copies have landed is free, with its bank's format (10 R195, R202; 13 R273,
R274, R293; 17 R367; 22 R447). -/
def Obligations.IntervalsAndWaitsEnd : Prop :=
  (∀ (s : State) (u : HwUnit) (n : Nat) (r : Resv), s.unit? u.id = some u → n < u.lanes.length → n < 1024 → (u.lane n).resv = some r →
    ∃ t w, s.runs (.reservationTimeout u.id n r.id) t ∧ t.unit? u.id = some w ∧ { w with lanes := u.lanes } = u ∧
      (∀ m, m ≠ n → w.lane m = u.lane m) ∧ w.lane n = (if r.atC + 1024 ≤ s.now then { u.lane n with resv := none } else u.lane n) ∧
      (∀ k, k ≠ u.id → t.unit? k = s.unit? k) ∧ t.mem = s.mem) ∧
  (∀ (s : State) (u : HwUnit) (w : Wait), s.unit? u.id = some u → u.wait = some w → w.kind = .barrier →
    let ev := Ev.barrierWaitRetry u.id w.id
    let mine := fun (b : BarWait) => b.unit == u.id && b.id == w.id
    let due := (∃ b ∈ s.barWaits, mine b = true) ∧ (∀ a ∈ s.accs, a.owner = .unit u.id → a.complete = true ∨ a.fault ≠ 0) ∧
      ((∃ b ∈ s.barWaits, mine b = true ∧ b.woken = true) ∨ w.last + 64 * ((s.cluster u.cluster).waitlim.extractLsb' 32 12).toNat ≤ s.now)
    (due → s.runs ev (({ s with arg := some ev, barWaits := s.barWaits.filter (fun b => !mine b) } : State).addAccs
      ((s.barWaits.filter mine).map (·.test)))) ∧
    (¬due → s.runs ev { s with arg := some ev })) ∧
  (∀ (s : State) (die : Nat), die < 4 →
    let iv := (s.fadeint.toList.getD die 0).toNat
    iv ≠ 0 → ∃ t, s.runs (.fadeInterval die) t ∧ (s.now + 2 * iv, .fadeInterval die) ∈ t.future ∧
      (∀ x ∈ s.stopes, (x.die ≠ die → x.fade ≠ 0 → x ∈ t.stopes) ∧ (x.die = die → x.hit = true → { x with fade := 255, hit := false } ∈ t.stopes) ∧
        (x.die = die → x.hit = false → 1 < x.fade → { x with fade := x.fade - 1 } ∈ t.stopes)) ∧
      (∀ y ∈ t.stopes, ∃ x ∈ s.stopes, (y.die, y.asid, y.base, y.frames) = (x.die, x.asid, x.base, x.frames) ∧
        (x.die = die → x.hit = true ∨ 1 < x.fade)) ∧ t.mem = s.mem) ∧
  (∀ (s : State) (a : Acc) (o : OutWord) (u : HwUnit) (h : Hdr) (w : Wd) (b ra : Xr) (imm : BitVec 24), s.accs = [a] → a.kind = .spad →
    a.owner = .out o.id → a.unit = some u.id → s.unit? u.id = some u → s.outw.find? (fun x => x.id == o.id) = some o →
    o.instr = .stsx h w b ra imm → o.due = false → a.told = false → a.need ≤ 6 → a.acq = none → a.dst = none → a.asid = u.asid → a.super = u.super →
    a.n = wdBytes w → a.va < 0x200000 → (∀ k, k < a.n → s.mayUse u (a.va + k)) → a.va % a.n = 0 → u.cluster < s.clusters.length →
    ∃ t x, s.runs (.outstandingFeStep a.id) t ∧ x ∈ t.outw ∧ x.id = o.id ∧ x.due = true ∧ x.faults = o.faults ∧ x.writes = o.writes ∧
      (∀ k, memGet (t.cluster u.cluster).spad k =
        if a.va ≤ k ∧ k < a.va + a.n then BitVec.ofNat 8 (a.arg / 256 ^ (k - a.va)) else memGet (s.cluster u.cluster).spad k) ∧
      (∀ x, (t.cluster u.cluster).full.contains x = true ↔ (touches a.va a.n x ∨ (s.cluster u.cluster).full.contains x = true)) ∧ t.mem = s.mem) ∧
  (∀ (s : State) (c : Nat) (x : Alloc) (o : OutWord) (h : Hdr) (a : Xr), c < s.clusters.length → x ∈ (s.cluster c).allocs → x.live = false →
    x.base < 0x200000 →
    ((∃ cl ∈ s.clusters, ∃ ch ∈ cl.chans, ∃ k ∈ ch.cmds, k.lands c x.base = true) →
      ∃ t n, s.runs (.sfreeComplete c x.base) t ∧ (n, .sfreeComplete c x.base) ∈ t.future ∧ t.clusters = s.clusters ∧ t.outw = s.outw) ∧
    ((∀ cl ∈ s.clusters, ∀ ch ∈ cl.chans, ∀ k ∈ ch.cmds, k.lands c x.base = false) → o ∈ s.outw → o.unit.cluster = c → o.val.toNat = x.base →
      o.due = false → o.instr = .sfree h a → (∀ y ∈ s.outw, y.unit.cluster = c → y.val.toNat = x.base → y = o) →
      ∃ t, s.runs (.sfreeComplete c x.base) t ∧ Completes s t o [] ∧ (t.cluster c).allocs = (s.cluster c).allocs.filter (fun y => y.base != x.base) ∧
        (∀ b, b < 16 → (t.cluster c).bf.toList.getD b 0 =
          if b = x.base / 131072 ∧ (∀ y ∈ (s.cluster c).allocs, y.base ≠ x.base → y.base / 131072 ≠ b) then 0x14
          else (s.cluster c).bf.toList.getD b 0) ∧ (t.cluster c).spad = (s.cluster c).spad ∧ t.mem = s.mem))

/-! ### Fetch, issue and completion -/

/-- A clause is fetched, header first; a whole one is kept where it passes its check, else its unit takes the exception with the
lowest cause; a target that is not canonical takes 0x70 (02 R15, R16, R23, R39; 16 R344). A clause that does not follow one
which has retired in this cycle is seen by the issue slots from the next cycle on (06 R111). How the parts of a fetch follow
one another is the model's reading (log 21). -/
def Obligations.ClausesAreFetchedAndChecked : Prop :=
  ∀ (s : State) (u : HwUnit), s.unit? u.id = some u → u.able = true → u.clause = none → u.fetching = false →
    let at_ := u.pc.toNat % 2 ^ 57
    (IsCanonical u.pc → u.fbuf = [] → s.accs = [] → s.l1 = [] → s.l2 = [] → s.tlb = [] → ∃ t a n, s.runs (.clauseFetch u.id) t ∧ t.accs = [a] ∧
      a.kind = .fetch ∧ a.owner = .fetch u.id ∧ a.va = u.pc.toNat ∧ a.n = 8 ∧ a.stage = .walk ∧ (n, .translationWalk a.id) ∈ t.future ∧
      t.unit? u.id = some { u with fetching := true } ∧ t.mem = s.mem) ∧
    (IsCanonical u.pc → ∀ hd ws, u.fetched at_ = some hd → ws.length = (hd.extractLsb' 60 4).toNat + 1 →
      (∀ j, j < ws.length → u.fetched (at_ + 8 * (j + 1)) = ws[j]?) →
      (ClauseCause ⟨u.pc, hd, ws⟩ 0 → ∃ t, s.runs (.clauseFetch u.id) t ∧
        t.unit? u.id = some { u with clause := some ⟨u.pc, hd, ws⟩, begun := false, fbuf := [], seenIdle := u.seenIdle || !u.turned } ∧ t.mem = s.mem ∧
        ∀ k, k ≠ u.id → t.unit? k = s.unit? k) ∧
      (∀ cause, cause ≠ 0 → ClauseCause ⟨u.pc, hd, ws⟩ cause → u.team = false → u.n = 1 → u.active = 1 →
        ∃ t, s.runs (.clauseFetch u.id) t ∧ Stopped s t u cause 0)) ∧
    (¬IsCanonical u.pc → u.team = false → u.n = 1 → u.active = 1 → ∃ t, s.runs (.clauseFetch u.id) t ∧ Stopped s t u 0x70 0)

/-- The issue slots: of a pipeline in split mode the next ready slot after the last that issued; of a harness the team that the
arbiter chooses, with the oldest that may pair with it; an urgent team takes the slot from the team that has it, which resumes
at its next word; a team with 64 sparse passes is split between clauses where its policy says so (05 R85, R104; 06 R113, R115, R118, R119). -/
def Obligations.IssueSlotsAreGrantedInTurn : Prop :=
  (∀ (s : State) (c p j : Nat) (u : HwUnit), j < 8 →
    let sl := (s.lastOf c p + 1 + j) % 8
    s.at? c p sl false = some u → s.threadReady u = true →
    (∀ k, k < j → ∀ v, s.at? c p ((s.lastOf c p + 1 + k) % 8) false = some v → s.threadReady v = false) →
    ∃ t, s.runs (.splitIssue c p) t ∧ (∀ g, g ∈ t.grants ↔ g ∈ s.grants ∨ g = (u.id, none)) ∧ t.lastOf c p = sl ∧
      (∀ c' p', (c', p') ≠ (c, p) → t.lastOf c' p' = s.lastOf c' p') ∧ { t with grants := s.grants, lastSlot := s.lastSlot, arg := s.arg } = s) ∧
  (∀ (s : State) (c b : Nat) (h : Harness), s.harness? c b = some h → h.pair = none → h.curSlot < 8 →
    let pol := (s.cluster h.cluster).issuepol
    let rd := (s.teamsOf c b).filter HwUnit.ready
    (∀ v ∈ rd, s.unit? v.id = some v ∧ v.slot < 8) →
    (rd ≠ [] → ∃ t h' m, s.runs (.issueArbitration c b) t ∧ t.harness? c b = some h' ∧ Chosen h pol rd m ∧ h'.holder = some m.id ∧
      (∀ q, h'.pair = some q → ∃ v ∈ rd, v.id = q ∧ MayPair h pol m v ∧ (∀ x ∈ rd, MayPair h pol m x → v.order ≤ x.order) ∧
        h'.cur = some (if v.order < m.order then v.id else m.id)) ∧
      (h'.pair = none → (∀ v ∈ rd, ¬MayPair h pol m v) ∧ h'.cur = some m.id ∧ h'.curSlot = m.slot ∧
        t.unit? m.id = some { m with run := if h.cur = some m.id then m.run else 0, yielded := false }) ∧ t.mem = s.mem) ∧
    (rd = [] → ∃ t h', s.runs (.issueArbitration c b) t ∧ t.harness? c b = some h' ∧ h'.holder = none ∧ h'.cur = h.cur ∧ t.units = s.units)) ∧
  (∀ (s : State) (c b : Nat) (h : Harness) (u v : HwUnit), s.harness? c b = some h → s.at? c b 7 true = some u → u.ready = true →
    u.issued1 = false → h.holder = some v.id → h.pair = none → s.unit? v.id = some v → v.id ≠ u.id →
    ∃ t h', s.runs (.urgentFirstClause c b) t ∧ t.harness? c b = some h' ∧ h'.holder = some u.id ∧ h'.pair = none ∧
      t.unit? v.id = some { v with clause := none, begun := false } ∧ ∀ k, k ≠ v.id → t.unit? k = s.unit? k) ∧
  (∀ (s : State) (u : HwUnit), s.unit? u.id = some u →
    let due := u.splitpol.getLsbD 7 = true ∧ 64 ≤ u.sparse ∧ s.splittable u = true ∧ u.able = true ∧ u.begun = false ∧ u.widx = 1
    ∃ t, s.runs (.autoSplit u.id) t ∧ t.unit? u.id = some { u with split := if due then some [] else u.split } ∧
      (∀ k, k ≠ u.id → t.unit? k = s.unit? k) ∧ t.mem = s.mem)

/-- A word that completes writes its registers and its flags, its counter falls by one, the format of a bank or the release of
slots takes effect; a fault that it brings halts its thread at the next word that has not issued (02 R24; 08 R154; 10 R199; 12
R242; 18 R399). -/
def Obligations.WordsThatCompleteWriteAndCountDown : Prop :=
  ∀ (s : State) (o : OutWord) (u : HwUnit), s.outw.find? (fun x => x.id == o.id) = some o → s.unit? o.unit = some u → u.id = o.unit →
    u.resident = true → o.post = [] → o.slot.toNat ≤ 6 → u.wait = none →
    (o.faults = [] → ∃ t w, s.runs (.wordComplete o.id) t ∧ t.unit? u.id = some w ∧ t.outw = s.outw.filter (fun x => x.id != o.id) ∧
      (∀ k : BitVec 3, k ≠ 0 → k.toNat ≤ 6 → w.counter k = if k = o.slot then u.counter k - (if u.counter k = 0 then 0 else 1) else u.counter k) ∧
      w.fpstat = u.fpstat ||| o.flags.setWidth 64 ∧ (w.pc, w.widx) = (u.pc, u.widx) ∧ w.status = u.status ∧
      (o.writes = [] → w.lanes = u.lanes ∧ w.v = u.v) ∧
      (∀ n r v, o.writes = [.x n r v] → n < u.lanes.length → n < 1024 →
        (∀ m q, (w.lane m).X q = if m = n ∧ q = r ∧ q ≠ 0 then v else (u.lane m).X q) ∧ w.v = u.v) ∧
      (∀ n r v, o.writes = [.p n r v] → n < u.lanes.length → n < 1024 →
        (∀ m q, (w.lane m).P q = if m = n ∧ q = r ∧ q ≠ 0 then v else (u.lane m).P q) ∧ w.v = u.v) ∧
      (∀ r v, o.writes = [.v r v] → (∀ q, w.V q = if q = r then v else u.V q) ∧ w.lanes = u.lanes) ∧
      (∀ k, k ≠ u.id → t.unit? k = s.unit? k) ∧ t.mem = s.mem ∧
      (∀ h bf a, o.instr = .sfmtWrite h bf a → u.id.cluster < s.clusters.length →
        ∀ b, b < 16 → (t.cluster u.id.cluster).bf.toList.getD b 0 = if b = bf.toNat then o.val else (s.cluster u.id.cluster).bf.toList.getD b 0) ∧
      (∀ h c, o.instr = .trel h c → u.id.cluster < s.clusters.length →
        (t.cluster u.id.cluster).tiles = (s.cluster u.id.cluster).tiles.filter (fun x => !o.val.getLsbD x.slot))) ∧
    (∀ f, o.faults = [f] → u.team = false → u.status = .running → o.writes = [] →
      ∃ t, s.runs (.wordComplete o.id) t ∧ Stopped s t u f.cause f.lane ∧ t.outw = s.outw.filter (fun x => x.id != o.id))

/-! ### The directory and the dies -/

/-- The directory at an entry that is not busy: what it answers RDS, RDO, STW, SUBSCR, UNSUB, EVC and WBK, and what its record
becomes: words come from a clean home or from the owner that holds them, which is recalled for an RDO or a store; the home die's own
request without an entry is answered by its memory. A request for a busy entry waits; a failed slice refuses, and the requester tries
again later (13 R276 to R286, Table 13-8). How the directory reaches outcomes of which only the end is given is the model's reading
(log 16). -/
def Obligations.DirectoryServesRequests : Prop :=
  (∀ (s : State) (pf : PAddr) (die acc : Nat) (m : Mask), DirIdle s pf → s.wbufs = [] → s.accs = [] → die < 4 →
    (s.dir = [] → s.home pf ≠ die → ∃ t e, s.runs (.rds die pf m acc) t ∧ s.sendsDat t die pf m .exact acc ∧ t.entry? pf = some e ∧
      e.st = .s ∧ e.busy = true ∧ e.home = s.home pf ∧ e.sharer e.home = ⟨0xFFFFFFFF, .exact, false, false⟩ ∧
      e.sharer die = ⟨m, .exact, false, false⟩ ∧ e.onlyOf [die, e.home] 0xFFFFFFFF) ∧
    (s.entry? pf = none → s.home pf = die → ∃ t, s.runs (.rds die pf m acc) t ∧ t.dir = s.dir ∧ t.future = s.future ∧
      t.dirBits = s.dirBits.filter (· != pf)) ∧
    (∀ e, s.entry? pf = some e → e.busy = false → (e.sharer die).fmt = .exact →
      let y := (e.sharer e.owner).mask
      (e.st = .s ∨ e.owner = die ∨ m &&& y = 0 → ∃ t e', s.runs (.rds die pf m acc) t ∧ s.sendsDat t die pf m .exact acc ∧ t.entry? pf = some e' ∧
        e'.st = e.st ∧ e'.owner = e.owner ∧ e'.busy = true ∧
        e'.sharer die = { e.sharer die with mask := (e.sharer die).mask ||| m } ∧ ∀ x, x ≠ die → e'.sharer x = e.sharer x) ∧
      (e.st ≠ .s → e.owner ≠ die → m &&& y ≠ 0 → ∃ t e' n, s.runs (.rds die pf m acc) t ∧ s.now < n ∧
        (n, .fwd e.owner pf m die acc) ∈ t.future ∧ t.entry? pf = some e' ∧ e'.busy = true ∧ e'.st = (if e.st = .e then .s else .o) ∧
        e'.sharer die = { e.sharer die with mask := (e.sharer die).mask ||| m } ∧ ∀ x, x ≠ die → e'.sharer x = e.sharer x) ∧
      (e.st = .s ∨ e.st ≠ .o ∧ e.owner = die → (∀ x, (e.sharer x).fmt = .exact) →
        let owned := fun (e' : DirEnt) => e'.st = (if e.st = .m then .m else .e) ∧ e'.owner = die ∧ e'.own = e.own ||| m ∧ e'.busy = true ∧
          e'.sharer die = { e.sharer die with mask := (e.sharer die).mask ||| m, mode := false }
        (e.onlyOf [die] m → ∃ t e', s.runs (.rdo die pf m acc) t ∧ s.sendsDat t die pf m .exact acc ∧ t.entry? pf = some e' ∧ owned e') ∧
        (¬e.onlyOf [die] m → (∀ x, (e.sharer x).sub = false) → ∃ t e' tx k, s.runs (.rdo die pf m acc) t ∧
          ⟨tx, pf, k, .grant (.rdo die pf m acc)⟩ ∈ t.txns ∧ t.entry? pf = some e' ∧ owned e' ∧
          (∀ x, x < 6 → x ≠ die → (e.sharer x).mask &&& m ≠ 0 → (e'.sharer x).mask = (e.sharer x).mask &&& ~~~m ∧
            ∃ n, s.now < n ∧ (n, .inv x pf ((e.sharer x).mask &&& m) tx) ∈ t.future))) ∧
      (let k := if e.st = .o then y else m
       e.st ≠ .s → e.st = .o ∨ e.owner ≠ die → y &&& k ≠ 0 → ∃ t e' tx n, s.runs (.rdo die pf m acc) t ∧ s.now < n ∧
        (n, .rcl e.owner pf (y &&& k)) ∈ t.future ∧ ⟨tx, pf, 1, .again (.rdo die pf m acc)⟩ ∈ t.txns ∧ t.entry? pf = some e' ∧
        e'.st = .s ∧ e'.busy = true ∧
        e'.sharer e.owner = if y &&& ~~~k = 0 then Sharer.none else { e.sharer e.owner with mask := y &&& ~~~k }))) ∧
  (∀ (s : State) (pf : PAddr) (die off n v : Nat) (a : Acc) (x : Xl) (ws : List W32), DirIdle s pf → s.wbufs = [] → s.accs = [a] → a.kind = .store → a.xl = some x → x.pf = pf →
    die < 4 → (n = 1 ∨ n = 2 ∨ n = 4 ∨ n = 8) → off % n = 0 → off + n ≤ 128 → a.puts = putsOf off n v →
    let wrote := fun (t : State) => ∀ b, memGet t.mem b =
      if pf.addr * 128 + off ≤ b ∧ b < pf.addr * 128 + off + n then BitVec.ofNat 8 (v / 256 ^ (b - pf.addr * 128 - off)) else memGet s.mem b
    (s.entry? pf = none → ∃ t tx k, s.runs (.stw die pf (putMask a.puts) ws a.id) t ∧ wrote t ∧ s.now < k ∧ (k, .ack tx) ∈ t.future ∧
      ⟨tx, pf, 1, .serial a.id true⟩ ∈ t.txns) ∧
    (∀ e, s.entry? pf = some e → e.busy = false → e.st ≠ .s → (e.sharer e.owner).mask &&& putMask a.puts ≠ 0 →
      ∃ t tx k, s.runs (.stw die pf (putMask a.puts) ws a.id) t ∧ t.mem = s.mem ∧ s.now < k ∧
        (k, .rcl e.owner pf ((e.sharer e.owner).mask &&& putMask a.puts)) ∈ t.future ∧
        ⟨tx, pf, 1, .again (.stw die pf (putMask a.puts) ws a.id)⟩ ∈ t.txns) ∧
    (∀ e, s.entry? pf = some e → e.busy = false → e.st = .s → n = 4 → ∃ t tx k b, s.runs (.stw die pf (putMask a.puts) ws a.id) t ∧ wrote t ∧
      s.now < k ∧ (k, .ack tx) ∈ t.future ∧ ⟨tx, pf, 1, .serial a.id b⟩ ∈ t.txns ∧
      ∀ y, y < 6 →
        let r := e.sharer y
        let sees := e.sees die y (off / 4) (s.frameWord pf (off / 4)) (BitVec.ofNat 32 v)
        (sees → r.mode = true → ∃ k q, (k, .upd y pf (off / 4) (heldAs r.fmt (BitVec.ofNat 32 v)) false q) ∈ t.future) ∧
        (sees → r.mode = false → ∃ k q z, z.getLsbD (off / 4) = true ∧ (k, .inv y pf z q) ∈ t.future) ∧
        (¬sees → (∀ k i z bad q, (k, .upd y pf i z bad q) ∈ t.future → (k, .upd y pf i z bad q) ∈ s.future) ∧
          ∀ k z q, (k, .inv y pf z q) ∈ t.future → (k, .inv y pf z q) ∈ s.future))) ∧
  (∀ (s : State) (pf : PAddr) (die : Nat) (m : Mask) (f : AssayFmt) (mode : Bool) (a : Acc), DirIdle s pf → s.wbufs = [] → s.accs = [a] → a.kind = .subscr f mode →
    s.dir = [] → die < 4 → s.home pf ≠ die →
    ∃ t e, s.runs (.upg die pf m f mode a.id) t ∧ s.sendsDat t die pf m f a.id ∧ t.entry? pf = some e ∧ e.st = .s ∧ e.busy = true ∧
      e.sharer die = ⟨m, f, mode, true⟩ ∧ t.accs = [{ a with cmp := 3 }]) ∧
  (∀ (s : State) (pf : PAddr) (die acc : Nat) (m : Mask) (e : DirEnt), DirIdle s pf → s.wbufs = [] → s.accs = [] → die < 4 → s.entry? pf = some e → e.busy = false →
    let r := e.sharer die
    let gone := fun (t : State) => t.entry? pf = none
    let less := if r.mask &&& ~~~m = 0 then Sharer.none else { r with mask := r.mask &&& ~~~m }
    let shared := ∃ x, x < 6 ∧ x ≠ die ∧ x ≠ e.home ∧ (e.sharer x).mask ≠ 0
    (e.st = .s → r.mask &&& ~~~m = 0 → e.onlyOf [die, e.home] 0xFFFFFFFF → ∃ t n, s.runs (.uns die pf m acc) t ∧ gone t ∧ s.now < n ∧
      (n, .dat die pf m [] 0 acc) ∈ t.future) ∧
    (e.st = .s → shared → ∃ t e' n, s.runs (.uns die pf m acc) t ∧ t.entry? pf = some e' ∧
      e'.sharer die = less ∧ (∀ x, x ≠ die → e'.sharer x = e.sharer x) ∧ (n, .dat die pf m [] 0 acc) ∈ t.future) ∧
    (e.st ≠ .s → ∃ t n, s.runs (.uns die pf m acc) t ∧ t.entry? pf = some e ∧ (n, .dat die pf 0 [] 0 acc) ∈ t.future) ∧
    (e.st = .s ∨ e.st ≠ .o ∧ e.owner = die → r.sub = false → shared → ∃ t e', s.runs (.evc die pf m) t ∧ t.entry? pf = some e' ∧ e'.st = .s ∧
      e'.sharer die = less ∧ ∀ x, x ≠ die → e'.sharer x = e.sharer x) ∧
    (r.sub = true ∨ e.st = .o ∧ e.owner = die → ∃ t, s.runs (.evc die pf m) t ∧ t.entry? pf = some e) ∧
    (∀ ws, let freed := fun (t : State) => t.mem = s.mem ∧ ∃ tx n, s.now < n ∧ (n, .ack tx) ∈ t.future ∧ ⟨tx, pf, 1, .freed die⟩ ∈ t.txns
      (e.st ≠ .s → e.owner = die → r.mask = m → e.onlyOf [die, e.home] 0xFFFFFFFF → ∃ t, s.runs (.wbk die pf m ws) t ∧ gone t ∧ freed t) ∧
      (e.st = .s ∨ e.owner ≠ die → ∃ t, s.runs (.wbk die pf m ws) t ∧ t.entry? pf = some e ∧ freed t))) ∧
  (∀ (s : State) (pf : PAddr) (die : Nat) (m : Mask) (ws : List W32) (e : DirEnt) (b : WbEnt), DirIdle s pf → s.wbufs = [b] → die < 4 → s.entry? pf = some e →
    e.busy = false → b.die = die → b.pf = pf → b.m ≠ 0 → b.poison = 0 → e.st ≠ .s → e.owner = die → (e.sharer die).mask = m → e.onlyOf [die, e.home] 0xFFFFFFFF →
    ∃ t tx n, s.runs (.wbk die pf m ws) t ∧ s.wroteFrame t pf b.m (fun i => b.words.toList.getD i 0) ∧ t.wbufs = [{ b with m := 0 }] ∧
      t.entry? pf = none ∧ s.now < n ∧ (n, .ack tx) ∈ t.future ∧ ⟨tx, pf, 1, .freed die⟩ ∈ t.txns) ∧
  (∀ (s : State) (pf : PAddr) (die acc : Nat) (m : Mask) (e : DirEnt), DirIdle s pf → s.entry? pf = some e → e.busy = true →
    ∃ t, s.runs (.rds die pf m acc) t ∧ t.dirWait = [(pf, .rds die pf m acc)] ∧ t.dir = s.dir ∧ t.future = s.future) ∧
  (∀ (s : State) (pf : PAddr) (die acc : Nat) (m : Mask), s.dirWait = [] → s.sliceDown pf = true → s.nakCount = [] →
    ∃ t, s.runs (.rdo die pf m acc) t ∧ t.dir = s.dir ∧ t.future = s.future ++ [(s.now + 64, .nakRetry s.ids)] ∧
      t.naks = s.naks ++ [(s.ids, 1, .rdo die pf m acc)]) ∧
  (∀ (s : State) (id k die : Nat) (pf : PAddr) (m : Mask) (ws : List W32), s.naks = [(id, k, .wbk die pf m ws)] →
    ∃ t, s.runs (.nakRetry id) t ∧ t.naks = [] ∧ t.agenda = s.agenda ++ [.wbk die pf m ws]) ∧
  (∀ (s : State) (n : Nat), n < 16 → s.slicesDown = [] → s.dirWait = [] → s.l1 = [] → s.l2 = [] → s.wbufs = [] → s.txns = [] →
    ∃ t k q d0 d1 d2 d3, s.runs (.directorySliceFailure n) t ∧ t.slicesDown = [n] ∧ t.dir = s.dir.filter (fun e => dirSliceOf e.pf != n) ∧
      (∀ pf, pf ∈ t.dirBits ↔ pf ∈ s.dirBits ∨ ∃ e ∈ s.dir, e.pf = pf ∧ dirSliceOf pf = n ∧ e.home < 4) ∧
      (k, .eventRecordWrite (.num (16 + n)) q d0 d1 d2 d3 0x58) ∈ t.future)

/-- What a die does at a message of the directory: INV and RCL take words out of its slice, dirty ones going home; UPD changes a
clean word, with its poison; FWD is served from the owner's dirty words; DAT reaches the access that asked; an acknowledgement counts, and
the last one ends its transaction (13 R269, R277, R278, R280, R281, R285, R294). How a die reaches outcomes of which only
the end is given is the model's reading (log 16). -/
def Obligations.DiesAnswerTheDirectory : Prop :=
  (∀ (s : State) (die : Nat) (pf : PAddr) (l : L2Line) (m : Mask) (tx : Nat), OneLine s die pf l →
    let given := fun (t : State) => (∃ k, t.l2 = [k] ∧ k.words = l.words ∧ ∀ i, i < 32 → k.stAt i = if m.getLsbD i then .i else l.stAt i) ∧
      (∀ i, i < 32 → t.frameWord pf i = if m.getLsbD i = true ∧ l.stAt i = .d then l.words.toList.getD i 0 else s.frameWord pf i) ∧ t.dir = s.dir
    (∃ t n, s.runs (.inv die pf m tx) t ∧ given t ∧ s.now < n ∧ (n, .ack tx) ∈ t.future) ∧
    (s.txns = [⟨tx, pf, 1, .victim⟩] → ∃ t n, s.runs (.rcl die pf m) t ∧ given t ∧ s.now < n ∧ (n, .ack tx) ∈ t.future)) ∧
  (∀ (s : State) (die : Nat) (pf : PAddr) (l : L2Line) (e : DirEnt) (w : Nat) (v : W32) (tx : Nat), OneLine s die pf l → s.entry? pf = some e → w < 32 →
    ∀ bad, ∃ t k n, s.runs (.upd die pf w v bad tx) t ∧ t.l2 = [k] ∧ k.st = l.st ∧ s.now < n ∧ (n, .ack tx) ∈ t.future ∧ t.mem = s.mem ∧
      ∀ i, i < 32 →
        let takes := i = w ∧ (e.sharer die).mask.getLsbD w = true ∧ l.stAt w = .c
        k.words.toList.getD i 0 = (if takes then v else l.words.toList.getD i 0) ∧ (k.poison.getLsbD i = true ↔ takes ∧ bad = true)) ∧
  (∀ (s : State) (die owner acc : Nat) (pf : PAddr) (l : L2Line) (m : Mask), OneLine s owner pf l → s.entry? pf = none →
    ∃ t n ws, s.runs (.fwd owner pf m die acc) t ∧ s.now < n ∧ (n, .dat die pf m ws 0 acc) ∈ t.future ∧ t.l2 = s.l2 ∧ t.mem = s.mem ∧
      ∀ i, m.getLsbD i = true → ws.getD i 0 = if l.stAt i = .d then l.words.toList.getD i 0 else s.frameWord pf i) ∧
  (∀ (s : State) (die : Nat) (pf : PAddr) (m : Mask) (ws : List W32) (a : Acc) (x : Xl) (o : OutWord) (l : L2Line) (r : Xr) (z : Word), die < 4 → s.accs = [a] →
    a.xl = some x → x.pf = pf → a.owner = .out o.id → s.outw = [o] → o.due = false → o.faults = [] → a.told = false → a.stage = .sent → a.fault = 0 → a.shot = false →
    a.need ≤ 6 →
    (a.kind = .unsub → OneLine s die pf l → ∃ t k y, s.runs (.dat die pf m ws 0 a.id) t ∧ t.l2 = [k] ∧
      (∀ i, i < 32 → k.stAt i = if m.getLsbD i = true ∧ l.stAt i = .c then .i else l.stAt i) ∧ t.outw = [y] ∧ y.id = o.id ∧ y.due = true ∧ y.writes = o.writes) ∧
    (a.kind = .load → a.rt = .uc → a.rel = none → a.waits = none → a.acq = none → a.dst = some (.x a.lane r z) → s.l1 = [] → s.l2 = [] →
      ∃ t y, s.runs (.dat die pf m ws 0 a.id) t ∧ t.outw = [y] ∧ y.id = o.id ∧ y.due = true ∧ t.accs = [] ∧
        y.writes = o.writes ++ [.x a.lane r (BitVec.ofNat 64 (a.value (Vector.ofFn (fun i => ws.getD i.val 0))))])) ∧
  (∀ (s : State) (tx need die : Nat) (pf : PAddr) (fin : TxnFin), s.txns = [⟨tx, pf, need, fin⟩] → s.dirWait = [] →
    (1 < need → ∃ t, s.runs (.ack tx) t ∧ t.txns = [⟨tx, pf, need - 1, fin⟩] ∧ t.dir = s.dir ∧ t.future = s.future) ∧
    (need = 1 → fin = .victim → ∃ t, s.runs (.ack tx) t ∧ t.txns = [] ∧ t.entry? pf = none) ∧
    (∀ b, need = 1 → fin = .freed die → s.wbufs = [b] → b.die = die → b.pf = pf → b.m = 0 →
      ∃ t, s.runs (.ack tx) t ∧ t.txns = [] ∧ t.wbufs = []) ∧
    (∀ m acc, need = 1 → fin = .grant (.rdo die pf m acc) → s.l2 = [] → s.wbufs = [] → s.errs = [] → s.poison = [] → pf.space = .dev →
      (∀ e, s.entry? pf = some e → (e.sharer die).fmt = .exact) → ∃ t, s.runs (.ack tx) t ∧ t.txns = [] ∧ s.sendsDat t die pf m .exact acc) ∧
    (∀ (a : Acc) (o : OutWord) (e : DirEnt), need = 1 → fin = .perform a.id → s.accs = [a] → a.stage = .bound → a.need ≤ 6 → a.told = false → a.owner = .out o.id → s.outw = [o] →
      o.due = false → s.entry? pf = some e → ∃ t y e', s.runs (.ack tx) t ∧ t.txns = [] ∧ t.accs = [] ∧ t.outw = [y] ∧ y.due = true ∧
        t.entry? pf = some e' ∧ e'.busy = false))

/-! ### The dispatcher -/

/-- A dispatch cycle accepts the next record of a queue in RUN, where it is valid, and else completes it BADREC; it places the
lowest instance of the current record that is yet to be placed, a thread, in the first cluster after that of the last placement that
has room: X(1) the instance, X(2) the record's argument, at its entry (18 R381, R382, R384). A record that is over leaves its queue and enters
what has ended with its status: OK, KILLED or that of its abort, which is of the dependency where no instance was placed and its
producer was aborted; its completion record and its event hold the numbers of its
instances; the flag of its tile, read again, releases it; a completion that arrives for a context's earlier generation is
dropped and counted (18 R383, R385, R387, R389). The counts of a completion are the model's reading of R385 (log 37), and
which place within the cluster is taken is a free choice (log 12). -/
def Obligations.RecordsAreAcceptedPlacedAndCompleted : Prop :=
  (∀ (s : State) (q : Nat) (r : Rec) (i ix j : Nat) (l : List Nat), OneQueue s q → s.hub.recs = [r] → r.q = q → r.current = true → r.abort = 0 →
    r.team = false → r.urgent = false → r.gsz = 0 → r.flags = 0 → r.n = 1 → r.next < r.count →
    i < r.count → i ∉ r.placed → (∀ b, (i, b) ∉ r.retired) → (∀ k, k < i → k ∈ r.placed ∨ ∃ b, (k, b) ∈ r.retired) → (s.freeAreas r.ctx false 1).1 = ix :: l →
    let try_ := fun (k : Nat) => (s.hub.lastCl + 1 + k) % 160
    j < 160 → s.roomIn r (try_ j) → (∀ k, k < j → ¬s.roomIn r (try_ k)) →
    ∃ t v r', s.runs .dispatchCycle t ∧ v ∈ t.units ∧ t.units.map (·.id) = s.units.map (·.id) ++ [v.id] ∧ v.cluster = try_ j ∧ v.pipe < 32 ∧ v.slot < 7 ∧
      v.team = false ∧ s.at? v.cluster v.pipe v.slot false = none ∧ v.n = 1 ∧ v.status = .running ∧ (v.pc, v.widx) = (r.entry, 1) ∧ v.asid = r.asid ∧
      v.ctx = r.ctx ∧ v.super = r.super ∧ v.kclass = r.kclass ∧ v.inst = [some ⟨r.q, r.seq, i⟩] ∧
      (∀ x : Xr, (v.lane 0).X x = if x = 1 then BitVec.ofNat 64 i else if x = 2 then r.dw 3 else 0) ∧ (v.lane 0).p = 1 ∧
      t.hub.recs = [r'] ∧ r'.next = r.next + 1 ∧ r'.placed = r.placed ++ [i] ∧ r'.current = decide (r.next + 1 ≠ r.count) ∧ t.hub.lastCl = try_ j) ∧
  (∀ (s : State) (q : Nat) (dws : List Word) (c0 : Word), OneQueue s q → s.hub.recs = [] → s.hub.ended = [] →
    let l := s.lq q
    let a := l.base + 64 * (l.next % 2 ^ l.size)
    let r : Rec := ⟨q, l.next, dws, 0, s.now, [], 0, [], [], [], false, 0, true, [], []⟩
    l.prod ≠ l.next → l.ann = [] → l.base % 64 = 0 → a + 64 < deviceBytes → dws.length = 8 → (∀ i, i < 8 → dws.getD i 0 = BitVec.ofNat 64 (s.dw (a + 8 * i))) →
    s.ctxIs r.ctx 0 c0 →
    (r.valid l.next true = true → c0.getLsbD 63 = true → r.flags = 0 → r.dep = none → ∃ t r', s.runs .dispatchCycle t ∧ r' ∈ t.hub.recs ∧ r'.seq = l.next ∧
      r'.dws = dws ∧ r'.abort = 0 ∧ r'.asid = (c0.extractLsb' 0 16).toNat ∧ (t.lq q).next = (l.next + 1) % 2 ^ 32 ∧ (t.lq q).lastacc = l.next) ∧
    (r.valid l.next true = false ∨ c0.getLsbD 63 = false → ∃ t r', s.runs .dispatchCycle t ∧ t.hub.recs = [r'] ∧ r'.seq = l.next ∧ r'.abort = 4 ∧
      r'.placed = [] ∧ t.units.map (·.id) = s.units.map (·.id) ∧ (t.lq q).next = (l.next + 1) % 2 ^ 32 ∧ (t.lq q).lastacc = l.lastacc)) ∧
  (∀ (s : State) (r : Rec) (x : Xl) (sz level : Nat) (pte : Word) (leaf : PAddr), Uncached s → s.hub.recs = [r] → s.accs = [] → r.placed = [] → r.groups = [] → s.harnesses = [] →
    (r.abort ≠ 0 ∨ r.count ≤ r.next) → r.q < 64 → s.dir = [] →
    let ev := Ev.recordComplete r.q r.seq
    let exited := (r.retired.filter (fun k => !k.2)).length
    let killed := r.count - exited
    let st := if r.abort = 2 ∧ r.any = false ∧ s.depAborted r = true then 3 else if r.abort ≠ 0 then r.abort else if killed ≠ 0 then 1 else 0
    let d0 : Word := BitVec.ofNat 64 (r.seq % 2 ^ 32 * 2 ^ 32 + r.q % 64 * 2 ^ 26 + st)
    let d1 : Word := BitVec.ofNat 64 (killed * 2 ^ 32 + exited)
    let over_ := fun (t : State) => t.hub.recs = [] ∧
      t.hub.ended = s.hub.ended.filter (fun e => !(e.q == r.q && e.seq == r.seq)) ++ [⟨r.q, r.seq, st⟩] ∧ (r.irq = true → t.eventComes 0 0x96 (some d0) (some d1)) ∧
      ((s.lq r.q).lastcmp + 1 = r.seq → r.seq < 2 ^ 32 → (s.lq r.q).done = [] → (t.lq r.q).lastcmp = r.seq)
    (r.cmp = 0 → ∃ t, s.runs ev t ∧ over_ t) ∧
    (let at_ := x.pf.addr * 128 + r.cmp.toNat % 128
     r.cmp ≠ 0 → IsCanonical r.cmp → r.cmp &&& 15 = 0 →
      ({ s with arg := some ev } : State).walk r.asid (r.cmp.toNat % 2 ^ 57) .write true = (.ok x sz pte level leaf, { s with arg := some ev }) →
      x.pf.space = .dev → s.gbusy = [] → s.hole at_ = false → classViolation r.kclass x.cls = false →
      (at_ + 16 ≤ s.blockOf r.q ∨ s.blockOf r.q + 64 ≤ at_) → s.hub.lqbase.toNat % 4096 = 0 →
      ∃ t, s.runs ev t ∧ over_ t ∧ t.dw at_ = d0.toNat ∧ t.dw (at_ + 8) = d1.toNat)) ∧
  (∀ (s : State) (q : Nat) (r : Rec) (x : Xl) (sz level : Nat) (pte : Word) (leaf : PAddr), Uncached s → s.hub.recs = [r] → r.q = q → r.current = true → r.flags ≠ 0 → r.tper ≠ 0 →
    0 < r.count → r.count ≤ r.tper → r.released = [] → IsCanonical r.flags →
    let ev := Ev.tileFlagReread q
    let value := memRead s.mem (x.pf.addr * 128 + r.flags.toNat % 128) 4
    let s0 : State := { s with arg := some ev, hub := { s.hub with recs := [{ r with flagFrames := [] }] } }
    s0.walk r.asid (r.flags.toNat % 2 ^ 57) .read true = (.ok x sz pte level leaf, s0) → x.pf.space = .dev →
    r.flags.toNat % 4 = 0 →
    (r.relval ≤ value → ∃ t, s.runs ev t ∧ t.hub.recs = [{ r with released := [0], flagFrames := [] }]) ∧
    (value < r.relval → ∃ t n, s.runs ev t ∧ t.hub.recs = [{ r with flagFrames := [x.pf] }] ∧ (n, ev) ∈ t.future ∧ ((∀ m, (m, ev) ∉ s.future) → s.now < n ∧ n ≤ s.now + 2048))) ∧
  (∀ (s : State) (port ctx gen : Nat) (tag : Word) (addr : Nat) (data : List (Option Byte)) (c0 : Word), Uncached s → s.ctxIs ctx 0 c0 →
    let ev := Ev.lateCompletionCheck port ctx gen tag addr data
    let gone := c0.getLsbD 63 = false ∨ (c0.extractLsb' 32 16).toNat ≠ gen
    (gone → ∃ t, s.runs ev t ∧ t.staledrop.toNat = min (s.staledrop.toNat % 2 ^ 32 + 1) (2 ^ 32 - 1) ∧
      t.eventComes (if port = 0 then 1 else 2) 0x98 none none ∧ t.mem = s.mem) ∧
    (¬gone → ∃ t, s.runs ev t ∧ t.agenda = s.agenda ++ [.inboundPostedWrite port addr data false] ∧ t.mem = s.mem))

/-! ### Ports, links and management -/

/-- BAR0, while no earlier posted write of port A is under way: a write of a plain register sets its bits; a register with a side
effect asks for its step; nothing is written before bring-up is over or after a trip; a write that meets an earlier one waits. LQBASE, EQ_CTL and the window entries hold what is written, a read of BAR0 answers the
register (00 R4; 14 R315; 16 R359; 18 R380; 19 R418 to R420, R425; 20 R438, R439). How a write waits is the model's reading (log 38). -/
def Obligations.HubRegistersHoldWhatIsWritten : Prop :=
  ∀ (s : State) (v : Word),
    let open_ := s.hub.ready = true ∧ s.hub.trip = false
    ((∃ f ∈ s.hub.frames, f.port = 0) → ∀ off, s.runs (.registerWrite off v)
      { s with arg := some (.registerWrite off v), future := s.future ++ [(s.now + 1, .registerWrite off v)] }) ∧
    (open_ → s.portClear →
      (∀ off m, (off, m) ∈ plainRegister → ∃ t, s.runs (.registerWrite off v) t ∧ t.regRead off = v &&& m ∧ t.mem = s.mem ∧ t.units = s.units ∧
        t.agenda = s.agenda ∧ ∀ o k, (o, k) ∈ plainRegister → o ≠ off → t.regRead o = s.regRead o) ∧
      (∀ off e, (off = 0x30 ∧ e = .hubLqbaseWrite v) ∨ (off = 0x58 ∧ e = .eqCtlWrite v) ∨
          (∃ i dw, i < 64 ∧ dw < 4 ∧ off = 0x1000 + 32 * i + 8 * dw ∧ e = .windowEntryWrite i dw v) →
        ∃ t, s.runs (.registerWrite off v) t ∧ t.agenda = s.agenda ++ [e] ∧ t.hub = s.hub) ∧
      (s.hub.imbBusy < 64 → ∃ t e, s.runs (.registerWrite 0x110 v) t ∧ t.agenda = s.agenda ++ [e] ∧ t.hub.imbBusy = s.hub.imbBusy + 1 ∧
        ((v.extractLsb' 28 3).toNat = 2 → e = .imbShootdownAll s.hub.imbAddr s.hub.imbArg v)) ∧
      (Uncached s → ∃ t, s.runs (.hubLqbaseWrite v) t ∧ t.hub.lqbase = v &&& 0x000FFFFFFFFFF000) ∧
      (let size := (v.extractLsb' 0 5).toNat
       (6 ≤ size → size ≤ 20 → ∃ t, s.runs (.eqCtlWrite v) t ∧ t.hub.eqCtl = v &&& 0x800007FF0000001F ∧ t.mem = s.mem) ∧
       (size < 6 ∨ 20 < size → ∃ t, s.runs (.eqCtlWrite v) t ∧ t.hub.eqCtl = s.hub.eqCtl ∧ t.eventComes 3 0xA3 none (some 0x58))) ∧
      (∀ i dw, i < 64 → dw < 4 →
        (∃ t, s.runs (.windowEntryWrite i dw v) t ∧ t.hub.windows.toList.getD (4 * i + dw) 0 = v &&& windowBits dw ∧
          (∀ k, k ≠ 4 * i + dw → t.hub.windows.toList.getD k 0 = s.hub.windows.toList.getD k 0)) ∧
        (s.hub.frames = [] → ∃ t, s.runs (.windowEntryRead i dw) t ∧
          t.replies = s.replies ++ [(0x1000 + 32 * i + 8 * dw, .data (toBytes 8 (s.hub.windows.toList.getD (4 * i + dw) 0).toNat))])) ∧
      (∀ off m tag, (off, m) ∈ plainRegister → ∃ t, s.runs (.inboundReadRequest 2 off 8 tag) t ∧
        t.replies = s.replies ++ [(tag, .data (toBytes 8 (s.regRead off).toNat))] ∧ t.mem = s.mem)) ∧
    (¬open_ → (s.portClear → ∀ off, off ≠ 0x208 → s.runs (.registerWrite off v) { s with arg := some (.registerWrite off v) }) ∧
      ∀ ev, ev = .hubLqbaseWrite v ∨ ev = .eqCtlWrite v ∨ (∃ i dw, ev = .windowEntryWrite i dw v) → s.runs ev { s with arg := some ev })

/-- Requests of the ports: a posted write leaves for its home die as frames, is performed there byte for byte and then
acknowledged; a read, an AtomicOp and a CXL.mem request act on the bytes to which their address leads, and an address that
leads nowhere is answered as unsupported, with the event 0xA0 (14 R314; 19 R420 to R424, R451 to R453). How frames wait for
one another is the model's reading (log 38), and the memory of the outside world is free (log 14). -/
def Obligations.PortsReadAndWriteMemory : Prop :=
  (∀ (s : State) (port addr n dpa tag : Nat), PortsIdle s → s.leadsTo port addr n dpa → 0 < n →
    s.hole dpa = false → s.hole (dpa + (n - 1)) = false →
    (∃ t, s.runs (.inboundReadRequest port addr n tag) t ∧ t.replies = s.replies ++ [(tag, .data (memReadBytes s.mem dpa n))] ∧ t.mem = s.mem) ∧
    (∀ bytes ro, bytes.length = n → dpa % 128 + n ≤ 128 → ∃ t f k, s.runs (.inboundPostedWrite port addr bytes ro) t ∧ t.hub.frames = [f] ∧
      (f.port, f.route, f.dpa, f.bytes, f.ro) = (port, s.dieOf dpa, dpa, bytes, ro) ∧ f.sent = true ∧ f.done = false ∧ s.now < k ∧
      (k, .inboundFrame port f.route f.n) ∈ t.future ∧ t.mem = s.mem) ∧
    (∀ op x y, dpa % n = 0 → (n = 4 ∨ n = 8 ∨ (n = 16 ∧ op = .cas)) →
      let old := memRead s.mem dpa n
      ∃ t, s.runs (.inboundAtomicop port addr op n x y tag) t ∧ t.replies = s.replies ++ [(tag, .data (toBytes n old))] ∧
        replaced s.mem t.mem dpa ((toBytes n (atomicLeaves op n old x.toNat y.toNat)).map some))) ∧
  (∀ (s : State) (port addr n tag : Nat), PortsIdle s → 0 < n → port ≠ 2 → (∀ dpa, ¬s.leadsTo port addr n dpa) → (port ≠ 0 → ∀ i dpa, ¬s.admits i addr n dpa) →
    ∃ t, s.runs (.inboundReadRequest port addr n tag) t ∧ t.replies = s.replies ++ [(tag, .unsupported)] ∧
      t.eventComes (if port = 1 then 2 else 1) 0xA0 none (some (BitVec.ofNat 64 addr)) ∧ t.mem = s.mem) ∧
  (∀ (s : State) (f : InFrame), Uncached s → s.gbusy = [] → s.hub.frames = [f] → f.done = false → f.seen = 0 → s.hole f.dpa = false →
    f.dpa % 128 + f.bytes.length ≤ 128 → ∃ t g, s.runs (.inboundFrame f.port f.route f.n) t ∧ replaced s.mem t.mem f.dpa f.bytes ∧
      .frameAck f.port f.route f.n ∈ t.agenda ∧ t.hub.frames = [g] ∧ g.done = true) ∧
  (∀ (s : State) (f : InFrame) (tag k : Nat), s.hub.frames = [f] → s.hub.reads = [(tag, k, [(f.port, f.route, f.n)])] →
    ∃ t, s.runs (.frameAck f.port f.route f.n) t ∧ t.hub.frames = [] ∧ t.hub.reads = [] ∧
      t.replies = s.replies ++ [(tag, .data (toBytes 8 (s.hub.windows.toList.getD (4 * (k / 4) + k % 4) 0).toNat))]) ∧
  (∀ (s : State) (dpa tag : Nat) (bytes : List (Option Byte)), Uncached s → s.gbusy = [] → s.txns = [] → dpa + bytes.length ≤ deviceBytes →
    s.hole dpa = false → s.hole (dpa + (bytes.length - 1)) = false → bytes ≠ [] →
    (∃ t, s.runs (.cxlMemRequest dpa true bytes tag) t ∧ replaced s.mem t.mem dpa bytes ∧ t.replies = s.replies ++ [(tag, .written)]) ∧
    (∃ t, s.runs (.cxlMemRequest dpa false bytes tag) t ∧ t.mem = s.mem ∧ t.replies = s.replies ++ [(tag, .data (memReadBytes s.mem dpa bytes.length))]))

/-- Links: a message for another device leaves as a flit of a link of its route and is kept for a replay, or waits while no slot of its
class is free at the far end, while another of its class waits, or while a lane is being repaired; one to which no route
leads ends its request with 0xA4; flits are accepted in sequence; a lane that fails sixteen times within 2^20 flits is
repaired, from a spare, then by width, then by taking the link down (19 R427, R428, R432, R433). The doublewords of a
message between devices are the model's own (log 39). -/
def Obligations.LinksCarryMessagesInOrder : Prop :=
  (∀ (s : State) (dst frame n acc : Nat) (body : List Word), dst ≠ s.devnum % 2 ^ 18 → n < 8 → s.route dst frame = some n →
    let l := s.link n
    let cls := linkClass body
    let flit := [BitVec.ofNat 64 s.devnum, BitVec.ofNat 64 dst, BitVec.ofNat 64 frame, BitVec.ofNat 64 acc] ++ body
    let room := l.repair = none ∧ (∀ q ∈ l.waiting, q.1 ≠ cls) ∧ (l.slots.filter (fun q => q.1 == cls && decide (s.now < q.2))).length < 64
    (room → l.unacked.length < 256 → ∃ t, s.runs (.linkMessage s.devnum dst frame body acc) t ∧ (t.link n).tx = l.tx + 1 ∧ t.mem = s.mem ∧
      (∀ k, k ≠ n → t.link k = s.link k) ∧ (t.link n).unacked = l.unacked ++ [(l.tx, flit)] ∧ (t.link n).waiting = l.waiting ∧
      ∃ k, s.now < k ∧ (t.link n).slots = l.slots.filter (fun q => decide (s.now < q.2)) ++ [(cls, k)]) ∧
    (¬room → ∃ t, s.runs (.linkMessage s.devnum dst frame body acc) t ∧ t.mem = s.mem ∧ (∀ k, k ≠ n → t.link k = s.link k) ∧
      t.link n = { l with waiting := l.waiting ++ [(cls, flit)] })) ∧
  (∀ (s : State) (dst : Nat) (o : OutWord) (id r : Word), dst ≠ s.devnum % 2 ^ 18 → s.route dst 0 = none → o ∈ s.outw → o.id < 2 ^ 64 →
    ∃ t, s.runs (.linkMessage s.devnum dst 0 [3, BitVec.ofNat 64 o.id, id, r] 0) t ∧ Fails s t o 0xA4) ∧
  (∀ (s : State) (src : Nat) (a : PAddr) (tok pa : Word) (v : Word), Uncached s → s.devnum < 2 ^ 18 → src < 2 ^ 18 → pa.getLsbD 51 = false → pa.toNat < 2 ^ 52 → s.classify pa.toNat = some a →
    a.space = .dev → a.addr % 8 = 0 → s.gbusy = [] → s.hole (a.addr / 128 * 128) = false →
    (∃ t, s.runs (.linkMessage src s.devnum 0 [5, tok, pa, v, 8] 0) t ∧ t.dw a.addr = v.toNat ∧
      (∀ b, b < a.addr ∨ a.addr + 8 ≤ b → memGet t.mem b = memGet s.mem b) ∧ .linkMessage s.devnum src 0 [6, tok, 0] 0 ∈ t.agenda) ∧
    (∃ t, s.runs (.linkMessage src s.devnum 0 [8, tok, pa, 8] 0) t ∧ t.mem = s.mem ∧
      t.agenda = s.agenda ++ [.linkMessage s.devnum src 0 [9, tok, BitVec.ofNat 64 (s.dw a.addr)] 0])) ∧
  (∀ (s : State) (n seq lane : Nat) (src frame acc : Word) (body : List Word), n < 8 → (s.link n).up = true →
    let ev := fun (ok : Bool) => Ev.linkFlitReceive n seq ok lane ([src, BitVec.ofNat 64 (s.devnum % 2 ^ 18), frame, acc] ++ body)
    (seq = (s.link n).rx → ∃ t, s.runs (ev true) t ∧ (t.link n).rx = seq + 1 ∧
      t.agenda = s.agenda ++ [.linkMessage src.toNat (s.devnum % 2 ^ 18) frame.toNat body acc.toNat]) ∧
    (seq ≠ (s.link n).rx → s.runs (ev true) { s with arg := some (ev true) }) ∧
    (∀ c since, (s.link n).fails = [(lane, c, since)] → (s.link n).rx < since + 2 ^ 20 → (s.link n).repair = none → ∃ t, s.runs (ev false) t ∧ (t.link n).rx = (s.link n).rx ∧
      (t.link n).fails = [(lane, c + 1, since)] ∧ (c + 1 < 16 → t.future = s.future ∧ (t.link n).repair = none) ∧
      (16 ≤ c + 1 → (t.link n).repair = some lane ∧ ∃ k, s.now < k ∧ (k, .laneRepair n lane) ∈ t.future))) ∧
  (∀ (s : State) (n seq : Nat), n < 8 → ∃ t, s.runs (.linkReplay n seq) t ∧
    (t.link n).unacked = (s.link n).unacked.filter (fun q => decide (seq ≤ q.1)) ∧ (t.link n).rx = (s.link n).rx ∧ t.mem = s.mem) ∧
  (∀ (s : State) (n lane : Nat), n < 8 → (s.link n).up = true → (s.link n).repair = some lane →
    let l := s.link n
    (0 < l.spares → ∃ t, s.runs (.laneRepair n lane) t ∧ (t.link n).spares = l.spares - 1 ∧ (t.link n).lanes = l.lanes ∧ (t.link n).up = true ∧
      (t.link n).repair = none ∧ t.eventComes (0x60 + n) 0xA1 none none) ∧
    (l.spares = 0 → 8 < l.lanes → ∃ t, s.runs (.laneRepair n lane) t ∧ (t.link n).lanes = 8 ∧ (t.link n).up = true ∧ t.eventComes (0x60 + n) 0xA1 none none) ∧
    (l.spares = 0 → l.lanes ≤ 8 → s.outw = [] → s.accs = [] → ∃ t, s.runs (.laneRepair n lane) t ∧ (t.link n).up = false ∧
      t.eventComes (0x60 + n) 0xA2 none none))

/-- The management controller: a sample lowers the ceilings of hot dies and of a module that draws too much, and raises none
before they have been clear for 100 samples; a trip stops the module; a reset brings it up as at reset or leaves it failed;
sr.cycle starts anew; commands run one at a time and answer in memory (20 R436 to R443). How far a ceiling rises, what firmware passes and what is
signed are free (log 10, log 12); that a reset clears device memory is the model's choice (log 41). -/
def Obligations.ManagementControllerActs : Prop :=
  (∀ (s : State) (watts : Nat) (temps : List Nat), s.hub.ready = true → s.hub.trip = false → s.clusters.length = 160 →
    ((∃ x ∈ temps, 115 ≤ x) → ∃ t, s.runs (.powerSample watts temps) t ∧ t.hub.trip = true ∧ t.agenda = [] ∧ t.future = [] ∧ t.grants = [] ∧ t.mem = s.mem) ∧
    ((∀ x ∈ temps, x < 115) → (∀ c, c < 160 → s.ceilOf c = s.ceilOf (c / 40 * 40) ∧ s.ceilOf c ≤ 0x2000) → ∃ t, s.runs (.powerSample watts temps) t ∧
      ∀ c, c < 160 →
        let hot := decide (105 ≤ temps.getD (c / 40) 0)
        let power := decide (3300 ≤ watts)
        (t.cluster c).mbudget &&& 0xFFFF0000FFFFFFFF = (s.cluster c).mbudget &&& 0xFFFF0000FFFFFFFF ∧
        (hot || power → t.ceilOf c = lowered (s.ceilOf c) hot power) ∧
        (¬(hot || power) → s.ceilOf c ≤ t.ceilOf c ∧ t.ceilOf c ≤ 0x2000 ∧ t.ceilOf c ≤ s.ceilOf c + 1024) ∧
        (s.hub.clear < 99 → ¬(hot || power) → t.ceilOf c = s.ceilOf c))) ∧
  (∀ (s : State) (temp flow : Nat), (115 ≤ temp ∨ flow < 1000 → ∃ t, s.runs (.thermalTrip temp flow) t ∧ t.hub.trip = true ∧ t.phase = 0 ∧ t.agenda = [] ∧
      t.future = [] ∧ t.grants = [] ∧ t.lates = [] ∧ t.mem = s.mem ∧ t.inputs = s.inputs) ∧
    (temp < 115 → 1000 ≤ flow → s.runs (.thermalTrip temp flow) { s with arg := some (.thermalTrip temp flow) })) ∧
  (∀ s : State, ∃ t, s.runs .moduleReset t ∧ t.units = [] ∧ t.outw = [] ∧ t.l1 = [] ∧ t.l2 = [] ∧ t.dir = [] ∧ t.tlb = [] ∧ t.classes = [] ∧ t.hub.trip = false ∧
    s.hub.rollback ≤ t.hub.rollback ∧ t.inputs = s.inputs ∧ t.clusters.length = 160 ∧ (∀ u, t.sr u 0 0x003 = 0) ∧
    ((t.hub.ready = true ∧ t.hub.failed = false ∧ t.hub.stage = 7) ∨
      (t.hub.ready = false ∧ t.hub.failed = true ∧ 1 ≤ t.hub.stage ∧ t.hub.stage ≤ 3 ∧ ∀ c, c < 160 → t.ceilOf c = 0x20))) ∧
  (∀ (s : State) (ev : Ev) (cmd a : Nat), (cmd = 1 ∧ ev = .mgmtAttest a) ∨ (cmd = 2 ∧ ev = .mgmtReadCert a) ∨ (cmd = 3 ∧ ev = .mgmtCommitFirmware a) ∨
      (cmd = 4 ∧ ev = .mgmtRestoreSlice a) → s.hub.trip = false →
    (s.hub.busy = false → ∃ t n, s.runs ev t ∧ t.hub = { s.hub with busy := true, cmd := cmd, cmdAddr := a } ∧ s.now < n ∧
      (n, .mgmtCommandComplete) ∈ t.future ∧ t.mem = s.mem) ∧
    (s.hub.busy = true → ∃ t, s.runs ev t ∧ t.hub = { s.hub with err := true } ∧ t.future = s.future)) ∧
  (∀ s : State, s.hub.trip = false → ∃ t, s.runs .mgmtInvalidCmd t ∧ t.hub = { s.hub with err := true } ∧ t.mem = s.mem) ∧
  (∀ s : State, s.hub.busy = true →
    let a := s.hub.cmdAddr
    let at_ := fun (t : State) (o : Nat) => memRead (t.extMem .host) (a + o) 8
    ∃ t, s.runs .mgmtCommandComplete t ∧ t.hub.busy = false ∧ t.msix = (s.hub.eqCtl.extractLsb' 32 11).toNat :: s.msix ∧ t.mem = s.mem ∧
      (s.hub.cmd = 1 → at_ t 0 = 1 ∧ at_ t 8 = Config.partid.toNat ∧ at_ t 0x10 = s.devnum % 2 ^ 18 ∧ at_ t 0x18 = s.hub.rollback % 2 ^ 32) ∧
      (s.hub.cmd = 2 → 1 ≤ at_ t 0 ∧ at_ t 0 ≤ 4088) ∧
      (s.hub.cmd = 3 → (t.hub.err = true ∧ t.hub.rollback = s.hub.rollback) ∨ (t.hub.err = s.hub.err ∧ s.hub.rollback ≤ t.hub.rollback)) ∧
      (s.hub.cmd = 4 → (t.hub.err = true ∧ t.slicesDown = s.slicesDown) ∨
        ∃ b ∈ s.slicesDown, b < 16 ∧ t.slicesDown = s.slicesDown.filter (· != b) ∧ (∀ e ∈ t.dir, dirSliceOf e.pf ≠ b) ∧ t.eventComes (0x10 + b) 0x59 none none))

/-! ### Encodings, reset, and the trip -/

/-- Words written out bit by bit from the encodings of the spec decode to what they stand for, and four that break an encoding
rule are refused by its name (02 Tables 2-5 to 2-11 and the encoding tables of 05 to 18). -/
def Obligations.WrittenOutWordsDecode : Prop :=
  let th : Env := ⟨false, false, 64⟩
  let tm : Env := ⟨true, false, 64⟩
  let sv : Env := ⟨false, true, 64⟩
  ReadsAs th 0x0110000800000006 (.brDiv ⟨1, false, 0⟩ 6) ∧
  ReadsAs th 0x3600186030000001 (.addi ⟨0, false, 0⟩ .w64 6 6 1) ∧
  ReadsAs th 0x3100084143300100 (.cmp ⟨0, false, 0⟩ .ltu .w64 2 4 5 3) ∧
  ReadsAs th 0x43000C4146400000 (.fma ⟨0, false, 0⟩ .f32 .dyn false false 3 4 5 6) ∧
  ReadsAs th 0x64000C310020E000 (.vadd ⟨0, false, 0⟩ .w32 ⟨true, 1, true⟩ false 3 3 (.reg 4)) ∧
  ReadsAs th 0x9001142004080010 (.ld ⟨0, false, 1⟩ .si .cl 0 .w32 5 2 16) ∧
  ReadsAs th 0x95031421880C0000 (.amoadd ⟨0, false, 3⟩ .si .dv .w64 5 2 6 0) ∧
  ReadsAs th 0xAB000031A0000010 (.stsf ⟨0, false, 0⟩ .w32 6 3 16) ∧
  ReadsAs tm 0xB401140004000000 (.qpop ⟨0, false, 1⟩ 5 1 false 0) ∧
  ReadsAs tm 0xBD0400109DE87000 (.mmas ⟨0, false, 4⟩ .e4m3 .e4m3 0 1 2 .lo .lo 7) ∧
  ReadsAs th 0xC2011431880C0000 (.bararr ⟨0, false, 1⟩ .si .dv 5 3 6 0) ∧
  ReadsAs sv 0xDD00004140000001 (.reclass ⟨0, false, 0⟩ 4 5 .detect) ∧
  decodeWord th 0x0000000000000000 = .error .unassigned ∧
  decodeWord tm 0x64000C310020E000 = .error .mode ∧
  decodeWord th 0xDD00004140000001 = .error .privilege ∧
  decodeWord th 0x3607186030000001 = .error .scoreboard

/-- Every well-formed instruction word has an encoding, and the decoder reads that encoding back as the same instruction, with
every operand at every value that the encoding admits (02 R27 to R36). -/
def Obligations.DecodingAndEncodingAgree : Prop :=
  ∀ (e : Env) (i : Instr), i.isWord = true → i.wf e = true → ∃ w, encode i = some w ∧ decodeWord e w = .ok i

/-- The other direction: a word that decodes is the one encoding of a well-formed instruction, so no bit of it is passed over:
two words never decode to one instruction (02 R27 to R36; 02 R37 to R39). -/
def Obligations.EveryDecodedWordIsItsOwnEncoding : Prop :=
  ∀ (e : Env) (w : Word) (i : Instr), decodeWord e w = .ok i → i.isWord = true ∧ i.wf e = true ∧ encode i = some w

/-- What the state after reset holds of the values that the spec gives: the special registers of the clusters, dies and device
with their reset values, the hub's registers, launch queues that are stopped, no unit, and a memory in canonical form (07 Table 7-2;
18 R380; 19 R419; 20 R439). That no
byte is other than 0 and that nothing is cached are the model's choices (log 1, log 8). -/
def Obligations.ResetLeavesTheStatedValues : Prop :=
  let s := State.reset
  (∀ c, c < 160 → ∀ id : UKey, id.cluster = c →
    let u := HwUnit.fresh id 1 64 1 0 0 0 0 false 0
    s.sr u 0 0x003 = 0 ∧ s.sr u 0 0x004 = 0 ∧ s.sr u 0 0x010 = 0x10000 ∧ s.sr u 0 0x011 = 1 ∧ s.sr { u with team := true } 0 0x012 = 16 ∧
    s.sr u 0 0x013 = 0 ∧ s.sr u 0 0x020 = 2 ∧ s.sr u 0 0x021 = 0x100000 ∧ s.sr u 0 0x022 = 0x1000010000 ∧ s.sr u 0 0x023 = 0x200000002000 ∧
    s.sr u 0 0x024 = 0 ∧ s.sr u 0 0x025 = 0x10000 ∧ s.sr u 0 0x026 = 0x2000 ∧ s.sr u 0 0x027 = 0 ∧ s.sr u 0 0x030 = 0x1000 ∧ s.sr u 0 0x031 = 0 ∧
    s.sr u 0 0x040 = 0 ∧ s.sr u 0 0x050 = 0xFFFFFFFF ∧ (s.cluster c).allocs = [] ∧ (s.cluster c).bf = Vector.replicate 16 0x14) ∧
  s.clusters.length = 160 ∧ s.units = [] ∧ s.harnesses = [] ∧ s.outw = [] ∧ s.accs = [] ∧ s.incs = [] ∧ s.hub.seqs = [] ∧
  s.classes = [] ∧ s.gbusy = [] ∧ s.hub.hbmLs = 0 ∧
  (∀ q ∈ s.hub.queues.toList, q.st = .stop ∧ q.prod = 0 ∧ q.next = 0 ∧ q.lastacc = 0xFFFFFFFF ∧ q.lastcmp = 0xFFFFFFFF) ∧
  (∀ w ∈ s.hub.windows.toList, w = 0) ∧ s.hub.eqCtl = 6 ∧ s.hub.ready = false ∧ s.hub.trip = false ∧
  Memory.wf s.mem = true ∧ (∀ a, memGet s.mem a = 0) ∧ s.l1 = [] ∧ s.l2 = [] ∧ s.tlb = []

/-- A junction at 115 °C or a coolant flow below 1.0 L/min stills the module; and every step that a stilled module takes leaves
it stilled: no word issues, no access is made, no register or byte changes. What goes on is the clock of the outside world, and
reads of BAR0, which give MGMT.stat or zero (20 R438). That a reset ends it is MODULE_RESET's own statement. -/
def Obligations.TrippedModuleStaysStill : Prop :=
  (∀ (s : State) (temp flow : Nat), (115 ≤ temp ∨ flow < 1000) → (∀ x ∈ s.inputs, x.2 ≠ .moduleReset) →
    ∃ t, s.runs (.thermalTrip temp flow) t ∧ Stilled t ∧ t.units = s.units ∧ t.mem = s.mem) ∧
  (∀ s : State, Stilled s → ∃ t, step s = .next t ∧ Stilled t ∧ s.now ≤ t.now ∧
    ({ t with now := s.now, agenda := s.agenda, inputs := s.inputs, replies := s.replies, arg := s.arg, late := s.late } : State) = s ∧
    (∀ x ∈ t.inputs, x ∈ s.inputs) ∧
    ∃ more, t.replies = s.replies ++ more ∧ ∀ r ∈ more, r.2 = .data (List.replicate 8 0) ∨ r.2 = .data (toBytes 8 s.hub.mgmtStat.toNat))
end

