-- ==== Sys2Proof/Laws/PerInstr.lean ====
section
/-! SUPPORT. PerInstr.lean: what holds of every row of the opcode table, one lemma for each constructor. -/

set_option Elab.async false

namespace Sys2Proof.Laws.SlotInRange

/-- A well-formed word names no scoreboard slot 7, which is reserved (02 R27). -/
def Statement (i : Instr) : Prop := ∀ e : Env, i.wf e = true → i.hdr.sb ≠ 7

theorem no_slot : (0 : BitVec 3) ≠ 7 := by decide

theorem of_any {h : Hdr} (w : WF.any h = true) : h.sb ≠ 7 := by
  intro hs; simp [WF.any, hs] at w

theorem of_slot {h : Hdr} (w : WF.slot h = true) : h.sb ≠ 7 := by
  intro hs; simp [WF.slot, hs] at w

theorem of_zero {h : Hdr} (w : (h.sb == 0) = true) : h.sb ≠ 7 := by
  intro hs; simp [hs] at w

theorem left {a b : Bool} (w : (a && b) = true) : a = true := by
  cases a
  · cases w
  · rfl

theorem br (h : Hdr) (off : BitVec 30) : Statement (.br h off) := fun _ w => of_any w
theorem brDiv (h : Hdr) (off : BitVec 30) : Statement (.brDiv h off) := fun _ w => of_any w
theorem join (h : Hdr) : Statement (.join h) := fun _ w => of_any (left (left w))
theorem jmp (h : Hdr) (off : BitVec 30) : Statement (.jmp h off) := fun _ w => of_any (left (left w))
theorem jmpx (h : Hdr) (a : Xr) : Statement (.jmpx h a) := fun _ w => of_any (left w)
theorem call (h : Hdr) (d : Xr) (off : BitVec 30) : Statement (.call h d off) := fun _ w => of_any (left w)
theorem callx (h : Hdr) (d a : Xr) : Statement (.callx h d a) := fun _ w => of_any (left w)
theorem ret (h : Hdr) (a : Xr) : Statement (.ret h a) := fun _ w => of_any (left w)
theorem loop (h : Hdr) (a : Xr) (off : BitVec 30) : Statement (.loop h a off) := fun _ w => of_any (left (left w))
theorem halt (h : Hdr) : Statement (.halt h) := fun _ w => of_any w
theorem yield (h : Hdr) : Statement (.yield h) := fun _ w => of_any w
theorem nop (h : Hdr) : Statement (.nop h) := fun _ w => of_any w
theorem cinch (h : Hdr) (a b : Xr) (kc : BitVec 2) (wc : BitVec 2) (entry : BitVec 24) : Statement (.cinch h a b kc wc entry) := fun _ w => of_zero (left w)
theorem split (h : Hdr) : Statement (.split h) := fun _ w => of_zero (left (left w))
theorem movsr (h : Hdr) (d : Xr) (sri : BitVec 12) : Statement (.movsr h d sri) := fun _ w => of_any (left (left w))
theorem movrs (h : Hdr) (sri : BitVec 12) (a : Xr) : Statement (.movrs h sri a) := fun _ w => of_any (left (left w))
theorem movrsSet (h : Hdr) (sri : BitVec 12) (a : Xr) : Statement (.movrsSet h sri a) := fun _ w => of_any (left (left w))
theorem movrsClr (h : Hdr) (sri : BitVec 12) (a : Xr) : Statement (.movrsClr h sri a) := fun _ w => of_any (left (left w))
theorem add (h : Hdr) (t : Wd) (d a b : Xr) : Statement (.add h t d a b) := fun _ w => of_any (left w)
theorem sub (h : Hdr) (t : Wd) (d a b : Xr) : Statement (.sub h t d a b) := fun _ w => of_any (left w)
theorem adds (h : Hdr) (t : Wd) (d a b : Xr) : Statement (.adds h t d a b) := fun _ w => of_any (left w)
theorem addsu (h : Hdr) (t : Wd) (d a b : Xr) : Statement (.addsu h t d a b) := fun _ w => of_any (left w)
theorem subs (h : Hdr) (t : Wd) (d a b : Xr) : Statement (.subs h t d a b) := fun _ w => of_any (left w)
theorem subsu (h : Hdr) (t : Wd) (d a b : Xr) : Statement (.subsu h t d a b) := fun _ w => of_any (left w)
theorem mul (h : Hdr) (t : Wd) (d a b : Xr) : Statement (.mul h t d a b) := fun _ w => of_any (left w)
theorem mulh (h : Hdr) (t : Wd) (d a b : Xr) : Statement (.mulh h t d a b) := fun _ w => of_any (left w)
theorem mulhu (h : Hdr) (t : Wd) (d a b : Xr) : Statement (.mulhu h t d a b) := fun _ w => of_any (left w)
theorem div (h : Hdr) (t : Wd) (d a b : Xr) : Statement (.div h t d a b) := fun _ w => of_any (left w)
theorem divu (h : Hdr) (t : Wd) (d a b : Xr) : Statement (.divu h t d a b) := fun _ w => of_any (left w)
theorem rem (h : Hdr) (t : Wd) (d a b : Xr) : Statement (.rem h t d a b) := fun _ w => of_any (left w)
theorem remu (h : Hdr) (t : Wd) (d a b : Xr) : Statement (.remu h t d a b) := fun _ w => of_any (left w)
theorem and (h : Hdr) (t : Wd) (d a b : Xr) : Statement (.and h t d a b) := fun _ w => of_any (left w)
theorem or (h : Hdr) (t : Wd) (d a b : Xr) : Statement (.or h t d a b) := fun _ w => of_any (left w)
theorem xor (h : Hdr) (t : Wd) (d a b : Xr) : Statement (.xor h t d a b) := fun _ w => of_any (left w)
theorem andn (h : Hdr) (t : Wd) (d a b : Xr) : Statement (.andn h t d a b) := fun _ w => of_any (left w)
theorem orn (h : Hdr) (t : Wd) (d a b : Xr) : Statement (.orn h t d a b) := fun _ w => of_any (left w)
theorem shl (h : Hdr) (t : Wd) (d a b : Xr) : Statement (.shl h t d a b) := fun _ w => of_any (left w)
theorem shr (h : Hdr) (t : Wd) (d a b : Xr) : Statement (.shr h t d a b) := fun _ w => of_any (left w)
theorem sra (h : Hdr) (t : Wd) (d a b : Xr) : Statement (.sra h t d a b) := fun _ w => of_any (left w)
theorem rol (h : Hdr) (t : Wd) (d a b : Xr) : Statement (.rol h t d a b) := fun _ w => of_any (left w)
theorem clz (h : Hdr) (t : Wd) (d a : Xr) : Statement (.clz h t d a) := fun _ w => of_any (left w)
theorem ctz (h : Hdr) (t : Wd) (d a : Xr) : Statement (.ctz h t d a) := fun _ w => of_any (left w)
theorem popc (h : Hdr) (t : Wd) (d a : Xr) : Statement (.popc h t d a) := fun _ w => of_any (left w)
theorem min (h : Hdr) (t : Wd) (d a b : Xr) : Statement (.min h t d a b) := fun _ w => of_any (left w)
theorem max (h : Hdr) (t : Wd) (d a b : Xr) : Statement (.max h t d a b) := fun _ w => of_any (left w)
theorem minu (h : Hdr) (t : Wd) (d a b : Xr) : Statement (.minu h t d a b) := fun _ w => of_any (left w)
theorem maxu (h : Hdr) (t : Wd) (d a b : Xr) : Statement (.maxu h t d a b) := fun _ w => of_any (left w)
theorem abs (h : Hdr) (t : Wd) (sat : Bool) (d a : Xr) : Statement (.abs h t sat d a) := fun _ w => of_any (left w)
theorem sel (h : Hdr) (d : Xr) (pc : Pr) (a b : Xr) : Statement (.sel h d pc a b) := fun _ w => of_any (left w)
theorem lea (h : Hdr) (d a b : Xr) (s : BitVec 3) : Statement (.lea h d a b s) := fun _ w => of_any (left w)
theorem ext (h : Hdr) (t : Wd) (d a : Xr) : Statement (.ext h t d a) := fun _ w => of_any (left w)
theorem extu (h : Hdr) (t : Wd) (d a : Xr) : Statement (.extu h t d a) := fun _ w => of_any (left w)
theorem bfx (h : Hdr) (d a : Xr) (pos len1 : BitVec 6) : Statement (.bfx h d a pos len1) := fun _ w => of_any (left (left w))
theorem bfxu (h : Hdr) (d a : Xr) (pos len1 : BitVec 6) : Statement (.bfxu h d a pos len1) := fun _ w => of_any (left (left w))
theorem bfi (h : Hdr) (d a : Xr) (pos len1 : BitVec 6) : Statement (.bfi h d a pos len1) := fun _ w => of_any (left (left w))
theorem cmp (h : Hdr) (c : Cond) (t : Wd) (pd : Pr) (a b : Xr) (pc : Pr) : Statement (.cmp h c t pd a b pc) := fun _ w => of_any (left w)
theorem pand (h : Hdr) (pd pa pb : Pr) : Statement (.pand h pd pa pb) := fun _ w => of_any w
theorem por (h : Hdr) (pd pa pb : Pr) : Statement (.por h pd pa pb) := fun _ w => of_any w
theorem pxor (h : Hdr) (pd pa pb : Pr) : Statement (.pxor h pd pa pb) := fun _ w => of_any w
theorem pnot (h : Hdr) (pd pa : Pr) : Statement (.pnot h pd pa) := fun _ w => of_any w
theorem addi (h : Hdr) (t : Wd) (d a : Xr) (imm : BitVec 24) : Statement (.addi h t d a imm) := fun _ w => of_any (left w)
theorem muli (h : Hdr) (t : Wd) (d a : Xr) (imm : BitVec 24) : Statement (.muli h t d a imm) := fun _ w => of_any (left w)
theorem andi (h : Hdr) (t : Wd) (d a : Xr) (imm : BitVec 24) : Statement (.andi h t d a imm) := fun _ w => of_any (left w)
theorem ori (h : Hdr) (t : Wd) (d a : Xr) (imm : BitVec 24) : Statement (.ori h t d a imm) := fun _ w => of_any (left w)
theorem xori (h : Hdr) (t : Wd) (d a : Xr) (imm : BitVec 24) : Statement (.xori h t d a imm) := fun _ w => of_any (left w)
theorem shli (h : Hdr) (t : Wd) (d a : Xr) (imm : BitVec 24) : Statement (.shli h t d a imm) := fun _ w => of_any (left (left w))
theorem shri (h : Hdr) (t : Wd) (d a : Xr) (imm : BitVec 24) : Statement (.shri h t d a imm) := fun _ w => of_any (left (left w))
theorem srai (h : Hdr) (t : Wd) (d a : Xr) (imm : BitVec 24) : Statement (.srai h t d a imm) := fun _ w => of_any (left (left w))
theorem roli (h : Hdr) (t : Wd) (d a : Xr) (imm : BitVec 24) : Statement (.roli h t d a imm) := fun _ w => of_any (left (left w))
theorem cmpi (h : Hdr) (c : Cond) (t : Wd) (pd : Pr) (a : Xr) (imm : BitVec 24) : Statement (.cmpi h c t pd a imm) := fun _ w => of_any (left w)
theorem li (h : Hdr) (d : Xr) (imm : BitVec 24) : Statement (.li h d imm) := fun _ w => of_any (left w)
theorem lihMid (h : Hdr) (d : Xr) (imm : BitVec 24) : Statement (.lihMid h d imm) := fun _ w => of_any (left w)
theorem lihHigh (h : Hdr) (d : Xr) (imm : BitVec 16) : Statement (.lihHigh h d imm) := fun _ w => of_any (left w)
theorem fadd (h : Hdr) (t : Ty) (rm : Rm) (sat ftz : Bool) (d a b : Xr) : Statement (.fadd h t rm sat ftz d a b) := fun _ w => of_any (left (left (left (left w))))
theorem fsub (h : Hdr) (t : Ty) (rm : Rm) (sat ftz : Bool) (d a b : Xr) : Statement (.fsub h t rm sat ftz d a b) := fun _ w => of_any (left (left (left (left w))))
theorem fmul (h : Hdr) (t : Ty) (rm : Rm) (sat ftz : Bool) (d a b : Xr) : Statement (.fmul h t rm sat ftz d a b) := fun _ w => of_any (left (left (left (left w))))
theorem fma (h : Hdr) (t : Ty) (rm : Rm) (sat ftz : Bool) (d a b c : Xr) : Statement (.fma h t rm sat ftz d a b c) := fun _ w => of_any (left (left (left (left (left w)))))
theorem fdiv (h : Hdr) (t : Ty) (rm : Rm) (ftz : Bool) (d a b : Xr) : Statement (.fdiv h t rm ftz d a b) := fun _ w => of_slot (left (left (left w)))
theorem fsqrt (h : Hdr) (t : Ty) (rm : Rm) (ftz : Bool) (d a : Xr) : Statement (.fsqrt h t rm ftz d a) := fun _ w => of_slot (left (left (left w)))
theorem fmin (h : Hdr) (t : Ty) (ftz : Bool) (d a b : Xr) : Statement (.fmin h t ftz d a b) := fun _ w => of_any (left (left w))
theorem fmax (h : Hdr) (t : Ty) (ftz : Bool) (d a b : Xr) : Statement (.fmax h t ftz d a b) := fun _ w => of_any (left (left w))
theorem fcmp (h : Hdr) (c : Cond) (t : Ty) (ftz : Bool) (pd : Pr) (a b : Xr) (pc : Pr) : Statement (.fcmp h c t ftz pd a b pc) := fun _ w => of_any (left (left (left (left w))))
theorem fcvt (h : Hdr) (t1 t2 : Ty) (rm : Rm) (sat ftz : Bool) (d a : Xr) : Statement (.fcvt h t1 t2 rm sat ftz d a) := fun _ w => of_any (left (left w))
theorem fcvtu (h : Hdr) (t1 t2 : Ty) (rm : Rm) (ftz : Bool) (d a : Xr) : Statement (.fcvtu h t1 t2 rm ftz d a) := fun _ w => of_any (left (left w))
theorem fclass (h : Hdr) (t : Ty) (d a : Xr) : Statement (.fclass h t d a) := fun _ w => of_any (left (left w))
theorem frcp (h : Hdr) (t : Ty) (rm : Rm) (ftz : Bool) (d a : Xr) : Statement (.frcp h t rm ftz d a) := fun _ w => of_slot (left (left (left w)))
theorem frsq (h : Hdr) (t : Ty) (rm : Rm) (ftz : Bool) (d a : Xr) : Statement (.frsq h t rm ftz d a) := fun _ w => of_slot (left (left (left w)))
theorem fexp2 (h : Hdr) (t : Ty) (rm : Rm) (ftz : Bool) (d a : Xr) : Statement (.fexp2 h t rm ftz d a) := fun _ w => of_slot (left (left (left w)))
theorem flog2 (h : Hdr) (t : Ty) (rm : Rm) (ftz : Bool) (d a : Xr) : Statement (.flog2 h t rm ftz d a) := fun _ w => of_slot (left (left (left w)))
theorem fsinp (h : Hdr) (t : Ty) (rm : Rm) (ftz : Bool) (d a : Xr) : Statement (.fsinp h t rm ftz d a) := fun _ w => of_slot (left (left (left w)))
theorem fscale (h : Hdr) (t : Ty) (rm : Rm) (ftz : Bool) (d a b : Xr) : Statement (.fscale h t rm ftz d a b) := fun _ w => of_any (left (left (left w)))
theorem vld (h : Hdr) (gv z : Bool) (rt : ReqType) (sc : Scope) (wd : Wd) (d : Vr) (a : Xr) (pg : Vr) (off : BitVec 18) : Statement (.vld h gv z rt sc wd d a pg off) := fun _ w => of_slot (left (left w))
theorem vst (h : Hdr) (gv : Bool) (rt : ReqType) (sc : Scope) (wd : Wd) (d : Vr) (a : Xr) (pg : Vr) (off : BitVec 18) : Statement (.vst h gv rt sc wd d a pg off) := fun _ w => of_any (left (left w))
theorem vldx (h : Hdr) (gov : Gov) (rt : ReqType) (sc : Scope) (wd : Wd) (d : Vr) (a : Xr) (b : Vr) : Statement (.vldx h gov rt sc wd d a b) := fun _ w => of_slot (left (left w))
theorem vstx (h : Hdr) (gv : Bool) (pg : Vr) (rt : ReqType) (sc : Scope) (wd : Wd) (d : Vr) (a : Xr) (b : Vr) : Statement (.vstx h gv pg rt sc wd d a b) := fun _ w => of_any (left (left w))
theorem vadd (h : Hdr) (t : Wd) (gov : Gov) (sat : Bool) (d a : Vr) (b : VSrc) : Statement (.vadd h t gov sat d a b) := fun _ w => of_any (left (left (left w)))
theorem vaddu (h : Hdr) (t : Wd) (gov : Gov) (d a : Vr) (b : VSrc) : Statement (.vaddu h t gov d a b) := fun _ w => of_any (left (left (left w)))
theorem vsub (h : Hdr) (t : Wd) (gov : Gov) (sat : Bool) (d a : Vr) (b : VSrc) : Statement (.vsub h t gov sat d a b) := fun _ w => of_any (left (left (left w)))
theorem vsubu (h : Hdr) (t : Wd) (gov : Gov) (d a : Vr) (b : VSrc) : Statement (.vsubu h t gov d a b) := fun _ w => of_any (left (left (left w)))
theorem vmul (h : Hdr) (t : Wd) (gov : Gov) (d a : Vr) (b : VSrc) : Statement (.vmul h t gov d a b) := fun _ w => of_any (left (left (left w)))
theorem vmulh (h : Hdr) (t : Wd) (gov : Gov) (d a : Vr) (b : VSrc) : Statement (.vmulh h t gov d a b) := fun _ w => of_any (left (left (left w)))
theorem vmulhu (h : Hdr) (t : Wd) (gov : Gov) (d a : Vr) (b : VSrc) : Statement (.vmulhu h t gov d a b) := fun _ w => of_any (left (left (left w)))
theorem vmin (h : Hdr) (t : Wd) (gov : Gov) (d a : Vr) (b : VSrc) : Statement (.vmin h t gov d a b) := fun _ w => of_any (left (left (left w)))
theorem vmax (h : Hdr) (t : Wd) (gov : Gov) (d a : Vr) (b : VSrc) : Statement (.vmax h t gov d a b) := fun _ w => of_any (left (left (left w)))
theorem vminu (h : Hdr) (t : Wd) (gov : Gov) (d a : Vr) (b : VSrc) : Statement (.vminu h t gov d a b) := fun _ w => of_any (left (left (left w)))
theorem vmaxu (h : Hdr) (t : Wd) (gov : Gov) (d a : Vr) (b : VSrc) : Statement (.vmaxu h t gov d a b) := fun _ w => of_any (left (left (left w)))
theorem vand (h : Hdr) (t : Wd) (gov : Gov) (d a : Vr) (b : VSrc) : Statement (.vand h t gov d a b) := fun _ w => of_any (left (left (left w)))
theorem vor (h : Hdr) (t : Wd) (gov : Gov) (d a : Vr) (b : VSrc) : Statement (.vor h t gov d a b) := fun _ w => of_any (left (left (left w)))
theorem vxor (h : Hdr) (t : Wd) (gov : Gov) (d a : Vr) (b : VSrc) : Statement (.vxor h t gov d a b) := fun _ w => of_any (left (left (left w)))
theorem vshl (h : Hdr) (t : Wd) (gov : Gov) (d a : Vr) (b : VSrc) : Statement (.vshl h t gov d a b) := fun _ w => of_any (left (left (left w)))
theorem vshr (h : Hdr) (t : Wd) (gov : Gov) (d a : Vr) (b : VSrc) : Statement (.vshr h t gov d a b) := fun _ w => of_any (left (left (left w)))
theorem vsra (h : Hdr) (t : Wd) (gov : Gov) (d a : Vr) (b : VSrc) : Statement (.vsra h t gov d a b) := fun _ w => of_any (left (left (left w)))
theorem vfadd (h : Hdr) (t : Ty) (gov : Gov) (rm : Rm) (d a : Vr) (b : VSrc) : Statement (.vfadd h t gov rm d a b) := fun _ w => of_any (left (left (left (left (left w)))))
theorem vfmul (h : Hdr) (t : Ty) (gov : Gov) (rm : Rm) (d a : Vr) (b : VSrc) : Statement (.vfmul h t gov rm d a b) := fun _ w => of_any (left (left (left (left (left w)))))
theorem vfma (h : Hdr) (t : Ty) (gov : Gov) (rm : Rm) (d a : Vr) (b : VSrc) : Statement (.vfma h t gov rm d a b) := fun _ w => of_any (left (left (left (left (left w)))))
theorem vfmin (h : Hdr) (t : Ty) (gov : Gov) (d a : Vr) (b : VSrc) : Statement (.vfmin h t gov d a b) := fun _ w => of_any (left (left (left (left w))))
theorem vfmax (h : Hdr) (t : Ty) (gov : Gov) (d a : Vr) (b : VSrc) : Statement (.vfmax h t gov d a b) := fun _ w => of_any (left (left (left (left w))))
theorem vfcvt (h : Hdr) (t ts : Ty) (gov : Gov) (rm : Rm) (sat : Bool) (part : BitVec 3) (d a : Vr) : Statement (.vfcvt h t ts gov rm sat part d a) := fun _ w => of_any (left (left (left (left w))))
theorem vfcvtu (h : Hdr) (t ts : Ty) (gov : Gov) (rm : Rm) (sat : Bool) (part : BitVec 3) (d a : Vr) : Statement (.vfcvtu h t ts gov rm sat part d a) := fun _ w => of_any (left (left (left (left w))))
theorem vcmp (h : Hdr) (c : Cond) (t : Ty) (gov : Gov) (d a : Vr) (b : VSrc) : Statement (.vcmp h c t gov d a b) := fun _ w => of_any (left (left (left (left (left w)))))
theorem vwhile (h : Hdr) (t : Ty) (d : Vr) (a b : Xr) : Statement (.vwhile h t d a b) := fun _ w => of_any (left w)
theorem vlen (h : Hdr) (d : Xr) : Statement (.vlen h d) := fun _ w => of_any (left w)
theorem vsel (h : Hdr) (t : Ty) (pg : Vr) (d a b : Vr) : Statement (.vsel h t pg d a b) := fun _ w => of_any (left w)
theorem vbcast (h : Hdr) (t : Ty) (gov : Gov) (d : Vr) (a : Xr) : Statement (.vbcast h t gov d a) := fun _ w => of_any (left (left w))
theorem vbcastElement (h : Hdr) (t : Ty) (gov : Gov) (d a : Vr) (e : BitVec 6) : Statement (.vbcastElement h t gov d a e) := fun _ w => of_any (left (left w))
theorem vperm (h : Hdr) (t : Ty) (gov : Gov) (d a b : Vr) : Statement (.vperm h t gov d a b) := fun _ w => of_any (left (left w))
theorem vcompress (h : Hdr) (t : Ty) (gv : Bool) (pg : Vr) (d a : Vr) (c : Xr) : Statement (.vcompress h t gv pg d a c) := fun _ w => of_any (left (left w))
theorem vredadd (h : Hdr) (t : Ty) (gv : Bool) (pg : Vr) (rm : Rm) (sat : Bool) (d a b : Vr) : Statement (.vredadd h t gv pg rm sat d a b) := fun _ w => of_slot (left (left (left (left (left w)))))
theorem vredmin (h : Hdr) (t : Ty) (gv : Bool) (pg : Vr) (d a b : Vr) : Statement (.vredmin h t gv pg d a b) := fun _ w => of_slot (left (left (left w)))
theorem vredminu (h : Hdr) (t : Ty) (gv : Bool) (pg : Vr) (d a b : Vr) : Statement (.vredminu h t gv pg d a b) := fun _ w => of_slot (left (left (left w)))
theorem vredmax (h : Hdr) (t : Ty) (gv : Bool) (pg : Vr) (d a b : Vr) : Statement (.vredmax h t gv pg d a b) := fun _ w => of_slot (left (left (left w)))
theorem vredmaxu (h : Hdr) (t : Ty) (gv : Bool) (pg : Vr) (d a b : Vr) : Statement (.vredmaxu h t gv pg d a b) := fun _ w => of_slot (left (left (left w)))
theorem vscan (h : Hdr) (t : Ty) (gov : Gov) (rm : Rm) (d a b : Vr) : Statement (.vscan h t gov rm d a b) := fun _ w => of_slot (left (left (left (left w))))
theorem vmerge (h : Hdr) (t : Wd) (d a b : Vr) (c : Xr) : Statement (.vmerge h t d a b c) := fun _ w => of_slot (left (left w))
theorem vmergeu (h : Hdr) (t : Wd) (d a b : Vr) (c : Xr) : Statement (.vmergeu h t d a b c) := fun _ w => of_slot (left (left w))
theorem vmergekv (h : Hdr) (t : Wd) (d a b : Vr) (c : Xr) : Statement (.vmergekv h t d a b c) := fun _ w => of_slot (left (left w))
theorem vmergekvu (h : Hdr) (t : Wd) (d a b : Vr) (c : Xr) : Statement (.vmergekvu h t d a b c) := fun _ w => of_slot (left (left w))
theorem vpair (ha hb : VHalf) : Statement (.vpair ha hb) := fun _ _ => no_slot
theorem ld (h : Hdr) (rt : ReqType) (sc : Scope) (span : BitVec 5) (wd : Wd) (d a : Xr) (off : BitVec 18) : Statement (.ld h rt sc span wd d a off) := fun _ w => of_slot (left w)
theorem st (h : Hdr) (rt : ReqType) (sc : Scope) (span : BitVec 5) (wd : Wd) (b a : Xr) (off : BitVec 18) : Statement (.st h rt sc span wd b a off) := fun _ w => of_any (left w)
theorem ldacq (h : Hdr) (rt : ReqType) (sc : Scope) (span : BitVec 5) (wd : Wd) (d a : Xr) (off : BitVec 18) : Statement (.ldacq h rt sc span wd d a off) := fun _ w => of_slot (left w)
theorem strel (h : Hdr) (rt : ReqType) (sc : Scope) (span : BitVec 5) (wd : Wd) (b a : Xr) (off : BitVec 18) : Statement (.strel h rt sc span wd b a off) := fun _ w => of_any (left w)
theorem fence (h : Hdr) (sc : Scope) : Statement (.fence h sc) := fun _ w => of_any w
theorem amoadd (h : Hdr) (rt : ReqType) (sc : Scope) (wd : Wd) (d a b : Xr) (off : BitVec 18) : Statement (.amoadd h rt sc wd d a b off) := fun _ w => of_slot (left (left w))
theorem amoand (h : Hdr) (rt : ReqType) (sc : Scope) (wd : Wd) (d a b : Xr) (off : BitVec 18) : Statement (.amoand h rt sc wd d a b off) := fun _ w => of_slot (left (left w))
theorem amoor (h : Hdr) (rt : ReqType) (sc : Scope) (wd : Wd) (d a b : Xr) (off : BitVec 18) : Statement (.amoor h rt sc wd d a b off) := fun _ w => of_slot (left (left w))
theorem amoxor (h : Hdr) (rt : ReqType) (sc : Scope) (wd : Wd) (d a b : Xr) (off : BitVec 18) : Statement (.amoxor h rt sc wd d a b off) := fun _ w => of_slot (left (left w))
theorem amomin (h : Hdr) (rt : ReqType) (sc : Scope) (wd : Wd) (d a b : Xr) (off : BitVec 18) : Statement (.amomin h rt sc wd d a b off) := fun _ w => of_slot (left (left w))
theorem amominu (h : Hdr) (rt : ReqType) (sc : Scope) (wd : Wd) (d a b : Xr) (off : BitVec 18) : Statement (.amominu h rt sc wd d a b off) := fun _ w => of_slot (left (left w))
theorem amomax (h : Hdr) (rt : ReqType) (sc : Scope) (wd : Wd) (d a b : Xr) (off : BitVec 18) : Statement (.amomax h rt sc wd d a b off) := fun _ w => of_slot (left (left w))
theorem amomaxu (h : Hdr) (rt : ReqType) (sc : Scope) (wd : Wd) (d a b : Xr) (off : BitVec 18) : Statement (.amomaxu h rt sc wd d a b off) := fun _ w => of_slot (left (left w))
theorem amoswap (h : Hdr) (rt : ReqType) (sc : Scope) (wd : Wd) (d a b : Xr) (off : BitVec 18) : Statement (.amoswap h rt sc wd d a b off) := fun _ w => of_slot (left (left w))
theorem amocas (h : Hdr) (rt : ReqType) (sc : Scope) (wd : Wd) (d a b : Xr) (off : BitVec 18) : Statement (.amocas h rt sc wd d a b off) := fun _ w => of_slot (left (left w))
theorem ldlk (h : Hdr) (rt : ReqType) (sc : Scope) (span : BitVec 5) (wd : Wd) (d a : Xr) (off : BitVec 18) : Statement (.ldlk h rt sc span wd d a off) := fun _ w => of_slot (left (left w))
theorem stck (h : Hdr) (rt : ReqType) (sc : Scope) (wd : Wd) (pd : Pr) (b a : Xr) (off : BitVec 18) : Statement (.stck h rt sc wd pd b a off) := fun _ w => of_slot (left (left w))
theorem subscr (h : Hdr) (fmt : AssayFmt) (mode : Bool) (span : BitVec 5) (pd : Pr) (a : Xr) (off : BitVec 18) : Statement (.subscr h fmt mode span pd a off) := fun _ w => of_slot (left w)
theorem unsub (h : Hdr) (span : BitVec 5) (a : Xr) (off : BitVec 18) : Statement (.unsub h span a off) := fun _ w => of_any (left w)
theorem upgr (h : Hdr) (fmt : AssayFmt) (span : BitVec 5) (pd : Pr) (a : Xr) (off : BitVec 18) : Statement (.upgr h fmt span pd a off) := fun _ w => of_slot (left w)
theorem invspan (h : Hdr) (sc : Scope) (span : BitVec 5) (a : Xr) (off : BitVec 18) : Statement (.invspan h sc span a off) := fun _ w => of_any (left w)
theorem wbspan (h : Hdr) (sc : Scope) (span : BitVec 5) (a : Xr) (off : BitVec 18) : Statement (.wbspan h sc span a off) := fun _ w => of_any (left w)
theorem pref (h : Hdr) (rt : ReqType) (span : BitVec 5) (a : Xr) (off : BitVec 18) : Statement (.pref h rt span a off) := fun _ w => of_any (left (left w))
theorem pinw (h : Hdr) (pd : Pr) (a b : Xr) (off : BitVec 18) : Statement (.pinw h pd a b off) := fun _ w => of_slot (left w)
theorem unpinw (h : Hdr) (pd : Pr) (a : Xr) (off : BitVec 18) : Statement (.unpinw h pd a off) := fun _ w => of_slot (left w)
theorem lds (h : Hdr) (wd : Wd) (d a : Xr) (imm : BitVec 24) : Statement (.lds h wd d a imm) := fun _ w => of_slot (left w)
theorem ldsu (h : Hdr) (wd : Wd) (d a : Xr) (imm : BitVec 24) : Statement (.ldsu h wd d a imm) := fun _ w => of_slot (left (left w))
theorem sts (h : Hdr) (wd : Wd) (b a : Xr) (imm : BitVec 24) : Statement (.sts h wd b a imm) := fun _ w => of_any (left w)
theorem ldsf (h : Hdr) (wd : Wd) (d a : Xr) (imm : BitVec 24) : Statement (.ldsf h wd d a imm) := fun _ w => of_slot (left (left w))
theorem ldse (h : Hdr) (wd : Wd) (d a : Xr) (imm : BitVec 24) : Statement (.ldse h wd d a imm) := fun _ w => of_slot (left (left w))
theorem stsf (h : Hdr) (wd : Wd) (b a : Xr) (imm : BitVec 24) : Statement (.stsf h wd b a imm) := fun _ w => of_any (left (left w))
theorem stsx (h : Hdr) (wd : Wd) (b a : Xr) (imm : BitVec 24) : Statement (.stsx h wd b a imm) := fun _ w => of_any (left (left w))
theorem feopf (h : Hdr) (a b : Xr) : Statement (.feopf h a b) := fun _ w => of_any (left w)
theorem feope (h : Hdr) (a b : Xr) : Statement (.feope h a b) := fun _ w => of_any (left w)
theorem samoadd (h : Hdr) (wd : Wd) (d a b : Xr) : Statement (.samoadd h wd d a b) := fun _ w => of_slot (left (left w))
theorem samoand (h : Hdr) (wd : Wd) (d a b : Xr) : Statement (.samoand h wd d a b) := fun _ w => of_slot (left (left w))
theorem samoor (h : Hdr) (wd : Wd) (d a b : Xr) : Statement (.samoor h wd d a b) := fun _ w => of_slot (left (left w))
theorem samoxor (h : Hdr) (wd : Wd) (d a b : Xr) : Statement (.samoxor h wd d a b) := fun _ w => of_slot (left (left w))
theorem samomin (h : Hdr) (wd : Wd) (d a b : Xr) : Statement (.samomin h wd d a b) := fun _ w => of_slot (left (left w))
theorem samomax (h : Hdr) (wd : Wd) (d a b : Xr) : Statement (.samomax h wd d a b) := fun _ w => of_slot (left (left w))
theorem samominu (h : Hdr) (wd : Wd) (d a b : Xr) : Statement (.samominu h wd d a b) := fun _ w => of_slot (left (left w))
theorem samomaxu (h : Hdr) (wd : Wd) (d a b : Xr) : Statement (.samomaxu h wd d a b) := fun _ w => of_slot (left (left w))
theorem samoswap (h : Hdr) (wd : Wd) (d a b : Xr) : Statement (.samoswap h wd d a b) := fun _ w => of_slot (left (left w))
theorem samocas (h : Hdr) (wd : Wd) (d a b c : Xr) : Statement (.samocas h wd d a b c) := fun _ w => of_slot (left (left (left w)))
theorem salloc (h : Hdr) (d : Xr) (pc : Pr) (a : Xr) : Statement (.salloc h d pc a) := fun _ w => of_slot (left w)
theorem sfree (h : Hdr) (a : Xr) : Statement (.sfree h a) := fun _ w => of_any (left w)
theorem sfmtWrite (h : Hdr) (bf : BitVec 4) (a : Xr) : Statement (.sfmtWrite h bf a) := fun _ w => of_any (left w)
theorem sfmtRead (h : Hdr) (d : Xr) (bf : BitVec 4) : Statement (.sfmtRead h d bf) := fun _ w => of_slot (left w)
theorem qbind (h : Hdr) (q : Qr) (port : BitVec 16) : Statement (.qbind h q port) := fun _ w => of_any (left (left w))
theorem qbindOff (h : Hdr) (q : Qr) : Statement (.qbindOff h q) := fun _ w => of_any (left w)
theorem qpush (h : Hdr) (q : Qr) (a : Xr) (nb : Bool) (pd : Pr) : Statement (.qpush h q a nb pd) := by
  intro e w; simp only [Instr.wf, Bool.and_eq_true] at w; have := w.1.1; intro (hs : h.sb = 7); split at this <;> simp [WF.any, WF.slot, hs] at this
theorem qpop (h : Hdr) (d : Xr) (q : Qr) (nb : Bool) (pd : Pr) : Statement (.qpop h d q nb pd) := fun _ w => of_slot (left (left (left w)))
theorem qpeek (h : Hdr) (d : Xr) (q : Qr) (nb : Bool) (pd : Pr) : Statement (.qpeek h d q nb pd) := fun _ w => of_slot (left (left (left w)))
theorem qstat (h : Hdr) (d : Xr) (q : Qr) : Statement (.qstat h d q) := fun _ w => of_slot (left (left w))
theorem qdrain (h : Hdr) (q : Qr) : Statement (.qdrain h q) := fun _ w => of_any (left w)
theorem qdrainAbort (h : Hdr) (q : Qr) : Statement (.qdrainAbort h q) := fun _ w => of_any (left w)
theorem tclaim (h : Hdr) (pd : Pr) (c : Xr) : Statement (.tclaim h pd c) := fun _ w => of_slot (left (left w))
theorem trel (h : Hdr) (c : Xr) : Statement (.trel h c) := fun _ w => of_any (left (left w))
theorem tzero (h : Hdr) (td : Tr) (hd : Half) : Statement (.tzero h td hd) := fun _ w => of_any (left w)
theorem tmov (h : Hdr) (td ta : Tr) (hd ha : Half) : Statement (.tmov h td ta hd ha) := fun _ w => of_any (left (left w))
theorem tmovt (h : Hdr) (td ta : Tr) (hd ha : Half) : Statement (.tmovt h td ta hd ha) := fun _ w => of_any (left (left w))
theorem mma (h : Hdr) (fa fb : Ty) (td ta tb : Tr) (ha hb : Half) (sat : Bool) : Statement (.mma h fa fb td ta tb ha hb sat) := fun _ w => of_any (left (left w))
theorem mmas (h : Hdr) (fa fb : Ty) (td ta tb : Tr) (ha hb : Half) (c : Xr) : Statement (.mmas h fa fb td ta tb ha hb c) := fun _ w => of_any (left (left (left w)))
theorem tcvt (h : Hdr) (tt ts : Ty) (rm : Rm) (sat : Bool) (td ta : Tr) (hd ha : Half) : Statement (.tcvt h tt ts rm sat td ta hd ha) := fun _ w => of_any (left (left (left (left (left (left (left w)))))))
theorem tgang (h : Hdr) (c : Xr) : Statement (.tgang h c) := fun _ w => of_any (left (left w))
theorem tjoin (h : Hdr) (fa fb : Ty) (td ta tb : Tr) (ha hb : Half) (sat : Bool) : Statement (.tjoin h fa fb td ta tb ha hb sat) := fun _ w => of_any (left (left w))
theorem tjoins (h : Hdr) (fa fb : Ty) (td ta tb : Tr) (ha hb : Half) (c : Xr) : Statement (.tjoins h fa fb td ta tb ha hb c) := fun _ w => of_any (left (left (left w)))
theorem barinit (h : Hdr) (rt : ReqType) (sc : Scope) (a b : Xr) (off : BitVec 18) : Statement (.barinit h rt sc a b off) := fun _ w => of_any (left w)
theorem bararr (h : Hdr) (rt : ReqType) (sc : Scope) (d a b : Xr) (off : BitVec 18) : Statement (.bararr h rt sc d a b off) := fun _ w => of_slot (left w)
theorem barexp (h : Hdr) (rt : ReqType) (sc : Scope) (a b : Xr) (off : BitVec 18) : Statement (.barexp h rt sc a b off) := fun _ w => of_any (left w)
theorem barwait (h : Hdr) (rt : ReqType) (sc : Scope) (a b : Xr) (off : BitVec 18) : Statement (.barwait h rt sc a b off) := fun _ w => of_any (left w)
theorem bartest (h : Hdr) (rt : ReqType) (sc : Scope) (pd : Pr) (a b : Xr) (off : BitVec 18) : Statement (.bartest h rt sc pd a b off) := fun _ w => of_slot (left w)
theorem grpsync (h : Hdr) (gi : BitVec 2) : Statement (.grpsync h gi) := fun _ w => of_any w
theorem grpvoteAll (h : Hdr) (pd pa : Pr) (gi : BitVec 2) : Statement (.grpvoteAll h pd pa gi) := fun _ w => of_slot w
theorem grpvoteAny (h : Hdr) (pd pa : Pr) (gi : BitVec 2) : Statement (.grpvoteAny h pd pa gi) := fun _ w => of_slot w
theorem grpvoteCount (h : Hdr) (d : Xr) (pa : Pr) (gi : BitVec 2) : Statement (.grpvoteCount h d pa gi) := fun _ w => of_slot (left w)
theorem grpred (h : Hdr) (op : GrpOp) (flt : Bool) (d a : Xr) (gi : BitVec 2) : Statement (.grpred h op flt d a gi) := fun _ w => of_slot (left (left w))
theorem trap (h : Hdr) (a : Xr) (code : BitVec 14) : Statement (.trap h a code) := fun _ w => of_zero (left w)
theorem eret (h : Hdr) (a : Xr) : Statement (.eret h a) := fun _ w => of_zero (left (left w))
theorem wake (h : Hdr) (d a b : Xr) : Statement (.wake h d a b) := fun _ w => of_slot (left (left w))
theorem sendm (h : Hdr) (sc : Scope) (d a b : Xr) : Statement (.sendm h sc d a b) := fun _ w => of_slot (left (left (left w)))
theorem waitm (h : Hdr) (sc : Scope) (d : Xr) : Statement (.waitm h sc d) := fun _ w => of_slot (left (left (left w)))
theorem waitmNb (h : Hdr) (sc : Scope) (d : Xr) : Statement (.waitmNb h sc d) := fun _ w => of_slot (left (left (left w)))
theorem winrd (h : Hdr) (d a b : Xr) (sel : BitVec 14) : Statement (.winrd h d a b sel) := fun _ w => of_slot (left (left w))
theorem winwr (h : Hdr) (d a b : Xr) (sel : BitVec 14) : Statement (.winwr h d a b sel) := fun _ w => of_any (left (left w))
theorem ctxsave (h : Hdr) (d a : Xr) : Statement (.ctxsave h d a) := fun _ w => of_slot (left (left w))
theorem ctxload (h : Hdr) (d a : Xr) : Statement (.ctxload h d a) := fun _ w => of_slot (left (left w))
theorem launch (h : Hdr) (d a : Xr) : Statement (.launch h d a) := fun _ w => of_slot (left w)
theorem launchDrain (h : Hdr) (d a : Xr) : Statement (.launchDrain h d a) := fun _ w => of_slot (left (left w))
theorem launchAbort (h : Hdr) (d a : Xr) : Statement (.launchAbort h d a) := fun _ w => of_slot (left (left w))
theorem launchReset (h : Hdr) (d a : Xr) : Statement (.launchReset h d a) := fun _ w => of_slot (left (left w))
theorem launchRun (h : Hdr) (d a : Xr) : Statement (.launchRun h d a) := fun _ w => of_slot (left (left w))
theorem preempt (h : Hdr) (d a : Xr) : Statement (.preempt h d a) := fun _ w => of_slot (left (left w))
theorem preemptSave (h : Hdr) (d a : Xr) : Statement (.preemptSave h d a) := fun _ w => of_slot (left (left w))
theorem preemptKill (h : Hdr) (d a : Xr) : Statement (.preemptKill h d a) := fun _ w => of_slot (left (left w))
theorem tlbshoot (h : Hdr) (d a b : Xr) : Statement (.tlbshoot h d a b) := fun _ w => of_slot (left (left w))
theorem tlbshootAsid (h : Hdr) (d b : Xr) : Statement (.tlbshootAsid h d b) := fun _ w => of_slot (left (left w))
theorem tlbshootAll (h : Hdr) (d : Xr) : Statement (.tlbshootAll h d) := fun _ w => of_slot (left (left w))
theorem tlbshootGlob (h : Hdr) (d a b : Xr) : Statement (.tlbshootGlob h d a b) := fun _ w => of_slot (left (left w))
theorem tlbsync (h : Hdr) (a : Xr) : Statement (.tlbsync h a) := fun _ w => of_any (left (left w))
theorem reclass (h : Hdr) (a b : Xr) (c : RClass) : Statement (.reclass h a b c) := fun _ w => of_any (left (left w))
theorem reclassRd (h : Hdr) (d a : Xr) : Statement (.reclassRd h d a) := fun _ w => of_slot (left (left w))
theorem errbAdd (h : Hdr) (d a : Xr) : Statement (.errbAdd h d a) := fun _ w => of_slot (left (left w))
theorem errbRep (h : Hdr) (a : Xr) : Statement (.errbRep h a) := fun _ w => of_any (left w)
theorem faultack (h : Hdr) (a : Xr) : Statement (.faultack h a) := fun _ w => of_any (left (left w))
theorem faultackRefuse (h : Hdr) (a : Xr) : Statement (.faultackRefuse h a) := fun _ w => of_any (left (left w))
theorem reservationTimeout : Statement .reservationTimeout := fun _ _ => no_slot
theorem outstandingFeStep : Statement .outstandingFeStep := fun _ _ => no_slot
theorem sfreeComplete : Statement .sfreeComplete := fun _ _ => no_slot
theorem feWaiterRetry : Statement .feWaiterRetry := fun _ _ => no_slot
theorem feTimedRetry : Statement .feTimedRetry := fun _ _ => no_slot
theorem queueRetry : Statement .queueRetry := fun _ _ => no_slot
theorem channelAccept : Statement .channelAccept := fun _ _ => no_slot
theorem copy : Statement .copy := fun _ _ => no_slot
theorem copy2d : Statement .copy2d := fun _ _ => no_slot
theorem gather : Statement .gather := fun _ _ => no_slot
theorem scatter : Statement .scatter := fun _ _ => no_slot
theorem fill : Statement .fill := fun _ _ => no_slot
theorem convert : Statement .convert := fun _ _ => no_slot
theorem tileld : Statement .tileld := fun _ _ => no_slot
theorem tilest : Statement .tilest := fun _ _ => no_slot
theorem flagset : Statement .flagset := fun _ _ => no_slot
theorem bardec : Statement .bardec := fun _ _ => no_slot
theorem gangLatchTimeout : Statement .gangLatchTimeout := fun _ _ => no_slot
theorem engineStart : Statement .engineStart := fun _ _ => no_slot
theorem governorGrant : Statement .governorGrant := fun _ _ => no_slot
theorem governorWindowEnd : Statement .governorWindowEnd := fun _ _ => no_slot
theorem barrierWaitRetry : Statement .barrierWaitRetry := fun _ _ => no_slot
theorem groupWaitRetry : Statement .groupWaitRetry := fun _ _ => no_slot
theorem reclassComplete : Statement .reclassComplete := fun _ _ => no_slot
theorem clauseFetch : Statement .clauseFetch := fun _ _ => no_slot
theorem splitIssue : Statement .splitIssue := fun _ _ => no_slot
theorem issueArbitration : Statement .issueArbitration := fun _ _ => no_slot
theorem urgentFirstClause : Statement .urgentFirstClause := fun _ _ => no_slot
theorem wordComplete : Statement .wordComplete := fun _ _ => no_slot
theorem harnessFormation : Statement .harnessFormation := fun _ _ => no_slot
theorem rendezvousTimeout : Statement .rendezvousTimeout := fun _ _ => no_slot
theorem teamSplit : Statement .teamSplit := fun _ _ => no_slot
theorem autoSplit : Statement .autoSplit := fun _ _ => no_slot
theorem unitExit : Statement .unitExit := fun _ _ => no_slot
theorem fadeInterval : Statement .fadeInterval := fun _ _ => no_slot
theorem rds : Statement .rds := fun _ _ => no_slot
theorem rdo : Statement .rdo := fun _ _ => no_slot
theorem stw : Statement .stw := fun _ _ => no_slot
theorem upg : Statement .upg := fun _ _ => no_slot
theorem uns : Statement .uns := fun _ _ => no_slot
theorem evc : Statement .evc := fun _ _ => no_slot
theorem wbk : Statement .wbk := fun _ _ => no_slot
theorem fwd : Statement .fwd := fun _ _ => no_slot
theorem inv : Statement .inv := fun _ _ => no_slot
theorem upd : Statement .upd := fun _ _ => no_slot
theorem rcl : Statement .rcl := fun _ _ => no_slot
theorem dat : Statement .dat := fun _ _ => no_slot
theorem ack : Statement .ack := fun _ _ => no_slot
theorem nakRetry : Statement .nakRetry := fun _ _ => no_slot
theorem directorySliceFailure : Statement .directorySliceFailure := fun _ _ => no_slot
theorem errorCharge : Statement .errorCharge := fun _ _ => no_slot
theorem translationWalk : Statement .translationWalk := fun _ _ => no_slot
theorem migrationRewalk : Statement .migrationRewalk := fun _ _ => no_slot
theorem heldRequestComplete : Statement .heldRequestComplete := fun _ _ => no_slot
theorem operandLogRecord : Statement .operandLogRecord := fun _ _ => no_slot
theorem shootdownComplete : Statement .shootdownComplete := fun _ _ => no_slot
theorem imbShootdownRange : Statement .imbShootdownRange := fun _ _ => no_slot
theorem imbShootdownAsid : Statement .imbShootdownAsid := fun _ _ => no_slot
theorem imbShootdownAll : Statement .imbShootdownAll := fun _ _ => no_slot
theorem imbShootdownGlobal : Statement .imbShootdownGlobal := fun _ _ => no_slot
theorem imbFaultRetry : Statement .imbFaultRetry := fun _ _ => no_slot
theorem imbFaultRefuse : Statement .imbFaultRefuse := fun _ _ => no_slot
theorem dispatchCycle : Statement .dispatchCycle := fun _ _ => no_slot
theorem tileFlagReread : Statement .tileFlagReread := fun _ _ => no_slot
theorem recordComplete : Statement .recordComplete := fun _ _ => no_slot
theorem lateCompletionCheck : Statement .lateCompletionCheck := fun _ _ => no_slot
theorem messageDelivery : Statement .messageDelivery := fun _ _ => no_slot
theorem eventRecordWrite : Statement .eventRecordWrite := fun _ _ => no_slot
theorem preemptionArrival : Statement .preemptionArrival := fun _ _ => no_slot
theorem drainTimeout : Statement .drainTimeout := fun _ _ => no_slot
theorem doorbellAdvance : Statement .doorbellAdvance := fun _ _ => no_slot
theorem doorbellDrain : Statement .doorbellDrain := fun _ _ => no_slot
theorem doorbellAbort : Statement .doorbellAbort := fun _ _ => no_slot
theorem doorbellReset : Statement .doorbellReset := fun _ _ => no_slot
theorem doorbellRun : Statement .doorbellRun := fun _ _ => no_slot
theorem hubLqbaseWrite : Statement .hubLqbaseWrite := fun _ _ => no_slot
theorem eqCtlWrite : Statement .eqCtlWrite := fun _ _ => no_slot
theorem windowEntryWrite : Statement .windowEntryWrite := fun _ _ => no_slot
theorem windowEntryRead : Statement .windowEntryRead := fun _ _ => no_slot
theorem registerWrite : Statement .registerWrite := fun _ _ => no_slot
theorem inboundPostedWrite : Statement .inboundPostedWrite := fun _ _ => no_slot
theorem inboundFrame : Statement .inboundFrame := fun _ _ => no_slot
theorem frameAck : Statement .frameAck := fun _ _ => no_slot
theorem inboundAtomicop : Statement .inboundAtomicop := fun _ _ => no_slot
theorem cxlMemRequest : Statement .cxlMemRequest := fun _ _ => no_slot
theorem linkMessage : Statement .linkMessage := fun _ _ => no_slot
theorem linkFlitReceive : Statement .linkFlitReceive := fun _ _ => no_slot
theorem linkReplay : Statement .linkReplay := fun _ _ => no_slot
theorem laneRepair : Statement .laneRepair := fun _ _ => no_slot
theorem powerSample : Statement .powerSample := fun _ _ => no_slot
theorem thermalTrip : Statement .thermalTrip := fun _ _ => no_slot
theorem moduleReset : Statement .moduleReset := fun _ _ => no_slot
theorem mgmtAttest : Statement .mgmtAttest := fun _ _ => no_slot
theorem mgmtReadCert : Statement .mgmtReadCert := fun _ _ => no_slot
theorem mgmtCommitFirmware : Statement .mgmtCommitFirmware := fun _ _ => no_slot
theorem mgmtRestoreSlice : Statement .mgmtRestoreSlice := fun _ _ => no_slot
theorem mgmtInvalidCmd : Statement .mgmtInvalidCmd := fun _ _ => no_slot
theorem waitmTimedRetry : Statement .waitmTimedRetry := fun _ _ => no_slot
theorem bitError : Statement .bitError := fun _ _ => no_slot
theorem imbKindRejected : Statement .imbKindRejected := fun _ _ => no_slot
theorem inboundReadRequest : Statement .inboundReadRequest := fun _ _ => no_slot
theorem mgmtCommandComplete : Statement .mgmtCommandComplete := fun _ _ => no_slot

/-- No well-formed word names slot 7. -/
theorem all (i : Instr) : Statement i :=
  match i with
  | .br h off => br h off
  | .brDiv h off => brDiv h off
  | .join h => join h
  | .jmp h off => jmp h off
  | .jmpx h a => jmpx h a
  | .call h d off => call h d off
  | .callx h d a => callx h d a
  | .ret h a => ret h a
  | .loop h a off => loop h a off
  | .halt h => halt h
  | .yield h => yield h
  | .nop h => nop h
  | .cinch h a b kc wc entry => cinch h a b kc wc entry
  | .split h => split h
  | .movsr h d sri => movsr h d sri
  | .movrs h sri a => movrs h sri a
  | .movrsSet h sri a => movrsSet h sri a
  | .movrsClr h sri a => movrsClr h sri a
  | .add h t d a b => add h t d a b
  | .sub h t d a b => sub h t d a b
  | .adds h t d a b => adds h t d a b
  | .addsu h t d a b => addsu h t d a b
  | .subs h t d a b => subs h t d a b
  | .subsu h t d a b => subsu h t d a b
  | .mul h t d a b => mul h t d a b
  | .mulh h t d a b => mulh h t d a b
  | .mulhu h t d a b => mulhu h t d a b
  | .div h t d a b => div h t d a b
  | .divu h t d a b => divu h t d a b
  | .rem h t d a b => rem h t d a b
  | .remu h t d a b => remu h t d a b
  | .and h t d a b => and h t d a b
  | .or h t d a b => or h t d a b
  | .xor h t d a b => xor h t d a b
  | .andn h t d a b => andn h t d a b
  | .orn h t d a b => orn h t d a b
  | .shl h t d a b => shl h t d a b
  | .shr h t d a b => shr h t d a b
  | .sra h t d a b => sra h t d a b
  | .rol h t d a b => rol h t d a b
  | .clz h t d a => clz h t d a
  | .ctz h t d a => ctz h t d a
  | .popc h t d a => popc h t d a
  | .min h t d a b => min h t d a b
  | .max h t d a b => max h t d a b
  | .minu h t d a b => minu h t d a b
  | .maxu h t d a b => maxu h t d a b
  | .abs h t sat d a => abs h t sat d a
  | .sel h d pc a b => sel h d pc a b
  | .lea h d a b s => lea h d a b s
  | .ext h t d a => ext h t d a
  | .extu h t d a => extu h t d a
  | .bfx h d a pos len1 => bfx h d a pos len1
  | .bfxu h d a pos len1 => bfxu h d a pos len1
  | .bfi h d a pos len1 => bfi h d a pos len1
  | .cmp h c t pd a b pc => cmp h c t pd a b pc
  | .pand h pd pa pb => pand h pd pa pb
  | .por h pd pa pb => por h pd pa pb
  | .pxor h pd pa pb => pxor h pd pa pb
  | .pnot h pd pa => pnot h pd pa
  | .addi h t d a imm => addi h t d a imm
  | .muli h t d a imm => muli h t d a imm
  | .andi h t d a imm => andi h t d a imm
  | .ori h t d a imm => ori h t d a imm
  | .xori h t d a imm => xori h t d a imm
  | .shli h t d a imm => shli h t d a imm
  | .shri h t d a imm => shri h t d a imm
  | .srai h t d a imm => srai h t d a imm
  | .roli h t d a imm => roli h t d a imm
  | .cmpi h c t pd a imm => cmpi h c t pd a imm
  | .li h d imm => li h d imm
  | .lihMid h d imm => lihMid h d imm
  | .lihHigh h d imm => lihHigh h d imm
  | .fadd h t rm sat ftz d a b => fadd h t rm sat ftz d a b
  | .fsub h t rm sat ftz d a b => fsub h t rm sat ftz d a b
  | .fmul h t rm sat ftz d a b => fmul h t rm sat ftz d a b
  | .fma h t rm sat ftz d a b c => fma h t rm sat ftz d a b c
  | .fdiv h t rm ftz d a b => fdiv h t rm ftz d a b
  | .fsqrt h t rm ftz d a => fsqrt h t rm ftz d a
  | .fmin h t ftz d a b => fmin h t ftz d a b
  | .fmax h t ftz d a b => fmax h t ftz d a b
  | .fcmp h c t ftz pd a b pc => fcmp h c t ftz pd a b pc
  | .fcvt h t1 t2 rm sat ftz d a => fcvt h t1 t2 rm sat ftz d a
  | .fcvtu h t1 t2 rm ftz d a => fcvtu h t1 t2 rm ftz d a
  | .fclass h t d a => fclass h t d a
  | .frcp h t rm ftz d a => frcp h t rm ftz d a
  | .frsq h t rm ftz d a => frsq h t rm ftz d a
  | .fexp2 h t rm ftz d a => fexp2 h t rm ftz d a
  | .flog2 h t rm ftz d a => flog2 h t rm ftz d a
  | .fsinp h t rm ftz d a => fsinp h t rm ftz d a
  | .fscale h t rm ftz d a b => fscale h t rm ftz d a b
  | .vld h gv z rt sc wd d a pg off => vld h gv z rt sc wd d a pg off
  | .vst h gv rt sc wd d a pg off => vst h gv rt sc wd d a pg off
  | .vldx h gov rt sc wd d a b => vldx h gov rt sc wd d a b
  | .vstx h gv pg rt sc wd d a b => vstx h gv pg rt sc wd d a b
  | .vadd h t gov sat d a b => vadd h t gov sat d a b
  | .vaddu h t gov d a b => vaddu h t gov d a b
  | .vsub h t gov sat d a b => vsub h t gov sat d a b
  | .vsubu h t gov d a b => vsubu h t gov d a b
  | .vmul h t gov d a b => vmul h t gov d a b
  | .vmulh h t gov d a b => vmulh h t gov d a b
  | .vmulhu h t gov d a b => vmulhu h t gov d a b
  | .vmin h t gov d a b => vmin h t gov d a b
  | .vmax h t gov d a b => vmax h t gov d a b
  | .vminu h t gov d a b => vminu h t gov d a b
  | .vmaxu h t gov d a b => vmaxu h t gov d a b
  | .vand h t gov d a b => vand h t gov d a b
  | .vor h t gov d a b => vor h t gov d a b
  | .vxor h t gov d a b => vxor h t gov d a b
  | .vshl h t gov d a b => vshl h t gov d a b
  | .vshr h t gov d a b => vshr h t gov d a b
  | .vsra h t gov d a b => vsra h t gov d a b
  | .vfadd h t gov rm d a b => vfadd h t gov rm d a b
  | .vfmul h t gov rm d a b => vfmul h t gov rm d a b
  | .vfma h t gov rm d a b => vfma h t gov rm d a b
  | .vfmin h t gov d a b => vfmin h t gov d a b
  | .vfmax h t gov d a b => vfmax h t gov d a b
  | .vfcvt h t ts gov rm sat part d a => vfcvt h t ts gov rm sat part d a
  | .vfcvtu h t ts gov rm sat part d a => vfcvtu h t ts gov rm sat part d a
  | .vcmp h c t gov d a b => vcmp h c t gov d a b
  | .vwhile h t d a b => vwhile h t d a b
  | .vlen h d => vlen h d
  | .vsel h t pg d a b => vsel h t pg d a b
  | .vbcast h t gov d a => vbcast h t gov d a
  | .vbcastElement h t gov d a e => vbcastElement h t gov d a e
  | .vperm h t gov d a b => vperm h t gov d a b
  | .vcompress h t gv pg d a c => vcompress h t gv pg d a c
  | .vredadd h t gv pg rm sat d a b => vredadd h t gv pg rm sat d a b
  | .vredmin h t gv pg d a b => vredmin h t gv pg d a b
  | .vredminu h t gv pg d a b => vredminu h t gv pg d a b
  | .vredmax h t gv pg d a b => vredmax h t gv pg d a b
  | .vredmaxu h t gv pg d a b => vredmaxu h t gv pg d a b
  | .vscan h t gov rm d a b => vscan h t gov rm d a b
  | .vmerge h t d a b c => vmerge h t d a b c
  | .vmergeu h t d a b c => vmergeu h t d a b c
  | .vmergekv h t d a b c => vmergekv h t d a b c
  | .vmergekvu h t d a b c => vmergekvu h t d a b c
  | .vpair ha hb => vpair ha hb
  | .ld h rt sc span wd d a off => ld h rt sc span wd d a off
  | .st h rt sc span wd b a off => st h rt sc span wd b a off
  | .ldacq h rt sc span wd d a off => ldacq h rt sc span wd d a off
  | .strel h rt sc span wd b a off => strel h rt sc span wd b a off
  | .fence h sc => fence h sc
  | .amoadd h rt sc wd d a b off => amoadd h rt sc wd d a b off
  | .amoand h rt sc wd d a b off => amoand h rt sc wd d a b off
  | .amoor h rt sc wd d a b off => amoor h rt sc wd d a b off
  | .amoxor h rt sc wd d a b off => amoxor h rt sc wd d a b off
  | .amomin h rt sc wd d a b off => amomin h rt sc wd d a b off
  | .amominu h rt sc wd d a b off => amominu h rt sc wd d a b off
  | .amomax h rt sc wd d a b off => amomax h rt sc wd d a b off
  | .amomaxu h rt sc wd d a b off => amomaxu h rt sc wd d a b off
  | .amoswap h rt sc wd d a b off => amoswap h rt sc wd d a b off
  | .amocas h rt sc wd d a b off => amocas h rt sc wd d a b off
  | .ldlk h rt sc span wd d a off => ldlk h rt sc span wd d a off
  | .stck h rt sc wd pd b a off => stck h rt sc wd pd b a off
  | .subscr h fmt mode span pd a off => subscr h fmt mode span pd a off
  | .unsub h span a off => unsub h span a off
  | .upgr h fmt span pd a off => upgr h fmt span pd a off
  | .invspan h sc span a off => invspan h sc span a off
  | .wbspan h sc span a off => wbspan h sc span a off
  | .pref h rt span a off => pref h rt span a off
  | .pinw h pd a b off => pinw h pd a b off
  | .unpinw h pd a off => unpinw h pd a off
  | .lds h wd d a imm => lds h wd d a imm
  | .ldsu h wd d a imm => ldsu h wd d a imm
  | .sts h wd b a imm => sts h wd b a imm
  | .ldsf h wd d a imm => ldsf h wd d a imm
  | .ldse h wd d a imm => ldse h wd d a imm
  | .stsf h wd b a imm => stsf h wd b a imm
  | .stsx h wd b a imm => stsx h wd b a imm
  | .feopf h a b => feopf h a b
  | .feope h a b => feope h a b
  | .samoadd h wd d a b => samoadd h wd d a b
  | .samoand h wd d a b => samoand h wd d a b
  | .samoor h wd d a b => samoor h wd d a b
  | .samoxor h wd d a b => samoxor h wd d a b
  | .samomin h wd d a b => samomin h wd d a b
  | .samomax h wd d a b => samomax h wd d a b
  | .samominu h wd d a b => samominu h wd d a b
  | .samomaxu h wd d a b => samomaxu h wd d a b
  | .samoswap h wd d a b => samoswap h wd d a b
  | .samocas h wd d a b c => samocas h wd d a b c
  | .salloc h d pc a => salloc h d pc a
  | .sfree h a => sfree h a
  | .sfmtWrite h bf a => sfmtWrite h bf a
  | .sfmtRead h d bf => sfmtRead h d bf
  | .qbind h q port => qbind h q port
  | .qbindOff h q => qbindOff h q
  | .qpush h q a nb pd => qpush h q a nb pd
  | .qpop h d q nb pd => qpop h d q nb pd
  | .qpeek h d q nb pd => qpeek h d q nb pd
  | .qstat h d q => qstat h d q
  | .qdrain h q => qdrain h q
  | .qdrainAbort h q => qdrainAbort h q
  | .tclaim h pd c => tclaim h pd c
  | .trel h c => trel h c
  | .tzero h td hd => tzero h td hd
  | .tmov h td ta hd ha => tmov h td ta hd ha
  | .tmovt h td ta hd ha => tmovt h td ta hd ha
  | .mma h fa fb td ta tb ha hb sat => mma h fa fb td ta tb ha hb sat
  | .mmas h fa fb td ta tb ha hb c => mmas h fa fb td ta tb ha hb c
  | .tcvt h tt ts rm sat td ta hd ha => tcvt h tt ts rm sat td ta hd ha
  | .tgang h c => tgang h c
  | .tjoin h fa fb td ta tb ha hb sat => tjoin h fa fb td ta tb ha hb sat
  | .tjoins h fa fb td ta tb ha hb c => tjoins h fa fb td ta tb ha hb c
  | .barinit h rt sc a b off => barinit h rt sc a b off
  | .bararr h rt sc d a b off => bararr h rt sc d a b off
  | .barexp h rt sc a b off => barexp h rt sc a b off
  | .barwait h rt sc a b off => barwait h rt sc a b off
  | .bartest h rt sc pd a b off => bartest h rt sc pd a b off
  | .grpsync h gi => grpsync h gi
  | .grpvoteAll h pd pa gi => grpvoteAll h pd pa gi
  | .grpvoteAny h pd pa gi => grpvoteAny h pd pa gi
  | .grpvoteCount h d pa gi => grpvoteCount h d pa gi
  | .grpred h op flt d a gi => grpred h op flt d a gi
  | .trap h a code => trap h a code
  | .eret h a => eret h a
  | .wake h d a b => wake h d a b
  | .sendm h sc d a b => sendm h sc d a b
  | .waitm h sc d => waitm h sc d
  | .waitmNb h sc d => waitmNb h sc d
  | .winrd h d a b sel => winrd h d a b sel
  | .winwr h d a b sel => winwr h d a b sel
  | .ctxsave h d a => ctxsave h d a
  | .ctxload h d a => ctxload h d a
  | .launch h d a => launch h d a
  | .launchDrain h d a => launchDrain h d a
  | .launchAbort h d a => launchAbort h d a
  | .launchReset h d a => launchReset h d a
  | .launchRun h d a => launchRun h d a
  | .preempt h d a => preempt h d a
  | .preemptSave h d a => preemptSave h d a
  | .preemptKill h d a => preemptKill h d a
  | .tlbshoot h d a b => tlbshoot h d a b
  | .tlbshootAsid h d b => tlbshootAsid h d b
  | .tlbshootAll h d => tlbshootAll h d
  | .tlbshootGlob h d a b => tlbshootGlob h d a b
  | .tlbsync h a => tlbsync h a
  | .reclass h a b c => reclass h a b c
  | .reclassRd h d a => reclassRd h d a
  | .errbAdd h d a => errbAdd h d a
  | .errbRep h a => errbRep h a
  | .faultack h a => faultack h a
  | .faultackRefuse h a => faultackRefuse h a
  | .reservationTimeout => reservationTimeout
  | .outstandingFeStep => outstandingFeStep
  | .sfreeComplete => sfreeComplete
  | .feWaiterRetry => feWaiterRetry
  | .feTimedRetry => feTimedRetry
  | .queueRetry => queueRetry
  | .channelAccept => channelAccept
  | .copy => copy
  | .copy2d => copy2d
  | .gather => gather
  | .scatter => scatter
  | .fill => fill
  | .convert => convert
  | .tileld => tileld
  | .tilest => tilest
  | .flagset => flagset
  | .bardec => bardec
  | .gangLatchTimeout => gangLatchTimeout
  | .engineStart => engineStart
  | .governorGrant => governorGrant
  | .governorWindowEnd => governorWindowEnd
  | .barrierWaitRetry => barrierWaitRetry
  | .groupWaitRetry => groupWaitRetry
  | .reclassComplete => reclassComplete
  | .clauseFetch => clauseFetch
  | .splitIssue => splitIssue
  | .issueArbitration => issueArbitration
  | .urgentFirstClause => urgentFirstClause
  | .wordComplete => wordComplete
  | .harnessFormation => harnessFormation
  | .rendezvousTimeout => rendezvousTimeout
  | .teamSplit => teamSplit
  | .autoSplit => autoSplit
  | .unitExit => unitExit
  | .fadeInterval => fadeInterval
  | .rds => rds
  | .rdo => rdo
  | .stw => stw
  | .upg => upg
  | .uns => uns
  | .evc => evc
  | .wbk => wbk
  | .fwd => fwd
  | .inv => inv
  | .upd => upd
  | .rcl => rcl
  | .dat => dat
  | .ack => ack
  | .nakRetry => nakRetry
  | .directorySliceFailure => directorySliceFailure
  | .errorCharge => errorCharge
  | .translationWalk => translationWalk
  | .migrationRewalk => migrationRewalk
  | .heldRequestComplete => heldRequestComplete
  | .operandLogRecord => operandLogRecord
  | .shootdownComplete => shootdownComplete
  | .imbShootdownRange => imbShootdownRange
  | .imbShootdownAsid => imbShootdownAsid
  | .imbShootdownAll => imbShootdownAll
  | .imbShootdownGlobal => imbShootdownGlobal
  | .imbFaultRetry => imbFaultRetry
  | .imbFaultRefuse => imbFaultRefuse
  | .dispatchCycle => dispatchCycle
  | .tileFlagReread => tileFlagReread
  | .recordComplete => recordComplete
  | .lateCompletionCheck => lateCompletionCheck
  | .messageDelivery => messageDelivery
  | .eventRecordWrite => eventRecordWrite
  | .preemptionArrival => preemptionArrival
  | .drainTimeout => drainTimeout
  | .doorbellAdvance => doorbellAdvance
  | .doorbellDrain => doorbellDrain
  | .doorbellAbort => doorbellAbort
  | .doorbellReset => doorbellReset
  | .doorbellRun => doorbellRun
  | .hubLqbaseWrite => hubLqbaseWrite
  | .eqCtlWrite => eqCtlWrite
  | .windowEntryWrite => windowEntryWrite
  | .windowEntryRead => windowEntryRead
  | .registerWrite => registerWrite
  | .inboundPostedWrite => inboundPostedWrite
  | .inboundFrame => inboundFrame
  | .frameAck => frameAck
  | .inboundAtomicop => inboundAtomicop
  | .cxlMemRequest => cxlMemRequest
  | .linkMessage => linkMessage
  | .linkFlitReceive => linkFlitReceive
  | .linkReplay => linkReplay
  | .laneRepair => laneRepair
  | .powerSample => powerSample
  | .thermalTrip => thermalTrip
  | .moduleReset => moduleReset
  | .mgmtAttest => mgmtAttest
  | .mgmtReadCert => mgmtReadCert
  | .mgmtCommitFirmware => mgmtCommitFirmware
  | .mgmtRestoreSlice => mgmtRestoreSlice
  | .mgmtInvalidCmd => mgmtInvalidCmd
  | .waitmTimedRetry => waitmTimedRetry
  | .bitError => bitError
  | .imbKindRejected => imbKindRejected
  | .inboundReadRequest => inboundReadRequest
  | .mgmtCommandComplete => mgmtCommandComplete

end Sys2Proof.Laws.SlotInRange
end

