-- ==== Sys2Proof/Laws/Issue.lean ====
section
/-! SUPPORT. Issue.lean: what issuing a word does, said once. -/

set_option Elab.async false

namespace Sys2Proof.Machine

/-! ### Units in the state -/

theorem State.unit?_id {s : State} {k : UKey} {u : HwUnit} (h : s.unit? k = some u) : u.id = k := by
  have := List.find?_some h; simpa using this

theorem find_map_self {k : UKey} {f : HwUnit → HwUnit} {l : List HwUnit} {u : HwUnit} (h : l.find? (fun w => w.id == k) = some u)
    (hf : (f u).id = k) : (l.map (fun w => if w.id == k then f w else w)).find? (fun w => w.id == k) = some (f u) := by
  induction l with
  | nil => cases h
  | cons w r ih =>
    rw [List.find?_cons] at h
    rw [List.map_cons, List.find?_cons]
    cases hw : (w.id == k) with
    | true => rw [hw] at h; cases h; simp [hf]
    | false => rw [hw] at h; simp only [Bool.false_eq_true, if_false, hw]; exact ih h

theorem find_map_ne {k k' : UKey} {f : HwUnit → HwUnit} (hk : k' ≠ k) (hf : ∀ u : HwUnit, u.id = k → (f u).id ≠ k') (l : List HwUnit) :
    (l.map (fun w => if w.id == k then f w else w)).find? (fun w => w.id == k') = l.find? (fun w => w.id == k') := by
  induction l with
  | nil => rfl
  | cons w r ih =>
    rw [List.map_cons, List.find?_cons, List.find?_cons, ih]
    cases hw : (w.id == k) with
    | true =>
      have hw' : w.id = k := by simpa using hw
      have h1 : (w.id == k') = false := by rw [hw']; simpa using Ne.symm hk
      have h2 : ((f w).id == k') = false := by simpa using hf w hw'
      simp only [if_true, h1, h2]
    | false => simp only [Bool.false_eq_true, if_false]

theorem State.unit?_setUnit {s : State} {u v : HwUnit} (h : s.unit? v.id = some u) : (s.setUnit v).unit? v.id = some v :=
  find_map_self (f := fun _ => v) h rfl

theorem State.unit?_setUnit_ne {s : State} {v : HwUnit} {k : UKey} (h : k ≠ v.id) : (s.setUnit v).unit? k = s.unit? k :=
  find_map_ne (f := fun _ => v) h (fun _ _ => Ne.symm h) s.units

theorem State.unit?_modUnit {s : State} {k : UKey} {u : HwUnit} {f : HwUnit → HwUnit} (h : s.unit? k = some u) (hf : (f u).id = k) :
    (s.modUnit k f).unit? k = some (f u) :=
  find_map_self h hf

theorem State.unit?_modUnit_ne {s : State} {k k' : UKey} {f : HwUnit → HwUnit} (h : k' ≠ k) (hf : ∀ u, (f u).id = u.id) :
    (s.modUnit k f).unit? k' = s.unit? k' :=
  find_map_ne h (fun u hu => by rw [hf, hu]; exact Ne.symm h) s.units

/-! ### The bookkeeping of a word -/

@[simp] theorem HwUnit.withoutPlace_enter (u : HwUnit) : u.enter.withoutPlace = u.withoutPlace := by
  unfold HwUnit.enter; split
  · split <;> rfl
  · rfl

/-- A unit none of whose registers fails its check is as it was after a word has replaced parities. -/
@[simp] theorem HwUnit.repair_good {u : HwUnit} (h : u.bad = []) (d : RegSet) (e : LaneSet) : u.repair d e = u := by
  unfold HwUnit.repair; rw [h, List.filter_nil, ← h]

@[simp] theorem HwUnit.withoutPlace_retire (u : HwUnit) (c : Clause) (p : Word) : (u.retire c p).withoutPlace = u.withoutPlace := rfl

@[simp] theorem HwUnit.withoutPlace_advance (u : HwUnit) (nx : Next) : (u.advance nx).withoutPlace = u.withoutPlace := by
  unfold HwUnit.advance; split
  · rfl
  · split
    · rfl
    · split
      · rfl
      · split <;> rfl

theorem HwUnit.withoutPlace_issue (u : HwUnit) (i : Instr) (e : LaneSet) (nx : Next) : (u.issue i e nx).withoutPlace = u.withoutPlace := by
  unfold HwUnit.issue; simp only [withoutPlace_advance]
  show (HwUnit.withoutPlace u.enter) = _
  simp

/-- What `issue` does not look at or change before it advances. -/
theorem HwUnit.issue_eq (u : HwUnit) (i : Instr) (e : LaneSet) (nx : Next) : ∃ v : HwUnit, u.issue i e nx = v.advance nx ∧
    v.pc = u.pc ∧ v.widx = u.widx ∧ v.clause = u.clause ∧ v.after = u.after ∧ v.sb = u.sb ∧ v.id = u.id ∧
    v.retired = (if e = 0 then u.retired else u.retired + 1) := by
  refine ⟨_, rfl, ?_⟩
  obtain ⟨h1, h2, h3, h4, h5, h6, h7⟩ : u.enter.pc = u.pc ∧ u.enter.widx = u.widx ∧ u.enter.clause = u.clause ∧ u.enter.after = u.after ∧
      u.enter.sb = u.sb ∧ u.enter.id = u.id ∧ u.enter.retired = u.retired := by
    unfold HwUnit.enter; split
    · split <;> simp
    · simp
  exact ⟨h1, h2, h3, h4, h5, h6, by simp only [h7]⟩

theorem HwUnit.advance_facts (u : HwUnit) (nx : Next) : ((u.advance nx).pc, (u.advance nx).widx) = u.place nx ∧
    (u.advance nx).sb = u.sb ∧ (u.advance nx).id = u.id ∧ (u.advance nx).retired = u.retired := by
  unfold HwUnit.advance HwUnit.place
  cases u.after with
  | some p => simp
  | none =>
    cases hc : u.clause with
    | none => simp
    | some c =>
      cases nx
      · by_cases h : c.words.length ≤ u.widx
        · simp [h, HwUnit.retire, Nat.not_lt.mpr h]
        · simp [h, Nat.not_le.mp h]
      · simp [HwUnit.retire]

theorem HwUnit.issue_facts (u : HwUnit) (i : Instr) (e : LaneSet) (nx : Next) :
    ((u.issue i e nx).pc, (u.issue i e nx).widx) = u.place nx ∧ (u.issue i e nx).sb = u.sb ∧ (u.issue i e nx).id = u.id ∧
    (u.issue i e nx).retired = (if e = 0 then u.retired else u.retired + 1) := by
  obtain ⟨v, hv, h1, h2, h3, h4, h5, h6, h7⟩ := u.issue_eq i e nx
  obtain ⟨a1, a2, a3, a4⟩ := v.advance_facts nx
  rw [hv]
  refine ⟨?_, a2.trans h5, a3.trans h6, a4.trans h7⟩
  rw [a1]; unfold HwUnit.place; rw [h4, h3, h1, h2]

/-! ### The state after a word has issued -/

theorem State.occupy_eq (s : State) (u : HwUnit) (i : Instr) : ∃ hs, s.occupy u i = { s with harnesses := hs } := by
  unfold State.occupy; split
  · exact ⟨_, rfl⟩
  · exact ⟨_, rfl⟩

/-- Issuing a word changes its unit and the issue slots, and nothing else. -/
theorem State.issueAs_eq (s : State) (u v : HwUnit) (i : Instr) (e : LaneSet) (nx : Next) :
    ∃ hs n, s.issueAs u v i e nx = { s.setUnit ({ v with sparse := n }.issue i e nx) with harnesses := hs } := by
  unfold State.issueAs
  obtain ⟨h1, e1⟩ := s.occupy_eq u i
  rw [e1]; exact ⟨h1, _, rfl⟩

theorem State.unit?_congr {a b : State} (h : a.units = b.units) (k : UKey) : a.unit? k = b.unit? k := by
  unfold State.unit?; rw [h]

theorem HwUnit.counter_ne (u : HwUnit) (a b : BitVec 3) (ha : a ≠ 0) (hb : b ≠ 0) (h : b ≠ a) : (u.incSb a).counter b = u.counter b := by
  unfold HwUnit.incSb; rw [if_neg ha]
  unfold HwUnit.counter
  have : a.toNat - 1 ≠ b.toNat - 1 := by
    intro hh
    have h1 : a.toNat ≠ 0 := fun h => ha (BitVec.eq_of_toNat_eq h)
    have h2 : b.toNat ≠ 0 := fun h => hb (BitVec.eq_of_toNat_eq h)
    exact h (BitVec.eq_of_toNat_eq (by omega))
  simp [Vector.toList_setIfInBounds, List.getD_eq_getElem?_getD, List.getElem?_set, this]

theorem HwUnit.counter_self (u : HwUnit) (a : BitVec 3) (ha : a ≠ 0) (h7 : a ≠ 7) : (u.incSb a).counter a = u.counter a + 1 := by
  unfold HwUnit.incSb; rw [if_neg ha]
  unfold HwUnit.counter
  have : a.toNat - 1 < 6 := by
    have h1 : a.toNat ≠ 7 := fun h => h7 (BitVec.eq_of_toNat_eq h)
    have := a.isLt; omega
  simp [Vector.toList_setIfInBounds, List.getD_eq_getElem?_getD, List.getElem?_set, this]

theorem HwUnit.incSb_id (u : HwUnit) (a : BitVec 3) : (u.incSb a).id = u.id := by unfold HwUnit.incSb; split <;> rfl

theorem HwUnit.incSb_facts (u : HwUnit) (a : BitVec 3) : (u.incSb a).withoutPlace = u.withoutPlace ∧ (u.incSb a).pc = u.pc ∧
    (u.incSb a).widx = u.widx ∧ (u.incSb a).retired = u.retired := by
  unfold HwUnit.incSb; split <;> exact ⟨rfl, rfl, rfl, rfl⟩

/-- `v` stands where `u` stands, with its counts. -/
def HwUnit.SamePlace (u v : HwUnit) : Prop :=
  v.id = u.id ∧ v.pc = u.pc ∧ v.widx = u.widx ∧ v.clause = u.clause ∧ v.after = u.after ∧ v.sb = u.sb ∧ v.retired = u.retired

theorem HwUnit.counter_congr {u v : HwUnit} (h : v.sb = u.sb) (k : BitVec 3) : v.counter k = u.counter k := by
  unfold HwUnit.counter; rw [h]

/-- A fixed-latency word issues. -/
theorem State.issueFixed_issued {s : State} {u v : HwUnit} {i : Instr} {e : LaneSet} {nx : Next} (hu : s.unit? u.id = some u)
    (hp : u.SamePlace v) (hb : v.bad = []) (h7 : i.hdr.sb ≠ 7) : Issued i e nx s (s.issueFixed u v i e nx) u v := by
  obtain ⟨hs, n, hi⟩ := s.issueAs_eq u v i e nx
  unfold State.issueFixed
  rw [HwUnit.repair_good hb, hi]
  -- only the count of sparse passes has changed before the word issues
  have hw : v.withoutPlace = ({ v with sparse := n } : HwUnit).withoutPlace := rfl
  suffices h : ∀ v : HwUnit, u.SamePlace v → Issued i e nx s (let s' := { s.setUnit (v.issue i e nx) with harnesses := hs }
      if i.hdr.sb = 0 then s' else
        let occ := if u.team then s.occupancy u (onceWord i) else 1
        ({ s' with ids := s'.ids + 1 }.addOut u.id { mkOut s'.ids u i e with due := true }).at_ (s.now + occ) (.wordComplete s'.ids)) u v by
    obtain ⟨⟨w, h1, h2, h3⟩, ha⟩ := h { v with sparse := n } hp
    exact ⟨⟨w, h1, h2.trans hw.symm, h3⟩, ha⟩
  intro v hp
  obtain ⟨p1, p2, p3, p4, p5, p6, p7⟩ := hp
  obtain ⟨f1, f2, f3, f4⟩ := v.issue_facts i e nx
  have hid : (v.issue i e nx).id = u.id := f3.trans p1
  have hu' : s.unit? (v.issue i e nx).id = some u := by rw [hid]; exact hu
  have hpl : v.place nx = u.place nx := by unfold HwUnit.place; rw [p5, p4, p2, p3]
  have hret : (v.issue i e nx).retired = (if e = 0 then u.retired else u.retired + 1) := by rw [f4, p7]
  by_cases h0 : i.hdr.sb = 0
  · rw [if_pos h0]
    refine ⟨⟨v.issue i e nx, ?_, v.withoutPlace_issue i e nx, f1.trans hpl, hret, fun h => absurd h0 h, fun k _ _ =>
      HwUnit.counter_congr (f2.trans p6) k⟩, ⟨fun k hk => ?_, fun _ => rfl, rfl⟩⟩
    · have := State.unit?_setUnit hu'; rw [hid] at this; exact this
    · exact State.unit?_setUnit_ne (by rw [hid]; exact hk)
  · rw [if_neg h0]
    have e1 := State.unit?_setUnit hu'
    rw [hid] at e1
    obtain ⟨g1, g2, g3, g4⟩ := (v.issue i e nx).incSb_facts i.hdr.sb
    refine ⟨⟨(v.issue i e nx).incSb i.hdr.sb, ?_, g1.trans (v.withoutPlace_issue i e nx), ?_, g4.trans hret, fun _ => ?_, fun k hk hk' => ?_⟩,
      ⟨fun k hk => ?_, fun _ => rfl, rfl⟩⟩
    · exact State.unit?_modUnit (f := fun w => w.incSb i.hdr.sb) e1 (by rw [HwUnit.incSb_id]; exact hid)
    · rw [g2, g3]; exact f1.trans hpl
    · rw [HwUnit.counter_self _ _ h0 h7, HwUnit.counter_congr (f2.trans p6)]
    · rw [HwUnit.counter_ne _ _ _ h0 hk hk', HwUnit.counter_congr (f2.trans p6)]
    · exact (State.unit?_modUnit_ne (f := fun w => w.incSb i.hdr.sb) hk (fun w => HwUnit.incSb_id w _)).trans
        (State.unit?_setUnit_ne (by rw [hid]; exact hk))

/-! ### The frame -/

/-- A ready word that executes in a lane, or that acts without one, has the effect of its body. -/
theorem frame_ready {i : Instr} {s : State} {u : HwUnit} {e : LaneSet} {always : Bool} (h : Ready i s u e) (he : e ≠ 0 ∨ always = true)
    (body : HwUnit → LaneSet → State → State) : frame always i s body = .next (body u e s) := by
  have hi : s.issuer = some u := by unfold State.issuer; rw [h.cur]; exact h.unit
  have hb : (i.hdr.sb != 0 && u.counter i.hdr.sb == 63) = false := by
    rcases h.room with h0 | h0
    · rw [h0]; rfl
    · rw [beq_eq_false_iff_ne.mpr h0, Bool.and_false]
  have hz : (decide (e = 0) && !always) = false := by
    rcases he with he | he
    · rw [decide_eq_false he]; rfl
    · rw [he]; exact Bool.and_false _
  unfold frame
  rw [hi]
  simp only [h.wf, hb, h.good, h.goodSr, h.lanes, hz, Bool.not_true, Bool.false_eq_true, if_false, List.isEmpty_nil, if_true, Bool.and_self]

/-- A ready word that executes in no lane only issues. -/
theorem frame_nowhere {i : Instr} {s : State} {u : HwUnit} (h : Ready i s u 0) (body : HwUnit → LaneSet → State → State) :
    frame false i s body = .next (s.issueAs u u i 0) := by
  have hi : s.issuer = some u := by unfold State.issuer; rw [h.cur]; exact h.unit
  have hb : (i.hdr.sb != 0 && u.counter i.hdr.sb == 63) = false := by
    rcases h.room with h0 | h0
    · rw [h0]; rfl
    · rw [beq_eq_false_iff_ne.mpr h0, Bool.and_false]
  unfold frame
  rw [hi]
  simp only [h.wf, hb, h.good, h.goodSr, h.lanes, Bool.not_true, Bool.not_false, Bool.false_eq_true, if_false, List.isEmpty_nil, if_true,
    decide_true, Bool.and_self]

theorem Ready.slot {i : Instr} {s : State} {u : HwUnit} {e : LaneSet} (h : Ready i s u e) : i.hdr.sb ≠ 7 :=
  Laws.SlotInRange.all i u.env h.wf

/-- A fixed-latency word of a ready unit issues with the unit that its effect makes. -/
theorem laneWord_issued {i : Instr} {s : State} {u : HwUnit} {e : LaneSet} (h : Ready i s u e) (he : e ≠ 0) (f : Lane → Lane) :
    ∃ t, laneWord i s f = .next t ∧ Issued i e .seq s t u (u.mapLanes e (fun _ l => f l)) := by
  refine ⟨s.issueFixed u (u.mapLanes e (fun _ l => f l)) i e, ?_, ?_⟩
  · unfold laneWord word; exact frame_ready h (.inl he) _
  · exact State.issueFixed_issued h.unit ⟨rfl, rfl, rfl, rfl, rfl, rfl, rfl⟩ h.good h.slot

/-! ### Writes to registers -/

theorem Lane.X_setX (l : Lane) (d r : Xr) (v : Word) : (l.setX d v).X r = if r = d ∧ r ≠ 0 then v else l.X r := by
  unfold Lane.setX
  by_cases hd : d = 0
  · rw [if_pos hd, if_neg (fun h => h.2 (h.1.trans hd))]
  · rw [if_neg hd]
    unfold Lane.X
    by_cases hr : r = 0
    · rw [if_pos hr, if_pos hr, if_neg (fun h => h.2 hr)]
    · rw [if_neg hr, if_neg hr]
      by_cases h : r = d
      · subst h; rw [if_pos ⟨rfl, hr⟩]; simp
      · have : d.toNat ≠ r.toNat := fun hh => h (BitVec.eq_of_toNat_eq hh.symm)
        rw [if_neg (fun hh => h hh.1)]; simp [Vector.getElem_set, this]

theorem HwUnit.lane_mapLanes (u : HwUnit) (e : LaneSet) (f : Nat → Lane → Lane) {n : Nat} (h : n < u.lanes.length) :
    (u.mapLanes e f).lane n = if e.getLsbD n then f n (u.lane n) else u.lane n := by
  unfold HwUnit.mapLanes HwUnit.lane
  simp [List.getD_eq_getElem?_getD, List.getElem?_mapIdx, h]

/-- Writing a register in the lanes of a set. -/
theorem HwUnit.mapLanes_writesX (u : HwUnit) (e : LaneSet) (d : Xr) (f : Nat → Lane → Word) :
    WritesX u (u.mapLanes e (fun n l => l.setX d (f n l))) e d f := by
  refine ⟨rfl, by simp [HwUnit.mapLanes], fun n hn r => ?_, fun n => ?_⟩
  · rw [HwUnit.lane_mapLanes _ _ _ hn]
    by_cases he : e.getLsbD n = true
    · simp [he, Lane.X_setX]
    · simp [he]
  · by_cases hn : n < u.lanes.length
    · rw [HwUnit.lane_mapLanes _ _ _ hn]
      by_cases he : e.getLsbD n = true
      · simp only [he, if_true, Lane.setX]; split <;> exact ⟨rfl, rfl⟩
      · simp [he]
    · have : (u.mapLanes e (fun n l => l.setX d (f n l))).lane n = u.lane n := by
        unfold HwUnit.mapLanes HwUnit.lane
        simp [List.getD_eq_getElem?_getD, List.getElem?_mapIdx, hn]
      rw [this]; exact ⟨rfl, rfl⟩

end Sys2Proof.Machine
end

