-- ==== Sys2Proof/Laws/Memory.lean ====
section
/-! SUPPORT. Memory.lean: a byte read after a write, and the canonical form that every operation on a memory keeps. -/

set_option Elab.async false

namespace Sys2Proof.Machine

/-! ### One byte -/

theorem memGet_erase (m : List Host.Cell) (a b : Nat) : memGet (memErase m a) b = if b = a then 0 else memGet m b := by
  induction m with
  | nil => simp [memErase, memGet]
  | cons c r ih =>
    obtain ⟨k, v⟩ := c
    by_cases hk : k = a
    · subst hk
      simp only [memErase, if_true, ih, memGet]
      by_cases hb : b = k
      · simp [hb]
      · simp [hb, Ne.symm hb]
    · simp only [memErase, hk, if_false, memGet, ih]
      by_cases hb : k = b
      · subst hb; simp [hk]
      · simp [hb]

theorem memGet_insert (m : List Host.Cell) (a b : Nat) (v : Byte) : memGet (memInsert m a v) b = if b = a then v else memGet m b := by
  induction m with
  | nil => simp only [memInsert, memGet, eq_comm]
  | cons c r ih =>
    obtain ⟨k, w⟩ := c
    simp only [memInsert]
    by_cases h1 : a < k
    · simp only [h1, if_true, memGet]; simp only [eq_comm (a := a)]
    · simp only [h1, if_false]
      by_cases h2 : a = k
      · subst h2; simp only [if_true, memGet]
        by_cases hb : a = b
        · subst hb; simp
        · simp [hb, Ne.symm hb]
      · simp only [h2, if_false, memGet, ih]
        by_cases hb : k = b
        · subst hb; simp [Ne.symm h2]
        · simp [hb]

/-- A byte reads as what was written there last; every other byte stands. -/
theorem memGet_set (m : List Host.Cell) (a b : Nat) (v : Byte) : memGet (memSet m a v) b = if b = a then v else memGet m b := by
  unfold memSet
  by_cases h : v = 0
  · rw [if_pos h, memGet_erase, h]
  · rw [if_neg h, memGet_insert]

/-! ### Runs of bytes -/

theorem memGet_write (n : Nat) : ∀ (m : List Host.Cell) (a v b : Nat),
    memGet (memWrite m a n v) b = if a ≤ b ∧ b < a + n then BitVec.ofNat 8 (v / 256 ^ (b - a)) else memGet m b := by
  induction n with
  | zero => intro m a v b; simp only [memWrite]; rw [if_neg (by omega)]
  | succ n ih =>
    intro m a v b
    rw [memWrite, ih, memGet_set]
    by_cases h1 : a + 1 ≤ b ∧ b < a + 1 + n
    · rw [if_pos h1, if_pos (by omega)]
      have : b - a = (b - (a + 1)) + 1 := by omega
      rw [this, pow_succ, Nat.mul_comm, ← Nat.div_div_eq_div_mul]
    · rw [if_neg h1]
      by_cases h2 : b = a
      · subst h2; rw [if_pos rfl, if_pos (by omega)]; simp
      · rw [if_neg h2, if_neg (by omega)]

theorem memGet_writeBytes (l : List (Option Byte)) : ∀ (m : List Host.Cell) (a b : Nat),
    memGet (memWriteBytes m a l) b = if a ≤ b then ((l.getD (b - a) none).getD (memGet m b)) else memGet m b := by
  induction l with
  | nil => intro m a b; simp [memWriteBytes]
  | cons x r ih =>
    intro m a b
    have key : ∀ m', memGet m' b = (if b = a then x.getD (memGet m b) else memGet m b) →
        memGet (memWriteBytes m' (a + 1) r) b = if a ≤ b then (((x :: r).getD (b - a) none).getD (memGet m b)) else memGet m b := by
      intro m' hm
      rw [ih, hm]
      by_cases h2 : b = a
      · subst h2; rw [if_neg (by omega), if_pos rfl, if_pos (Nat.le_refl _)]; simp
      · rw [if_neg h2]
        by_cases h1 : a + 1 ≤ b
        · rw [if_pos h1, if_pos (by omega)]
          have : b - a = (b - (a + 1)) + 1 := by omega
          rw [this]; simp
        · rw [if_neg h1, if_neg (by omega)]
    cases x with
    | none => exact key m (by by_cases h : b = a <;> simp [h])
    | some v => exact key _ (by rw [memGet_set]; by_cases h : b = a <;> simp [h])

/-! ### The canonical form -/

theorem memWfFrom_mono : ∀ (m : List Host.Cell) (a b : Nat), a ≤ b → memWfFrom b m = true → memWfFrom a m = true
  | [], _, _, _, _ => rfl
  | (k, v) :: r, a, b, h, w => by
    simp only [memWfFrom, Bool.and_eq_true, decide_eq_true_eq] at w ⊢
    exact ⟨⟨by omega, w.1.2⟩, w.2⟩

theorem memWfFrom_erase (a : Nat) : ∀ (m : List Host.Cell) (lo : Nat), memWfFrom lo m = true → memWfFrom lo (memErase m a) = true
  | [], _, _ => rfl
  | (k, v) :: r, lo, w => by
    simp only [memWfFrom, Bool.and_eq_true, decide_eq_true_eq] at w
    have ih := memWfFrom_erase a r (k + 1) w.2
    simp only [memErase]
    split
    · exact memWfFrom_mono _ _ _ (by omega) ih
    · simp only [memWfFrom, Bool.and_eq_true, decide_eq_true_eq]; exact ⟨w.1, ih⟩

theorem memWfFrom_insert (a : Nat) (v : Byte) (hv : v ≠ 0) :
    ∀ (m : List Host.Cell) (lo : Nat), lo ≤ a → memWfFrom lo m = true → memWfFrom lo (memInsert m a v) = true
  | [], lo, h, _ => by simp only [memInsert, memWfFrom, Bool.and_eq_true, decide_eq_true_eq]; exact ⟨⟨h, hv⟩, trivial⟩
  | (k, x) :: r, lo, h, w => by
    simp only [memWfFrom, Bool.and_eq_true, decide_eq_true_eq] at w
    simp only [memInsert]
    split
    · simp only [memWfFrom, Bool.and_eq_true, decide_eq_true_eq]
      exact ⟨⟨h, hv⟩, ⟨by omega, w.1.2⟩, w.2⟩
    · split
      · subst a; simp only [memWfFrom, Bool.and_eq_true, decide_eq_true_eq]; exact ⟨⟨h, hv⟩, w.2⟩
      · have ih := memWfFrom_insert a v hv r (k + 1) (by omega) w.2
        simp only [memWfFrom, Bool.and_eq_true, decide_eq_true_eq]; exact ⟨w.1, ih⟩

theorem Memory.wf_set {m : List Host.Cell} (h : Memory.wf m = true) (a : Nat) (v : Byte) : Memory.wf (memSet m a v) = true := by
  unfold memSet
  split
  · exact memWfFrom_erase a m 0 h
  · next hv => exact memWfFrom_insert a v hv m 0 (Nat.zero_le a) h

theorem Memory.wf_write (n : Nat) : ∀ {m : List Host.Cell}, Memory.wf m = true → ∀ a v, Memory.wf (memWrite m a n v) = true := by
  induction n with
  | zero => intro m h a v; exact h
  | succ n ih => intro m h a v; exact ih (Memory.wf_set h _ _) _ _

theorem Memory.wf_writeBytes (l : List (Option Byte)) : ∀ {m : List Host.Cell}, Memory.wf m = true → ∀ a,
    Memory.wf (memWriteBytes m a l) = true := by
  induction l with
  | nil => intro m h a; exact h
  | cons x r ih =>
    intro m h a
    cases x with
    | none => exact ih h _
    | some v => exact ih (Memory.wf_set h _ _) _

theorem Memory.wf_foldl {α : Type} (f : List Host.Cell → α → List Host.Cell) (hf : ∀ m x, Memory.wf m = true → Memory.wf (f m x) = true)
    (l : List α) : ∀ {m : List Host.Cell}, Memory.wf m = true → Memory.wf (l.foldl f m) = true := by
  induction l with
  | nil => intro m h; exact h
  | cons x r ih => intro m h; exact ih (hf m x h)

theorem Memory.wf_putCells {m : List Host.Cell} (h : Memory.wf m = true) (b : Nat) (ps : List Put) : Memory.wf (putCells m b ps) = true :=
  Memory.wf_foldl _ (fun _ _ w => Memory.wf_write 4 w _ _) ps h

theorem Memory.wf_scramble (d n : Nat) : ∀ {m : List Host.Cell}, Memory.wf m = true → ∀ a, Memory.wf (scramble m a d n) = true := by
  induction n with
  | zero => intro m h a; exact h
  | succ n ih => intro m h a; exact ih (Memory.wf_set h _ _) _

theorem Memory.wf_refreshed (d n : Nat) : ∀ {m : List Host.Cell}, Memory.wf m = true → ∀ a, Memory.wf (refreshed d m a n) = true := by
  induction n with
  | zero => intro m h a; exact h
  | succ n ih =>
    intro m h a
    simp only [refreshed]
    split
    · exact ih (Memory.wf_set h _ _) _
    · exact ih h _

theorem memWfFrom_filter (p : Host.Cell → Bool) : ∀ (m : List Host.Cell) (lo : Nat), memWfFrom lo m = true → memWfFrom lo (m.filter p) = true
  | [], _, _ => rfl
  | (k, v) :: r, lo, w => by
    simp only [memWfFrom, Bool.and_eq_true, decide_eq_true_eq] at w
    have ih := memWfFrom_filter p r (k + 1) w.2
    rw [List.filter_cons]
    split
    · simp only [memWfFrom, Bool.and_eq_true, decide_eq_true_eq]; exact ⟨w.1, ih⟩
    · exact memWfFrom_mono _ _ _ (by omega) ih

theorem Memory.wf_filter {m : List Host.Cell} (h : Memory.wf m = true) (p : Host.Cell → Bool) : Memory.wf (m.filter p) = true :=
  memWfFrom_filter p m 0 h

/-- The memory right after reset has the canonical form. -/
theorem Memory.wf_reset : Memory.wf State.reset.mem = true := rfl

/-! ### The state's memory -/

theorem State.wf_w64 {s : State} (h : Memory.wf s.mem = true) (a : Nat) (v : Word) : Memory.wf (s.w64 a v).mem = true :=
  Memory.wf_write 8 h a v.toNat

theorem State.wf_w64s (l : List Word) : ∀ {s : State}, Memory.wf s.mem = true → ∀ a, Memory.wf (s.w64s a l).mem = true := by
  induction l with
  | nil => intro s h a; exact h
  | cons v r ih => intro s h a; exact ih (State.wf_w64 h a v) _

theorem State.wf_writeArea {s : State} (h : Memory.wf s.mem = true) (k : UKey) : Memory.wf (s.writeArea k).mem = true := by
  unfold State.writeArea
  split
  · exact h
  · split
    · exact h
    · exact State.wf_w64s _ (State.wf_w64s _ h _) _

end Sys2Proof.Machine
end

