-- ==== Sys2Proof/Laws/State.lean ====
section
/-! SUPPORT. State.lean: what each update of the state, of a unit and of a lane leaves in each field. -/

namespace Sys2Proof.Machine


/-! ### setUnit -/

@[simp] theorem State.setUnit_now (s : State) (u : HwUnit) : (s.setUnit u).now = s.now := rfl
@[simp] theorem State.setUnit_phase (s : State) (u : HwUnit) : (s.setUnit u).phase = s.phase := rfl
@[simp] theorem State.setUnit_agenda (s : State) (u : HwUnit) : (s.setUnit u).agenda = s.agenda := rfl
@[simp] theorem State.setUnit_future (s : State) (u : HwUnit) : (s.setUnit u).future = s.future := rfl
@[simp] theorem State.setUnit_inputs (s : State) (u : HwUnit) : (s.setUnit u).inputs = s.inputs := rfl
@[simp] theorem State.setUnit_grants (s : State) (u : HwUnit) : (s.setUnit u).grants = s.grants := rfl
@[simp] theorem State.setUnit_cur (s : State) (u : HwUnit) : (s.setUnit u).cur = s.cur := rfl
@[simp] theorem State.setUnit_arg (s : State) (u : HwUnit) : (s.setUnit u).arg = s.arg := rfl
@[simp] theorem State.setUnit_fresh (s : State) (u : HwUnit) : (s.setUnit u).fresh = s.fresh := rfl
@[simp] theorem State.setUnit_ids (s : State) (u : HwUnit) : (s.setUnit u).ids = s.ids := rfl
@[simp] theorem State.setUnit_units (s : State) (u : HwUnit) : (s.setUnit u).units = s.units.map (fun w => if w.id == u.id then u else w) := rfl
@[simp] theorem State.setUnit_harnesses (s : State) (u : HwUnit) : (s.setUnit u).harnesses = s.harnesses := rfl
@[simp] theorem State.setUnit_clusters (s : State) (u : HwUnit) : (s.setUnit u).clusters = s.clusters := rfl
@[simp] theorem State.setUnit_incs (s : State) (u : HwUnit) : (s.setUnit u).incs = s.incs := rfl
@[simp] theorem State.setUnit_lastSlot (s : State) (u : HwUnit) : (s.setUnit u).lastSlot = s.lastSlot := rfl
@[simp] theorem State.setUnit_outw (s : State) (u : HwUnit) : (s.setUnit u).outw = s.outw := rfl
@[simp] theorem State.setUnit_mem (s : State) (u : HwUnit) : (s.setUnit u).mem = s.mem := rfl
@[simp] theorem State.setUnit_fadeint (s : State) (u : HwUnit) : (s.setUnit u).fadeint = s.fadeint := rfl
@[simp] theorem State.setUnit_pagerdst (s : State) (u : HwUnit) : (s.setUnit u).pagerdst = s.pagerdst := rfl
@[simp] theorem State.setUnit_staledrop (s : State) (u : HwUnit) : (s.setUnit u).staledrop = s.staledrop := rfl
@[simp] theorem State.setUnit_errb (s : State) (u : HwUnit) : (s.setUnit u).errb = s.errb := rfl
@[simp] theorem State.setUnit_badSr (s : State) (u : HwUnit) : (s.setUnit u).badSr = s.badSr := rfl
@[simp] theorem State.setUnit_devnum (s : State) (u : HwUnit) : (s.setUnit u).devnum = s.devnum := rfl
@[simp] theorem State.setUnit_lates (s : State) (u : HwUnit) : (s.setUnit u).lates = s.lates := rfl
@[simp] theorem State.setUnit_late (s : State) (u : HwUnit) : (s.setUnit u).late = s.late := rfl
@[simp] theorem State.setUnit_ext (s : State) (u : HwUnit) : (s.setUnit u).ext = s.ext := rfl
@[simp] theorem State.setUnit_poison (s : State) (u : HwUnit) : (s.setUnit u).poison = s.poison := rfl
@[simp] theorem State.setUnit_errs (s : State) (u : HwUnit) : (s.setUnit u).errs = s.errs := rfl
@[simp] theorem State.setUnit_classes (s : State) (u : HwUnit) : (s.setUnit u).classes = s.classes := rfl
@[simp] theorem State.setUnit_gbusy (s : State) (u : HwUnit) : (s.setUnit u).gbusy = s.gbusy := rfl
@[simp] theorem State.setUnit_l1 (s : State) (u : HwUnit) : (s.setUnit u).l1 = s.l1 := rfl
@[simp] theorem State.setUnit_l2 (s : State) (u : HwUnit) : (s.setUnit u).l2 = s.l2 := rfl
@[simp] theorem State.setUnit_dir (s : State) (u : HwUnit) : (s.setUnit u).dir = s.dir := rfl
@[simp] theorem State.setUnit_dirBits (s : State) (u : HwUnit) : (s.setUnit u).dirBits = s.dirBits := rfl
@[simp] theorem State.setUnit_slicesDown (s : State) (u : HwUnit) : (s.setUnit u).slicesDown = s.slicesDown := rfl
@[simp] theorem State.setUnit_txns (s : State) (u : HwUnit) : (s.setUnit u).txns = s.txns := rfl
@[simp] theorem State.setUnit_dirWait (s : State) (u : HwUnit) : (s.setUnit u).dirWait = s.dirWait := rfl
@[simp] theorem State.setUnit_wbufs (s : State) (u : HwUnit) : (s.setUnit u).wbufs = s.wbufs := rfl
@[simp] theorem State.setUnit_wires (s : State) (u : HwUnit) : (s.setUnit u).wires = s.wires := rfl
@[simp] theorem State.setUnit_naks (s : State) (u : HwUnit) : (s.setUnit u).naks = s.naks := rfl
@[simp] theorem State.setUnit_nakCount (s : State) (u : HwUnit) : (s.setUnit u).nakCount = s.nakCount := rfl
@[simp] theorem State.setUnit_accs (s : State) (u : HwUnit) : (s.setUnit u).accs = s.accs := rfl
@[simp] theorem State.setUnit_tlb (s : State) (u : HwUnit) : (s.setUnit u).tlb = s.tlb := rfl
@[simp] theorem State.setUnit_replays (s : State) (u : HwUnit) : (s.setUnit u).replays = s.replays := rfl
@[simp] theorem State.setUnit_stopes (s : State) (u : HwUnit) : (s.setUnit u).stopes = s.stopes := rfl
@[simp] theorem State.setUnit_barWaits (s : State) (u : HwUnit) : (s.setUnit u).barWaits = s.barWaits := rfl
@[simp] theorem State.setUnit_latches (s : State) (u : HwUnit) : (s.setUnit u).latches = s.latches := rfl
@[simp] theorem State.setUnit_hub (s : State) (u : HwUnit) : (s.setUnit u).hub = s.hub := rfl
@[simp] theorem State.setUnit_msix (s : State) (u : HwUnit) : (s.setUnit u).msix = s.msix := rfl
@[simp] theorem State.setUnit_replies (s : State) (u : HwUnit) : (s.setUnit u).replies = s.replies := rfl
@[simp] theorem State.setUnit_epoch (s : State) (u : HwUnit) : (s.setUnit u).epoch = s.epoch := rfl

/-! ### modUnit -/

@[simp] theorem State.modUnit_now (s : State) (k : UKey) (f : HwUnit → HwUnit) : (s.modUnit k f).now = s.now := rfl
@[simp] theorem State.modUnit_phase (s : State) (k : UKey) (f : HwUnit → HwUnit) : (s.modUnit k f).phase = s.phase := rfl
@[simp] theorem State.modUnit_agenda (s : State) (k : UKey) (f : HwUnit → HwUnit) : (s.modUnit k f).agenda = s.agenda := rfl
@[simp] theorem State.modUnit_future (s : State) (k : UKey) (f : HwUnit → HwUnit) : (s.modUnit k f).future = s.future := rfl
@[simp] theorem State.modUnit_inputs (s : State) (k : UKey) (f : HwUnit → HwUnit) : (s.modUnit k f).inputs = s.inputs := rfl
@[simp] theorem State.modUnit_grants (s : State) (k : UKey) (f : HwUnit → HwUnit) : (s.modUnit k f).grants = s.grants := rfl
@[simp] theorem State.modUnit_cur (s : State) (k : UKey) (f : HwUnit → HwUnit) : (s.modUnit k f).cur = s.cur := rfl
@[simp] theorem State.modUnit_arg (s : State) (k : UKey) (f : HwUnit → HwUnit) : (s.modUnit k f).arg = s.arg := rfl
@[simp] theorem State.modUnit_fresh (s : State) (k : UKey) (f : HwUnit → HwUnit) : (s.modUnit k f).fresh = s.fresh := rfl
@[simp] theorem State.modUnit_ids (s : State) (k : UKey) (f : HwUnit → HwUnit) : (s.modUnit k f).ids = s.ids := rfl
@[simp] theorem State.modUnit_units (s : State) (k : UKey) (f : HwUnit → HwUnit) : (s.modUnit k f).units = s.units.map (fun w => if w.id == k then f w else w) := rfl
@[simp] theorem State.modUnit_harnesses (s : State) (k : UKey) (f : HwUnit → HwUnit) : (s.modUnit k f).harnesses = s.harnesses := rfl
@[simp] theorem State.modUnit_clusters (s : State) (k : UKey) (f : HwUnit → HwUnit) : (s.modUnit k f).clusters = s.clusters := rfl
@[simp] theorem State.modUnit_incs (s : State) (k : UKey) (f : HwUnit → HwUnit) : (s.modUnit k f).incs = s.incs := rfl
@[simp] theorem State.modUnit_lastSlot (s : State) (k : UKey) (f : HwUnit → HwUnit) : (s.modUnit k f).lastSlot = s.lastSlot := rfl
@[simp] theorem State.modUnit_outw (s : State) (k : UKey) (f : HwUnit → HwUnit) : (s.modUnit k f).outw = s.outw := rfl
@[simp] theorem State.modUnit_mem (s : State) (k : UKey) (f : HwUnit → HwUnit) : (s.modUnit k f).mem = s.mem := rfl
@[simp] theorem State.modUnit_fadeint (s : State) (k : UKey) (f : HwUnit → HwUnit) : (s.modUnit k f).fadeint = s.fadeint := rfl
@[simp] theorem State.modUnit_pagerdst (s : State) (k : UKey) (f : HwUnit → HwUnit) : (s.modUnit k f).pagerdst = s.pagerdst := rfl
@[simp] theorem State.modUnit_staledrop (s : State) (k : UKey) (f : HwUnit → HwUnit) : (s.modUnit k f).staledrop = s.staledrop := rfl
@[simp] theorem State.modUnit_errb (s : State) (k : UKey) (f : HwUnit → HwUnit) : (s.modUnit k f).errb = s.errb := rfl
@[simp] theorem State.modUnit_badSr (s : State) (k : UKey) (f : HwUnit → HwUnit) : (s.modUnit k f).badSr = s.badSr := rfl
@[simp] theorem State.modUnit_devnum (s : State) (k : UKey) (f : HwUnit → HwUnit) : (s.modUnit k f).devnum = s.devnum := rfl
@[simp] theorem State.modUnit_lates (s : State) (k : UKey) (f : HwUnit → HwUnit) : (s.modUnit k f).lates = s.lates := rfl
@[simp] theorem State.modUnit_late (s : State) (k : UKey) (f : HwUnit → HwUnit) : (s.modUnit k f).late = s.late := rfl
@[simp] theorem State.modUnit_ext (s : State) (k : UKey) (f : HwUnit → HwUnit) : (s.modUnit k f).ext = s.ext := rfl
@[simp] theorem State.modUnit_poison (s : State) (k : UKey) (f : HwUnit → HwUnit) : (s.modUnit k f).poison = s.poison := rfl
@[simp] theorem State.modUnit_errs (s : State) (k : UKey) (f : HwUnit → HwUnit) : (s.modUnit k f).errs = s.errs := rfl
@[simp] theorem State.modUnit_classes (s : State) (k : UKey) (f : HwUnit → HwUnit) : (s.modUnit k f).classes = s.classes := rfl
@[simp] theorem State.modUnit_gbusy (s : State) (k : UKey) (f : HwUnit → HwUnit) : (s.modUnit k f).gbusy = s.gbusy := rfl
@[simp] theorem State.modUnit_l1 (s : State) (k : UKey) (f : HwUnit → HwUnit) : (s.modUnit k f).l1 = s.l1 := rfl
@[simp] theorem State.modUnit_l2 (s : State) (k : UKey) (f : HwUnit → HwUnit) : (s.modUnit k f).l2 = s.l2 := rfl
@[simp] theorem State.modUnit_dir (s : State) (k : UKey) (f : HwUnit → HwUnit) : (s.modUnit k f).dir = s.dir := rfl
@[simp] theorem State.modUnit_dirBits (s : State) (k : UKey) (f : HwUnit → HwUnit) : (s.modUnit k f).dirBits = s.dirBits := rfl
@[simp] theorem State.modUnit_slicesDown (s : State) (k : UKey) (f : HwUnit → HwUnit) : (s.modUnit k f).slicesDown = s.slicesDown := rfl
@[simp] theorem State.modUnit_txns (s : State) (k : UKey) (f : HwUnit → HwUnit) : (s.modUnit k f).txns = s.txns := rfl
@[simp] theorem State.modUnit_dirWait (s : State) (k : UKey) (f : HwUnit → HwUnit) : (s.modUnit k f).dirWait = s.dirWait := rfl
@[simp] theorem State.modUnit_wbufs (s : State) (k : UKey) (f : HwUnit → HwUnit) : (s.modUnit k f).wbufs = s.wbufs := rfl
@[simp] theorem State.modUnit_wires (s : State) (k : UKey) (f : HwUnit → HwUnit) : (s.modUnit k f).wires = s.wires := rfl
@[simp] theorem State.modUnit_naks (s : State) (k : UKey) (f : HwUnit → HwUnit) : (s.modUnit k f).naks = s.naks := rfl
@[simp] theorem State.modUnit_nakCount (s : State) (k : UKey) (f : HwUnit → HwUnit) : (s.modUnit k f).nakCount = s.nakCount := rfl
@[simp] theorem State.modUnit_accs (s : State) (k : UKey) (f : HwUnit → HwUnit) : (s.modUnit k f).accs = s.accs := rfl
@[simp] theorem State.modUnit_tlb (s : State) (k : UKey) (f : HwUnit → HwUnit) : (s.modUnit k f).tlb = s.tlb := rfl
@[simp] theorem State.modUnit_replays (s : State) (k : UKey) (f : HwUnit → HwUnit) : (s.modUnit k f).replays = s.replays := rfl
@[simp] theorem State.modUnit_stopes (s : State) (k : UKey) (f : HwUnit → HwUnit) : (s.modUnit k f).stopes = s.stopes := rfl
@[simp] theorem State.modUnit_barWaits (s : State) (k : UKey) (f : HwUnit → HwUnit) : (s.modUnit k f).barWaits = s.barWaits := rfl
@[simp] theorem State.modUnit_latches (s : State) (k : UKey) (f : HwUnit → HwUnit) : (s.modUnit k f).latches = s.latches := rfl
@[simp] theorem State.modUnit_hub (s : State) (k : UKey) (f : HwUnit → HwUnit) : (s.modUnit k f).hub = s.hub := rfl
@[simp] theorem State.modUnit_msix (s : State) (k : UKey) (f : HwUnit → HwUnit) : (s.modUnit k f).msix = s.msix := rfl
@[simp] theorem State.modUnit_replies (s : State) (k : UKey) (f : HwUnit → HwUnit) : (s.modUnit k f).replies = s.replies := rfl
@[simp] theorem State.modUnit_epoch (s : State) (k : UKey) (f : HwUnit → HwUnit) : (s.modUnit k f).epoch = s.epoch := rfl

/-! ### dropUnit -/

@[simp] theorem State.dropUnit_now (s : State) (k : UKey) : (s.dropUnit k).now = s.now := rfl
@[simp] theorem State.dropUnit_phase (s : State) (k : UKey) : (s.dropUnit k).phase = s.phase := rfl
@[simp] theorem State.dropUnit_agenda (s : State) (k : UKey) : (s.dropUnit k).agenda = s.agenda := rfl
@[simp] theorem State.dropUnit_future (s : State) (k : UKey) : (s.dropUnit k).future = s.future := rfl
@[simp] theorem State.dropUnit_inputs (s : State) (k : UKey) : (s.dropUnit k).inputs = s.inputs := rfl
@[simp] theorem State.dropUnit_grants (s : State) (k : UKey) : (s.dropUnit k).grants = s.grants := rfl
@[simp] theorem State.dropUnit_cur (s : State) (k : UKey) : (s.dropUnit k).cur = s.cur := rfl
@[simp] theorem State.dropUnit_arg (s : State) (k : UKey) : (s.dropUnit k).arg = s.arg := rfl
@[simp] theorem State.dropUnit_fresh (s : State) (k : UKey) : (s.dropUnit k).fresh = s.fresh := rfl
@[simp] theorem State.dropUnit_ids (s : State) (k : UKey) : (s.dropUnit k).ids = s.ids := rfl
@[simp] theorem State.dropUnit_units (s : State) (k : UKey) : (s.dropUnit k).units = s.units.filter (fun w => w.id != k) := rfl
@[simp] theorem State.dropUnit_harnesses (s : State) (k : UKey) : (s.dropUnit k).harnesses = s.harnesses := rfl
@[simp] theorem State.dropUnit_clusters (s : State) (k : UKey) : (s.dropUnit k).clusters = s.clusters := rfl
@[simp] theorem State.dropUnit_incs (s : State) (k : UKey) : (s.dropUnit k).incs = s.incs := rfl
@[simp] theorem State.dropUnit_lastSlot (s : State) (k : UKey) : (s.dropUnit k).lastSlot = s.lastSlot := rfl
@[simp] theorem State.dropUnit_outw (s : State) (k : UKey) : (s.dropUnit k).outw = s.outw := rfl
@[simp] theorem State.dropUnit_mem (s : State) (k : UKey) : (s.dropUnit k).mem = s.mem := rfl
@[simp] theorem State.dropUnit_fadeint (s : State) (k : UKey) : (s.dropUnit k).fadeint = s.fadeint := rfl
@[simp] theorem State.dropUnit_pagerdst (s : State) (k : UKey) : (s.dropUnit k).pagerdst = s.pagerdst := rfl
@[simp] theorem State.dropUnit_staledrop (s : State) (k : UKey) : (s.dropUnit k).staledrop = s.staledrop := rfl
@[simp] theorem State.dropUnit_errb (s : State) (k : UKey) : (s.dropUnit k).errb = s.errb := rfl
@[simp] theorem State.dropUnit_badSr (s : State) (k : UKey) : (s.dropUnit k).badSr = s.badSr := rfl
@[simp] theorem State.dropUnit_devnum (s : State) (k : UKey) : (s.dropUnit k).devnum = s.devnum := rfl
@[simp] theorem State.dropUnit_lates (s : State) (k : UKey) : (s.dropUnit k).lates = s.lates := rfl
@[simp] theorem State.dropUnit_late (s : State) (k : UKey) : (s.dropUnit k).late = s.late := rfl
@[simp] theorem State.dropUnit_ext (s : State) (k : UKey) : (s.dropUnit k).ext = s.ext := rfl
@[simp] theorem State.dropUnit_poison (s : State) (k : UKey) : (s.dropUnit k).poison = s.poison := rfl
@[simp] theorem State.dropUnit_errs (s : State) (k : UKey) : (s.dropUnit k).errs = s.errs := rfl
@[simp] theorem State.dropUnit_classes (s : State) (k : UKey) : (s.dropUnit k).classes = s.classes := rfl
@[simp] theorem State.dropUnit_gbusy (s : State) (k : UKey) : (s.dropUnit k).gbusy = s.gbusy := rfl
@[simp] theorem State.dropUnit_l1 (s : State) (k : UKey) : (s.dropUnit k).l1 = s.l1 := rfl
@[simp] theorem State.dropUnit_l2 (s : State) (k : UKey) : (s.dropUnit k).l2 = s.l2 := rfl
@[simp] theorem State.dropUnit_dir (s : State) (k : UKey) : (s.dropUnit k).dir = s.dir := rfl
@[simp] theorem State.dropUnit_dirBits (s : State) (k : UKey) : (s.dropUnit k).dirBits = s.dirBits := rfl
@[simp] theorem State.dropUnit_slicesDown (s : State) (k : UKey) : (s.dropUnit k).slicesDown = s.slicesDown := rfl
@[simp] theorem State.dropUnit_txns (s : State) (k : UKey) : (s.dropUnit k).txns = s.txns := rfl
@[simp] theorem State.dropUnit_dirWait (s : State) (k : UKey) : (s.dropUnit k).dirWait = s.dirWait := rfl
@[simp] theorem State.dropUnit_wbufs (s : State) (k : UKey) : (s.dropUnit k).wbufs = s.wbufs := rfl
@[simp] theorem State.dropUnit_wires (s : State) (k : UKey) : (s.dropUnit k).wires = s.wires := rfl
@[simp] theorem State.dropUnit_naks (s : State) (k : UKey) : (s.dropUnit k).naks = s.naks := rfl
@[simp] theorem State.dropUnit_nakCount (s : State) (k : UKey) : (s.dropUnit k).nakCount = s.nakCount := rfl
@[simp] theorem State.dropUnit_accs (s : State) (k : UKey) : (s.dropUnit k).accs = s.accs := rfl
@[simp] theorem State.dropUnit_tlb (s : State) (k : UKey) : (s.dropUnit k).tlb = s.tlb := rfl
@[simp] theorem State.dropUnit_replays (s : State) (k : UKey) : (s.dropUnit k).replays = s.replays := rfl
@[simp] theorem State.dropUnit_stopes (s : State) (k : UKey) : (s.dropUnit k).stopes = s.stopes := rfl
@[simp] theorem State.dropUnit_barWaits (s : State) (k : UKey) : (s.dropUnit k).barWaits = s.barWaits := rfl
@[simp] theorem State.dropUnit_latches (s : State) (k : UKey) : (s.dropUnit k).latches = s.latches := rfl
@[simp] theorem State.dropUnit_hub (s : State) (k : UKey) : (s.dropUnit k).hub = s.hub := rfl
@[simp] theorem State.dropUnit_msix (s : State) (k : UKey) : (s.dropUnit k).msix = s.msix := rfl
@[simp] theorem State.dropUnit_replies (s : State) (k : UKey) : (s.dropUnit k).replies = s.replies := rfl
@[simp] theorem State.dropUnit_epoch (s : State) (k : UKey) : (s.dropUnit k).epoch = s.epoch := rfl

/-! ### modCluster -/

@[simp] theorem State.modCluster_now (s : State) (c : Nat) (f : Cluster → Cluster) : (s.modCluster c f).now = s.now := rfl
@[simp] theorem State.modCluster_phase (s : State) (c : Nat) (f : Cluster → Cluster) : (s.modCluster c f).phase = s.phase := rfl
@[simp] theorem State.modCluster_agenda (s : State) (c : Nat) (f : Cluster → Cluster) : (s.modCluster c f).agenda = s.agenda := rfl
@[simp] theorem State.modCluster_future (s : State) (c : Nat) (f : Cluster → Cluster) : (s.modCluster c f).future = s.future := rfl
@[simp] theorem State.modCluster_inputs (s : State) (c : Nat) (f : Cluster → Cluster) : (s.modCluster c f).inputs = s.inputs := rfl
@[simp] theorem State.modCluster_grants (s : State) (c : Nat) (f : Cluster → Cluster) : (s.modCluster c f).grants = s.grants := rfl
@[simp] theorem State.modCluster_cur (s : State) (c : Nat) (f : Cluster → Cluster) : (s.modCluster c f).cur = s.cur := rfl
@[simp] theorem State.modCluster_arg (s : State) (c : Nat) (f : Cluster → Cluster) : (s.modCluster c f).arg = s.arg := rfl
@[simp] theorem State.modCluster_fresh (s : State) (c : Nat) (f : Cluster → Cluster) : (s.modCluster c f).fresh = s.fresh := rfl
@[simp] theorem State.modCluster_ids (s : State) (c : Nat) (f : Cluster → Cluster) : (s.modCluster c f).ids = s.ids := rfl
@[simp] theorem State.modCluster_units (s : State) (c : Nat) (f : Cluster → Cluster) : (s.modCluster c f).units = s.units := rfl
@[simp] theorem State.modCluster_harnesses (s : State) (c : Nat) (f : Cluster → Cluster) : (s.modCluster c f).harnesses = s.harnesses := rfl
@[simp] theorem State.modCluster_clusters (s : State) (c : Nat) (f : Cluster → Cluster) : (s.modCluster c f).clusters = s.clusters.mapIdx (fun i x => if i == c then f x else x) := rfl
@[simp] theorem State.modCluster_incs (s : State) (c : Nat) (f : Cluster → Cluster) : (s.modCluster c f).incs = s.incs := rfl
@[simp] theorem State.modCluster_lastSlot (s : State) (c : Nat) (f : Cluster → Cluster) : (s.modCluster c f).lastSlot = s.lastSlot := rfl
@[simp] theorem State.modCluster_outw (s : State) (c : Nat) (f : Cluster → Cluster) : (s.modCluster c f).outw = s.outw := rfl
@[simp] theorem State.modCluster_mem (s : State) (c : Nat) (f : Cluster → Cluster) : (s.modCluster c f).mem = s.mem := rfl
@[simp] theorem State.modCluster_fadeint (s : State) (c : Nat) (f : Cluster → Cluster) : (s.modCluster c f).fadeint = s.fadeint := rfl
@[simp] theorem State.modCluster_pagerdst (s : State) (c : Nat) (f : Cluster → Cluster) : (s.modCluster c f).pagerdst = s.pagerdst := rfl
@[simp] theorem State.modCluster_staledrop (s : State) (c : Nat) (f : Cluster → Cluster) : (s.modCluster c f).staledrop = s.staledrop := rfl
@[simp] theorem State.modCluster_errb (s : State) (c : Nat) (f : Cluster → Cluster) : (s.modCluster c f).errb = s.errb := rfl
@[simp] theorem State.modCluster_badSr (s : State) (c : Nat) (f : Cluster → Cluster) : (s.modCluster c f).badSr = s.badSr := rfl
@[simp] theorem State.modCluster_devnum (s : State) (c : Nat) (f : Cluster → Cluster) : (s.modCluster c f).devnum = s.devnum := rfl
@[simp] theorem State.modCluster_lates (s : State) (c : Nat) (f : Cluster → Cluster) : (s.modCluster c f).lates = s.lates := rfl
@[simp] theorem State.modCluster_late (s : State) (c : Nat) (f : Cluster → Cluster) : (s.modCluster c f).late = s.late := rfl
@[simp] theorem State.modCluster_ext (s : State) (c : Nat) (f : Cluster → Cluster) : (s.modCluster c f).ext = s.ext := rfl
@[simp] theorem State.modCluster_poison (s : State) (c : Nat) (f : Cluster → Cluster) : (s.modCluster c f).poison = s.poison := rfl
@[simp] theorem State.modCluster_errs (s : State) (c : Nat) (f : Cluster → Cluster) : (s.modCluster c f).errs = s.errs := rfl
@[simp] theorem State.modCluster_classes (s : State) (c : Nat) (f : Cluster → Cluster) : (s.modCluster c f).classes = s.classes := rfl
@[simp] theorem State.modCluster_gbusy (s : State) (c : Nat) (f : Cluster → Cluster) : (s.modCluster c f).gbusy = s.gbusy := rfl
@[simp] theorem State.modCluster_l1 (s : State) (c : Nat) (f : Cluster → Cluster) : (s.modCluster c f).l1 = s.l1 := rfl
@[simp] theorem State.modCluster_l2 (s : State) (c : Nat) (f : Cluster → Cluster) : (s.modCluster c f).l2 = s.l2 := rfl
@[simp] theorem State.modCluster_dir (s : State) (c : Nat) (f : Cluster → Cluster) : (s.modCluster c f).dir = s.dir := rfl
@[simp] theorem State.modCluster_dirBits (s : State) (c : Nat) (f : Cluster → Cluster) : (s.modCluster c f).dirBits = s.dirBits := rfl
@[simp] theorem State.modCluster_slicesDown (s : State) (c : Nat) (f : Cluster → Cluster) : (s.modCluster c f).slicesDown = s.slicesDown := rfl
@[simp] theorem State.modCluster_txns (s : State) (c : Nat) (f : Cluster → Cluster) : (s.modCluster c f).txns = s.txns := rfl
@[simp] theorem State.modCluster_dirWait (s : State) (c : Nat) (f : Cluster → Cluster) : (s.modCluster c f).dirWait = s.dirWait := rfl
@[simp] theorem State.modCluster_wbufs (s : State) (c : Nat) (f : Cluster → Cluster) : (s.modCluster c f).wbufs = s.wbufs := rfl
@[simp] theorem State.modCluster_wires (s : State) (c : Nat) (f : Cluster → Cluster) : (s.modCluster c f).wires = s.wires := rfl
@[simp] theorem State.modCluster_naks (s : State) (c : Nat) (f : Cluster → Cluster) : (s.modCluster c f).naks = s.naks := rfl
@[simp] theorem State.modCluster_nakCount (s : State) (c : Nat) (f : Cluster → Cluster) : (s.modCluster c f).nakCount = s.nakCount := rfl
@[simp] theorem State.modCluster_accs (s : State) (c : Nat) (f : Cluster → Cluster) : (s.modCluster c f).accs = s.accs := rfl
@[simp] theorem State.modCluster_tlb (s : State) (c : Nat) (f : Cluster → Cluster) : (s.modCluster c f).tlb = s.tlb := rfl
@[simp] theorem State.modCluster_replays (s : State) (c : Nat) (f : Cluster → Cluster) : (s.modCluster c f).replays = s.replays := rfl
@[simp] theorem State.modCluster_stopes (s : State) (c : Nat) (f : Cluster → Cluster) : (s.modCluster c f).stopes = s.stopes := rfl
@[simp] theorem State.modCluster_barWaits (s : State) (c : Nat) (f : Cluster → Cluster) : (s.modCluster c f).barWaits = s.barWaits := rfl
@[simp] theorem State.modCluster_latches (s : State) (c : Nat) (f : Cluster → Cluster) : (s.modCluster c f).latches = s.latches := rfl
@[simp] theorem State.modCluster_hub (s : State) (c : Nat) (f : Cluster → Cluster) : (s.modCluster c f).hub = s.hub := rfl
@[simp] theorem State.modCluster_msix (s : State) (c : Nat) (f : Cluster → Cluster) : (s.modCluster c f).msix = s.msix := rfl
@[simp] theorem State.modCluster_replies (s : State) (c : Nat) (f : Cluster → Cluster) : (s.modCluster c f).replies = s.replies := rfl
@[simp] theorem State.modCluster_epoch (s : State) (c : Nat) (f : Cluster → Cluster) : (s.modCluster c f).epoch = s.epoch := rfl

/-! ### modHarness -/

@[simp] theorem State.modHarness_now (s : State) (c b : Nat) (f : Harness → Harness) : (s.modHarness c b f).now = s.now := rfl
@[simp] theorem State.modHarness_phase (s : State) (c b : Nat) (f : Harness → Harness) : (s.modHarness c b f).phase = s.phase := rfl
@[simp] theorem State.modHarness_agenda (s : State) (c b : Nat) (f : Harness → Harness) : (s.modHarness c b f).agenda = s.agenda := rfl
@[simp] theorem State.modHarness_future (s : State) (c b : Nat) (f : Harness → Harness) : (s.modHarness c b f).future = s.future := rfl
@[simp] theorem State.modHarness_inputs (s : State) (c b : Nat) (f : Harness → Harness) : (s.modHarness c b f).inputs = s.inputs := rfl
@[simp] theorem State.modHarness_grants (s : State) (c b : Nat) (f : Harness → Harness) : (s.modHarness c b f).grants = s.grants := rfl
@[simp] theorem State.modHarness_cur (s : State) (c b : Nat) (f : Harness → Harness) : (s.modHarness c b f).cur = s.cur := rfl
@[simp] theorem State.modHarness_arg (s : State) (c b : Nat) (f : Harness → Harness) : (s.modHarness c b f).arg = s.arg := rfl
@[simp] theorem State.modHarness_fresh (s : State) (c b : Nat) (f : Harness → Harness) : (s.modHarness c b f).fresh = s.fresh := rfl
@[simp] theorem State.modHarness_ids (s : State) (c b : Nat) (f : Harness → Harness) : (s.modHarness c b f).ids = s.ids := rfl
@[simp] theorem State.modHarness_units (s : State) (c b : Nat) (f : Harness → Harness) : (s.modHarness c b f).units = s.units := rfl
@[simp] theorem State.modHarness_clusters (s : State) (c b : Nat) (f : Harness → Harness) : (s.modHarness c b f).clusters = s.clusters := rfl
@[simp] theorem State.modHarness_incs (s : State) (c b : Nat) (f : Harness → Harness) : (s.modHarness c b f).incs = s.incs := rfl
@[simp] theorem State.modHarness_lastSlot (s : State) (c b : Nat) (f : Harness → Harness) : (s.modHarness c b f).lastSlot = s.lastSlot := rfl
@[simp] theorem State.modHarness_outw (s : State) (c b : Nat) (f : Harness → Harness) : (s.modHarness c b f).outw = s.outw := rfl
@[simp] theorem State.modHarness_mem (s : State) (c b : Nat) (f : Harness → Harness) : (s.modHarness c b f).mem = s.mem := rfl
@[simp] theorem State.modHarness_fadeint (s : State) (c b : Nat) (f : Harness → Harness) : (s.modHarness c b f).fadeint = s.fadeint := rfl
@[simp] theorem State.modHarness_pagerdst (s : State) (c b : Nat) (f : Harness → Harness) : (s.modHarness c b f).pagerdst = s.pagerdst := rfl
@[simp] theorem State.modHarness_staledrop (s : State) (c b : Nat) (f : Harness → Harness) : (s.modHarness c b f).staledrop = s.staledrop := rfl
@[simp] theorem State.modHarness_errb (s : State) (c b : Nat) (f : Harness → Harness) : (s.modHarness c b f).errb = s.errb := rfl
@[simp] theorem State.modHarness_badSr (s : State) (c b : Nat) (f : Harness → Harness) : (s.modHarness c b f).badSr = s.badSr := rfl
@[simp] theorem State.modHarness_devnum (s : State) (c b : Nat) (f : Harness → Harness) : (s.modHarness c b f).devnum = s.devnum := rfl
@[simp] theorem State.modHarness_lates (s : State) (c b : Nat) (f : Harness → Harness) : (s.modHarness c b f).lates = s.lates := rfl
@[simp] theorem State.modHarness_late (s : State) (c b : Nat) (f : Harness → Harness) : (s.modHarness c b f).late = s.late := rfl
@[simp] theorem State.modHarness_ext (s : State) (c b : Nat) (f : Harness → Harness) : (s.modHarness c b f).ext = s.ext := rfl
@[simp] theorem State.modHarness_poison (s : State) (c b : Nat) (f : Harness → Harness) : (s.modHarness c b f).poison = s.poison := rfl
@[simp] theorem State.modHarness_errs (s : State) (c b : Nat) (f : Harness → Harness) : (s.modHarness c b f).errs = s.errs := rfl
@[simp] theorem State.modHarness_classes (s : State) (c b : Nat) (f : Harness → Harness) : (s.modHarness c b f).classes = s.classes := rfl
@[simp] theorem State.modHarness_gbusy (s : State) (c b : Nat) (f : Harness → Harness) : (s.modHarness c b f).gbusy = s.gbusy := rfl
@[simp] theorem State.modHarness_l1 (s : State) (c b : Nat) (f : Harness → Harness) : (s.modHarness c b f).l1 = s.l1 := rfl
@[simp] theorem State.modHarness_l2 (s : State) (c b : Nat) (f : Harness → Harness) : (s.modHarness c b f).l2 = s.l2 := rfl
@[simp] theorem State.modHarness_dir (s : State) (c b : Nat) (f : Harness → Harness) : (s.modHarness c b f).dir = s.dir := rfl
@[simp] theorem State.modHarness_dirBits (s : State) (c b : Nat) (f : Harness → Harness) : (s.modHarness c b f).dirBits = s.dirBits := rfl
@[simp] theorem State.modHarness_slicesDown (s : State) (c b : Nat) (f : Harness → Harness) : (s.modHarness c b f).slicesDown = s.slicesDown := rfl
@[simp] theorem State.modHarness_txns (s : State) (c b : Nat) (f : Harness → Harness) : (s.modHarness c b f).txns = s.txns := rfl
@[simp] theorem State.modHarness_dirWait (s : State) (c b : Nat) (f : Harness → Harness) : (s.modHarness c b f).dirWait = s.dirWait := rfl
@[simp] theorem State.modHarness_wbufs (s : State) (c b : Nat) (f : Harness → Harness) : (s.modHarness c b f).wbufs = s.wbufs := rfl
@[simp] theorem State.modHarness_wires (s : State) (c b : Nat) (f : Harness → Harness) : (s.modHarness c b f).wires = s.wires := rfl
@[simp] theorem State.modHarness_naks (s : State) (c b : Nat) (f : Harness → Harness) : (s.modHarness c b f).naks = s.naks := rfl
@[simp] theorem State.modHarness_nakCount (s : State) (c b : Nat) (f : Harness → Harness) : (s.modHarness c b f).nakCount = s.nakCount := rfl
@[simp] theorem State.modHarness_accs (s : State) (c b : Nat) (f : Harness → Harness) : (s.modHarness c b f).accs = s.accs := rfl
@[simp] theorem State.modHarness_tlb (s : State) (c b : Nat) (f : Harness → Harness) : (s.modHarness c b f).tlb = s.tlb := rfl
@[simp] theorem State.modHarness_replays (s : State) (c b : Nat) (f : Harness → Harness) : (s.modHarness c b f).replays = s.replays := rfl
@[simp] theorem State.modHarness_stopes (s : State) (c b : Nat) (f : Harness → Harness) : (s.modHarness c b f).stopes = s.stopes := rfl
@[simp] theorem State.modHarness_barWaits (s : State) (c b : Nat) (f : Harness → Harness) : (s.modHarness c b f).barWaits = s.barWaits := rfl
@[simp] theorem State.modHarness_latches (s : State) (c b : Nat) (f : Harness → Harness) : (s.modHarness c b f).latches = s.latches := rfl
@[simp] theorem State.modHarness_hub (s : State) (c b : Nat) (f : Harness → Harness) : (s.modHarness c b f).hub = s.hub := rfl
@[simp] theorem State.modHarness_msix (s : State) (c b : Nat) (f : Harness → Harness) : (s.modHarness c b f).msix = s.msix := rfl
@[simp] theorem State.modHarness_replies (s : State) (c b : Nat) (f : Harness → Harness) : (s.modHarness c b f).replies = s.replies := rfl
@[simp] theorem State.modHarness_epoch (s : State) (c b : Nat) (f : Harness → Harness) : (s.modHarness c b f).epoch = s.epoch := rfl

/-! ### modHub -/

@[simp] theorem State.modHub_now (s : State) (f : Hub → Hub) : (s.modHub f).now = s.now := rfl
@[simp] theorem State.modHub_phase (s : State) (f : Hub → Hub) : (s.modHub f).phase = s.phase := rfl
@[simp] theorem State.modHub_agenda (s : State) (f : Hub → Hub) : (s.modHub f).agenda = s.agenda := rfl
@[simp] theorem State.modHub_future (s : State) (f : Hub → Hub) : (s.modHub f).future = s.future := rfl
@[simp] theorem State.modHub_inputs (s : State) (f : Hub → Hub) : (s.modHub f).inputs = s.inputs := rfl
@[simp] theorem State.modHub_grants (s : State) (f : Hub → Hub) : (s.modHub f).grants = s.grants := rfl
@[simp] theorem State.modHub_cur (s : State) (f : Hub → Hub) : (s.modHub f).cur = s.cur := rfl
@[simp] theorem State.modHub_arg (s : State) (f : Hub → Hub) : (s.modHub f).arg = s.arg := rfl
@[simp] theorem State.modHub_fresh (s : State) (f : Hub → Hub) : (s.modHub f).fresh = s.fresh := rfl
@[simp] theorem State.modHub_ids (s : State) (f : Hub → Hub) : (s.modHub f).ids = s.ids := rfl
@[simp] theorem State.modHub_units (s : State) (f : Hub → Hub) : (s.modHub f).units = s.units := rfl
@[simp] theorem State.modHub_harnesses (s : State) (f : Hub → Hub) : (s.modHub f).harnesses = s.harnesses := rfl
@[simp] theorem State.modHub_clusters (s : State) (f : Hub → Hub) : (s.modHub f).clusters = s.clusters := rfl
@[simp] theorem State.modHub_incs (s : State) (f : Hub → Hub) : (s.modHub f).incs = s.incs := rfl
@[simp] theorem State.modHub_lastSlot (s : State) (f : Hub → Hub) : (s.modHub f).lastSlot = s.lastSlot := rfl
@[simp] theorem State.modHub_outw (s : State) (f : Hub → Hub) : (s.modHub f).outw = s.outw := rfl
@[simp] theorem State.modHub_mem (s : State) (f : Hub → Hub) : (s.modHub f).mem = s.mem := rfl
@[simp] theorem State.modHub_fadeint (s : State) (f : Hub → Hub) : (s.modHub f).fadeint = s.fadeint := rfl
@[simp] theorem State.modHub_pagerdst (s : State) (f : Hub → Hub) : (s.modHub f).pagerdst = s.pagerdst := rfl
@[simp] theorem State.modHub_staledrop (s : State) (f : Hub → Hub) : (s.modHub f).staledrop = s.staledrop := rfl
@[simp] theorem State.modHub_errb (s : State) (f : Hub → Hub) : (s.modHub f).errb = s.errb := rfl
@[simp] theorem State.modHub_badSr (s : State) (f : Hub → Hub) : (s.modHub f).badSr = s.badSr := rfl
@[simp] theorem State.modHub_devnum (s : State) (f : Hub → Hub) : (s.modHub f).devnum = s.devnum := rfl
@[simp] theorem State.modHub_lates (s : State) (f : Hub → Hub) : (s.modHub f).lates = s.lates := rfl
@[simp] theorem State.modHub_late (s : State) (f : Hub → Hub) : (s.modHub f).late = s.late := rfl
@[simp] theorem State.modHub_ext (s : State) (f : Hub → Hub) : (s.modHub f).ext = s.ext := rfl
@[simp] theorem State.modHub_poison (s : State) (f : Hub → Hub) : (s.modHub f).poison = s.poison := rfl
@[simp] theorem State.modHub_errs (s : State) (f : Hub → Hub) : (s.modHub f).errs = s.errs := rfl
@[simp] theorem State.modHub_classes (s : State) (f : Hub → Hub) : (s.modHub f).classes = s.classes := rfl
@[simp] theorem State.modHub_gbusy (s : State) (f : Hub → Hub) : (s.modHub f).gbusy = s.gbusy := rfl
@[simp] theorem State.modHub_l1 (s : State) (f : Hub → Hub) : (s.modHub f).l1 = s.l1 := rfl
@[simp] theorem State.modHub_l2 (s : State) (f : Hub → Hub) : (s.modHub f).l2 = s.l2 := rfl
@[simp] theorem State.modHub_dir (s : State) (f : Hub → Hub) : (s.modHub f).dir = s.dir := rfl
@[simp] theorem State.modHub_dirBits (s : State) (f : Hub → Hub) : (s.modHub f).dirBits = s.dirBits := rfl
@[simp] theorem State.modHub_slicesDown (s : State) (f : Hub → Hub) : (s.modHub f).slicesDown = s.slicesDown := rfl
@[simp] theorem State.modHub_txns (s : State) (f : Hub → Hub) : (s.modHub f).txns = s.txns := rfl
@[simp] theorem State.modHub_dirWait (s : State) (f : Hub → Hub) : (s.modHub f).dirWait = s.dirWait := rfl
@[simp] theorem State.modHub_wbufs (s : State) (f : Hub → Hub) : (s.modHub f).wbufs = s.wbufs := rfl
@[simp] theorem State.modHub_wires (s : State) (f : Hub → Hub) : (s.modHub f).wires = s.wires := rfl
@[simp] theorem State.modHub_naks (s : State) (f : Hub → Hub) : (s.modHub f).naks = s.naks := rfl
@[simp] theorem State.modHub_nakCount (s : State) (f : Hub → Hub) : (s.modHub f).nakCount = s.nakCount := rfl
@[simp] theorem State.modHub_accs (s : State) (f : Hub → Hub) : (s.modHub f).accs = s.accs := rfl
@[simp] theorem State.modHub_tlb (s : State) (f : Hub → Hub) : (s.modHub f).tlb = s.tlb := rfl
@[simp] theorem State.modHub_replays (s : State) (f : Hub → Hub) : (s.modHub f).replays = s.replays := rfl
@[simp] theorem State.modHub_stopes (s : State) (f : Hub → Hub) : (s.modHub f).stopes = s.stopes := rfl
@[simp] theorem State.modHub_barWaits (s : State) (f : Hub → Hub) : (s.modHub f).barWaits = s.barWaits := rfl
@[simp] theorem State.modHub_latches (s : State) (f : Hub → Hub) : (s.modHub f).latches = s.latches := rfl
@[simp] theorem State.modHub_hub (s : State) (f : Hub → Hub) : (s.modHub f).hub = f s.hub := rfl
@[simp] theorem State.modHub_msix (s : State) (f : Hub → Hub) : (s.modHub f).msix = s.msix := rfl
@[simp] theorem State.modHub_replies (s : State) (f : Hub → Hub) : (s.modHub f).replies = s.replies := rfl
@[simp] theorem State.modHub_epoch (s : State) (f : Hub → Hub) : (s.modHub f).epoch = s.epoch := rfl

/-! ### at_ -/

@[simp] theorem State.at__now (s : State) (t : Nat) (e : Ev) : (s.at_ t e).now = s.now := rfl
@[simp] theorem State.at__phase (s : State) (t : Nat) (e : Ev) : (s.at_ t e).phase = s.phase := rfl
@[simp] theorem State.at__agenda (s : State) (t : Nat) (e : Ev) : (s.at_ t e).agenda = s.agenda := rfl
@[simp] theorem State.at__future (s : State) (t : Nat) (e : Ev) : (s.at_ t e).future = s.future ++ [(t, e)] := rfl
@[simp] theorem State.at__inputs (s : State) (t : Nat) (e : Ev) : (s.at_ t e).inputs = s.inputs := rfl
@[simp] theorem State.at__grants (s : State) (t : Nat) (e : Ev) : (s.at_ t e).grants = s.grants := rfl
@[simp] theorem State.at__cur (s : State) (t : Nat) (e : Ev) : (s.at_ t e).cur = s.cur := rfl
@[simp] theorem State.at__arg (s : State) (t : Nat) (e : Ev) : (s.at_ t e).arg = s.arg := rfl
@[simp] theorem State.at__fresh (s : State) (t : Nat) (e : Ev) : (s.at_ t e).fresh = s.fresh := rfl
@[simp] theorem State.at__ids (s : State) (t : Nat) (e : Ev) : (s.at_ t e).ids = s.ids := rfl
@[simp] theorem State.at__units (s : State) (t : Nat) (e : Ev) : (s.at_ t e).units = s.units := rfl
@[simp] theorem State.at__harnesses (s : State) (t : Nat) (e : Ev) : (s.at_ t e).harnesses = s.harnesses := rfl
@[simp] theorem State.at__clusters (s : State) (t : Nat) (e : Ev) : (s.at_ t e).clusters = s.clusters := rfl
@[simp] theorem State.at__incs (s : State) (t : Nat) (e : Ev) : (s.at_ t e).incs = s.incs := rfl
@[simp] theorem State.at__lastSlot (s : State) (t : Nat) (e : Ev) : (s.at_ t e).lastSlot = s.lastSlot := rfl
@[simp] theorem State.at__outw (s : State) (t : Nat) (e : Ev) : (s.at_ t e).outw = s.outw := rfl
@[simp] theorem State.at__mem (s : State) (t : Nat) (e : Ev) : (s.at_ t e).mem = s.mem := rfl
@[simp] theorem State.at__fadeint (s : State) (t : Nat) (e : Ev) : (s.at_ t e).fadeint = s.fadeint := rfl
@[simp] theorem State.at__pagerdst (s : State) (t : Nat) (e : Ev) : (s.at_ t e).pagerdst = s.pagerdst := rfl
@[simp] theorem State.at__staledrop (s : State) (t : Nat) (e : Ev) : (s.at_ t e).staledrop = s.staledrop := rfl
@[simp] theorem State.at__errb (s : State) (t : Nat) (e : Ev) : (s.at_ t e).errb = s.errb := rfl
@[simp] theorem State.at__badSr (s : State) (t : Nat) (e : Ev) : (s.at_ t e).badSr = s.badSr := rfl
@[simp] theorem State.at__devnum (s : State) (t : Nat) (e : Ev) : (s.at_ t e).devnum = s.devnum := rfl
@[simp] theorem State.at__lates (s : State) (t : Nat) (e : Ev) : (s.at_ t e).lates = s.lates := rfl
@[simp] theorem State.at__late (s : State) (t : Nat) (e : Ev) : (s.at_ t e).late = s.late := rfl
@[simp] theorem State.at__ext (s : State) (t : Nat) (e : Ev) : (s.at_ t e).ext = s.ext := rfl
@[simp] theorem State.at__poison (s : State) (t : Nat) (e : Ev) : (s.at_ t e).poison = s.poison := rfl
@[simp] theorem State.at__errs (s : State) (t : Nat) (e : Ev) : (s.at_ t e).errs = s.errs := rfl
@[simp] theorem State.at__classes (s : State) (t : Nat) (e : Ev) : (s.at_ t e).classes = s.classes := rfl
@[simp] theorem State.at__gbusy (s : State) (t : Nat) (e : Ev) : (s.at_ t e).gbusy = s.gbusy := rfl
@[simp] theorem State.at__l1 (s : State) (t : Nat) (e : Ev) : (s.at_ t e).l1 = s.l1 := rfl
@[simp] theorem State.at__l2 (s : State) (t : Nat) (e : Ev) : (s.at_ t e).l2 = s.l2 := rfl
@[simp] theorem State.at__dir (s : State) (t : Nat) (e : Ev) : (s.at_ t e).dir = s.dir := rfl
@[simp] theorem State.at__dirBits (s : State) (t : Nat) (e : Ev) : (s.at_ t e).dirBits = s.dirBits := rfl
@[simp] theorem State.at__slicesDown (s : State) (t : Nat) (e : Ev) : (s.at_ t e).slicesDown = s.slicesDown := rfl
@[simp] theorem State.at__txns (s : State) (t : Nat) (e : Ev) : (s.at_ t e).txns = s.txns := rfl
@[simp] theorem State.at__dirWait (s : State) (t : Nat) (e : Ev) : (s.at_ t e).dirWait = s.dirWait := rfl
@[simp] theorem State.at__wbufs (s : State) (t : Nat) (e : Ev) : (s.at_ t e).wbufs = s.wbufs := rfl
@[simp] theorem State.at__wires (s : State) (t : Nat) (e : Ev) : (s.at_ t e).wires = s.wires := rfl
@[simp] theorem State.at__naks (s : State) (t : Nat) (e : Ev) : (s.at_ t e).naks = s.naks := rfl
@[simp] theorem State.at__nakCount (s : State) (t : Nat) (e : Ev) : (s.at_ t e).nakCount = s.nakCount := rfl
@[simp] theorem State.at__accs (s : State) (t : Nat) (e : Ev) : (s.at_ t e).accs = s.accs := rfl
@[simp] theorem State.at__tlb (s : State) (t : Nat) (e : Ev) : (s.at_ t e).tlb = s.tlb := rfl
@[simp] theorem State.at__replays (s : State) (t : Nat) (e : Ev) : (s.at_ t e).replays = s.replays := rfl
@[simp] theorem State.at__stopes (s : State) (t : Nat) (e : Ev) : (s.at_ t e).stopes = s.stopes := rfl
@[simp] theorem State.at__barWaits (s : State) (t : Nat) (e : Ev) : (s.at_ t e).barWaits = s.barWaits := rfl
@[simp] theorem State.at__latches (s : State) (t : Nat) (e : Ev) : (s.at_ t e).latches = s.latches := rfl
@[simp] theorem State.at__hub (s : State) (t : Nat) (e : Ev) : (s.at_ t e).hub = s.hub := rfl
@[simp] theorem State.at__msix (s : State) (t : Nat) (e : Ev) : (s.at_ t e).msix = s.msix := rfl
@[simp] theorem State.at__replies (s : State) (t : Nat) (e : Ev) : (s.at_ t e).replies = s.replies := rfl
@[simp] theorem State.at__epoch (s : State) (t : Nat) (e : Ev) : (s.at_ t e).epoch = s.epoch := rfl

/-! ### soon -/

@[simp] theorem State.soon_now (s : State) (e : Ev) : (s.soon e).now = s.now := rfl
@[simp] theorem State.soon_phase (s : State) (e : Ev) : (s.soon e).phase = s.phase := rfl
@[simp] theorem State.soon_agenda (s : State) (e : Ev) : (s.soon e).agenda = s.agenda ++ [e] := rfl
@[simp] theorem State.soon_future (s : State) (e : Ev) : (s.soon e).future = s.future := rfl
@[simp] theorem State.soon_inputs (s : State) (e : Ev) : (s.soon e).inputs = s.inputs := rfl
@[simp] theorem State.soon_grants (s : State) (e : Ev) : (s.soon e).grants = s.grants := rfl
@[simp] theorem State.soon_cur (s : State) (e : Ev) : (s.soon e).cur = s.cur := rfl
@[simp] theorem State.soon_arg (s : State) (e : Ev) : (s.soon e).arg = s.arg := rfl
@[simp] theorem State.soon_fresh (s : State) (e : Ev) : (s.soon e).fresh = s.fresh := rfl
@[simp] theorem State.soon_ids (s : State) (e : Ev) : (s.soon e).ids = s.ids := rfl
@[simp] theorem State.soon_units (s : State) (e : Ev) : (s.soon e).units = s.units := rfl
@[simp] theorem State.soon_harnesses (s : State) (e : Ev) : (s.soon e).harnesses = s.harnesses := rfl
@[simp] theorem State.soon_clusters (s : State) (e : Ev) : (s.soon e).clusters = s.clusters := rfl
@[simp] theorem State.soon_incs (s : State) (e : Ev) : (s.soon e).incs = s.incs := rfl
@[simp] theorem State.soon_lastSlot (s : State) (e : Ev) : (s.soon e).lastSlot = s.lastSlot := rfl
@[simp] theorem State.soon_outw (s : State) (e : Ev) : (s.soon e).outw = s.outw := rfl
@[simp] theorem State.soon_mem (s : State) (e : Ev) : (s.soon e).mem = s.mem := rfl
@[simp] theorem State.soon_fadeint (s : State) (e : Ev) : (s.soon e).fadeint = s.fadeint := rfl
@[simp] theorem State.soon_pagerdst (s : State) (e : Ev) : (s.soon e).pagerdst = s.pagerdst := rfl
@[simp] theorem State.soon_staledrop (s : State) (e : Ev) : (s.soon e).staledrop = s.staledrop := rfl
@[simp] theorem State.soon_errb (s : State) (e : Ev) : (s.soon e).errb = s.errb := rfl
@[simp] theorem State.soon_badSr (s : State) (e : Ev) : (s.soon e).badSr = s.badSr := rfl
@[simp] theorem State.soon_devnum (s : State) (e : Ev) : (s.soon e).devnum = s.devnum := rfl
@[simp] theorem State.soon_lates (s : State) (e : Ev) : (s.soon e).lates = s.lates := rfl
@[simp] theorem State.soon_late (s : State) (e : Ev) : (s.soon e).late = s.late := rfl
@[simp] theorem State.soon_ext (s : State) (e : Ev) : (s.soon e).ext = s.ext := rfl
@[simp] theorem State.soon_poison (s : State) (e : Ev) : (s.soon e).poison = s.poison := rfl
@[simp] theorem State.soon_errs (s : State) (e : Ev) : (s.soon e).errs = s.errs := rfl
@[simp] theorem State.soon_classes (s : State) (e : Ev) : (s.soon e).classes = s.classes := rfl
@[simp] theorem State.soon_gbusy (s : State) (e : Ev) : (s.soon e).gbusy = s.gbusy := rfl
@[simp] theorem State.soon_l1 (s : State) (e : Ev) : (s.soon e).l1 = s.l1 := rfl
@[simp] theorem State.soon_l2 (s : State) (e : Ev) : (s.soon e).l2 = s.l2 := rfl
@[simp] theorem State.soon_dir (s : State) (e : Ev) : (s.soon e).dir = s.dir := rfl
@[simp] theorem State.soon_dirBits (s : State) (e : Ev) : (s.soon e).dirBits = s.dirBits := rfl
@[simp] theorem State.soon_slicesDown (s : State) (e : Ev) : (s.soon e).slicesDown = s.slicesDown := rfl
@[simp] theorem State.soon_txns (s : State) (e : Ev) : (s.soon e).txns = s.txns := rfl
@[simp] theorem State.soon_dirWait (s : State) (e : Ev) : (s.soon e).dirWait = s.dirWait := rfl
@[simp] theorem State.soon_wbufs (s : State) (e : Ev) : (s.soon e).wbufs = s.wbufs := rfl
@[simp] theorem State.soon_wires (s : State) (e : Ev) : (s.soon e).wires = s.wires := rfl
@[simp] theorem State.soon_naks (s : State) (e : Ev) : (s.soon e).naks = s.naks := rfl
@[simp] theorem State.soon_nakCount (s : State) (e : Ev) : (s.soon e).nakCount = s.nakCount := rfl
@[simp] theorem State.soon_accs (s : State) (e : Ev) : (s.soon e).accs = s.accs := rfl
@[simp] theorem State.soon_tlb (s : State) (e : Ev) : (s.soon e).tlb = s.tlb := rfl
@[simp] theorem State.soon_replays (s : State) (e : Ev) : (s.soon e).replays = s.replays := rfl
@[simp] theorem State.soon_stopes (s : State) (e : Ev) : (s.soon e).stopes = s.stopes := rfl
@[simp] theorem State.soon_barWaits (s : State) (e : Ev) : (s.soon e).barWaits = s.barWaits := rfl
@[simp] theorem State.soon_latches (s : State) (e : Ev) : (s.soon e).latches = s.latches := rfl
@[simp] theorem State.soon_hub (s : State) (e : Ev) : (s.soon e).hub = s.hub := rfl
@[simp] theorem State.soon_msix (s : State) (e : Ev) : (s.soon e).msix = s.msix := rfl
@[simp] theorem State.soon_replies (s : State) (e : Ev) : (s.soon e).replies = s.replies := rfl
@[simp] theorem State.soon_epoch (s : State) (e : Ev) : (s.soon e).epoch = s.epoch := rfl

/-! ### post -/

@[simp] theorem State.post_now (s : State) (e : Ev) : (s.post e).now = s.now := rfl
@[simp] theorem State.post_phase (s : State) (e : Ev) : (s.post e).phase = s.phase := rfl
@[simp] theorem State.post_agenda (s : State) (e : Ev) : (s.post e).agenda = s.agenda := rfl
@[simp] theorem State.post_future (s : State) (e : Ev) : (s.post e).future = s.future ++ [(s.now + 1 + Config.latency s.fresh, e)] := rfl
@[simp] theorem State.post_inputs (s : State) (e : Ev) : (s.post e).inputs = s.inputs := rfl
@[simp] theorem State.post_grants (s : State) (e : Ev) : (s.post e).grants = s.grants := rfl
@[simp] theorem State.post_cur (s : State) (e : Ev) : (s.post e).cur = s.cur := rfl
@[simp] theorem State.post_arg (s : State) (e : Ev) : (s.post e).arg = s.arg := rfl
@[simp] theorem State.post_fresh (s : State) (e : Ev) : (s.post e).fresh = s.fresh + 1 := rfl
@[simp] theorem State.post_ids (s : State) (e : Ev) : (s.post e).ids = s.ids := rfl
@[simp] theorem State.post_units (s : State) (e : Ev) : (s.post e).units = s.units := rfl
@[simp] theorem State.post_harnesses (s : State) (e : Ev) : (s.post e).harnesses = s.harnesses := rfl
@[simp] theorem State.post_clusters (s : State) (e : Ev) : (s.post e).clusters = s.clusters := rfl
@[simp] theorem State.post_incs (s : State) (e : Ev) : (s.post e).incs = s.incs := rfl
@[simp] theorem State.post_lastSlot (s : State) (e : Ev) : (s.post e).lastSlot = s.lastSlot := rfl
@[simp] theorem State.post_outw (s : State) (e : Ev) : (s.post e).outw = s.outw := rfl
@[simp] theorem State.post_mem (s : State) (e : Ev) : (s.post e).mem = s.mem := rfl
@[simp] theorem State.post_fadeint (s : State) (e : Ev) : (s.post e).fadeint = s.fadeint := rfl
@[simp] theorem State.post_pagerdst (s : State) (e : Ev) : (s.post e).pagerdst = s.pagerdst := rfl
@[simp] theorem State.post_staledrop (s : State) (e : Ev) : (s.post e).staledrop = s.staledrop := rfl
@[simp] theorem State.post_errb (s : State) (e : Ev) : (s.post e).errb = s.errb := rfl
@[simp] theorem State.post_badSr (s : State) (e : Ev) : (s.post e).badSr = s.badSr := rfl
@[simp] theorem State.post_devnum (s : State) (e : Ev) : (s.post e).devnum = s.devnum := rfl
@[simp] theorem State.post_lates (s : State) (e : Ev) : (s.post e).lates = s.lates := rfl
@[simp] theorem State.post_late (s : State) (e : Ev) : (s.post e).late = s.late := rfl
@[simp] theorem State.post_ext (s : State) (e : Ev) : (s.post e).ext = s.ext := rfl
@[simp] theorem State.post_poison (s : State) (e : Ev) : (s.post e).poison = s.poison := rfl
@[simp] theorem State.post_errs (s : State) (e : Ev) : (s.post e).errs = s.errs := rfl
@[simp] theorem State.post_classes (s : State) (e : Ev) : (s.post e).classes = s.classes := rfl
@[simp] theorem State.post_gbusy (s : State) (e : Ev) : (s.post e).gbusy = s.gbusy := rfl
@[simp] theorem State.post_l1 (s : State) (e : Ev) : (s.post e).l1 = s.l1 := rfl
@[simp] theorem State.post_l2 (s : State) (e : Ev) : (s.post e).l2 = s.l2 := rfl
@[simp] theorem State.post_dir (s : State) (e : Ev) : (s.post e).dir = s.dir := rfl
@[simp] theorem State.post_dirBits (s : State) (e : Ev) : (s.post e).dirBits = s.dirBits := rfl
@[simp] theorem State.post_slicesDown (s : State) (e : Ev) : (s.post e).slicesDown = s.slicesDown := rfl
@[simp] theorem State.post_txns (s : State) (e : Ev) : (s.post e).txns = s.txns := rfl
@[simp] theorem State.post_dirWait (s : State) (e : Ev) : (s.post e).dirWait = s.dirWait := rfl
@[simp] theorem State.post_wbufs (s : State) (e : Ev) : (s.post e).wbufs = s.wbufs := rfl
@[simp] theorem State.post_wires (s : State) (e : Ev) : (s.post e).wires = s.wires := rfl
@[simp] theorem State.post_naks (s : State) (e : Ev) : (s.post e).naks = s.naks := rfl
@[simp] theorem State.post_nakCount (s : State) (e : Ev) : (s.post e).nakCount = s.nakCount := rfl
@[simp] theorem State.post_accs (s : State) (e : Ev) : (s.post e).accs = s.accs := rfl
@[simp] theorem State.post_tlb (s : State) (e : Ev) : (s.post e).tlb = s.tlb := rfl
@[simp] theorem State.post_replays (s : State) (e : Ev) : (s.post e).replays = s.replays := rfl
@[simp] theorem State.post_stopes (s : State) (e : Ev) : (s.post e).stopes = s.stopes := rfl
@[simp] theorem State.post_barWaits (s : State) (e : Ev) : (s.post e).barWaits = s.barWaits := rfl
@[simp] theorem State.post_latches (s : State) (e : Ev) : (s.post e).latches = s.latches := rfl
@[simp] theorem State.post_hub (s : State) (e : Ev) : (s.post e).hub = s.hub := rfl
@[simp] theorem State.post_msix (s : State) (e : Ev) : (s.post e).msix = s.msix := rfl
@[simp] theorem State.post_replies (s : State) (e : Ev) : (s.post e).replies = s.replies := rfl
@[simp] theorem State.post_epoch (s : State) (e : Ev) : (s.post e).epoch = s.epoch := rfl

/-! ### wire -/

@[simp] theorem State.wire_now (s : State) (k : Nat) (e : Ev) : (s.wire k e).now = s.now := rfl
@[simp] theorem State.wire_phase (s : State) (k : Nat) (e : Ev) : (s.wire k e).phase = s.phase := rfl
@[simp] theorem State.wire_agenda (s : State) (k : Nat) (e : Ev) : (s.wire k e).agenda = s.agenda := rfl
@[simp] theorem State.wire_inputs (s : State) (k : Nat) (e : Ev) : (s.wire k e).inputs = s.inputs := rfl
@[simp] theorem State.wire_grants (s : State) (k : Nat) (e : Ev) : (s.wire k e).grants = s.grants := rfl
@[simp] theorem State.wire_cur (s : State) (k : Nat) (e : Ev) : (s.wire k e).cur = s.cur := rfl
@[simp] theorem State.wire_arg (s : State) (k : Nat) (e : Ev) : (s.wire k e).arg = s.arg := rfl
@[simp] theorem State.wire_fresh (s : State) (k : Nat) (e : Ev) : (s.wire k e).fresh = s.fresh + 1 := rfl
@[simp] theorem State.wire_ids (s : State) (k : Nat) (e : Ev) : (s.wire k e).ids = s.ids := rfl
@[simp] theorem State.wire_units (s : State) (k : Nat) (e : Ev) : (s.wire k e).units = s.units := rfl
@[simp] theorem State.wire_harnesses (s : State) (k : Nat) (e : Ev) : (s.wire k e).harnesses = s.harnesses := rfl
@[simp] theorem State.wire_clusters (s : State) (k : Nat) (e : Ev) : (s.wire k e).clusters = s.clusters := rfl
@[simp] theorem State.wire_incs (s : State) (k : Nat) (e : Ev) : (s.wire k e).incs = s.incs := rfl
@[simp] theorem State.wire_lastSlot (s : State) (k : Nat) (e : Ev) : (s.wire k e).lastSlot = s.lastSlot := rfl
@[simp] theorem State.wire_outw (s : State) (k : Nat) (e : Ev) : (s.wire k e).outw = s.outw := rfl
@[simp] theorem State.wire_mem (s : State) (k : Nat) (e : Ev) : (s.wire k e).mem = s.mem := rfl
@[simp] theorem State.wire_fadeint (s : State) (k : Nat) (e : Ev) : (s.wire k e).fadeint = s.fadeint := rfl
@[simp] theorem State.wire_pagerdst (s : State) (k : Nat) (e : Ev) : (s.wire k e).pagerdst = s.pagerdst := rfl
@[simp] theorem State.wire_staledrop (s : State) (k : Nat) (e : Ev) : (s.wire k e).staledrop = s.staledrop := rfl
@[simp] theorem State.wire_errb (s : State) (k : Nat) (e : Ev) : (s.wire k e).errb = s.errb := rfl
@[simp] theorem State.wire_badSr (s : State) (k : Nat) (e : Ev) : (s.wire k e).badSr = s.badSr := rfl
@[simp] theorem State.wire_devnum (s : State) (k : Nat) (e : Ev) : (s.wire k e).devnum = s.devnum := rfl
@[simp] theorem State.wire_lates (s : State) (k : Nat) (e : Ev) : (s.wire k e).lates = s.lates := rfl
@[simp] theorem State.wire_late (s : State) (k : Nat) (e : Ev) : (s.wire k e).late = s.late := rfl
@[simp] theorem State.wire_ext (s : State) (k : Nat) (e : Ev) : (s.wire k e).ext = s.ext := rfl
@[simp] theorem State.wire_poison (s : State) (k : Nat) (e : Ev) : (s.wire k e).poison = s.poison := rfl
@[simp] theorem State.wire_errs (s : State) (k : Nat) (e : Ev) : (s.wire k e).errs = s.errs := rfl
@[simp] theorem State.wire_classes (s : State) (k : Nat) (e : Ev) : (s.wire k e).classes = s.classes := rfl
@[simp] theorem State.wire_gbusy (s : State) (k : Nat) (e : Ev) : (s.wire k e).gbusy = s.gbusy := rfl
@[simp] theorem State.wire_l1 (s : State) (k : Nat) (e : Ev) : (s.wire k e).l1 = s.l1 := rfl
@[simp] theorem State.wire_l2 (s : State) (k : Nat) (e : Ev) : (s.wire k e).l2 = s.l2 := rfl
@[simp] theorem State.wire_dir (s : State) (k : Nat) (e : Ev) : (s.wire k e).dir = s.dir := rfl
@[simp] theorem State.wire_dirBits (s : State) (k : Nat) (e : Ev) : (s.wire k e).dirBits = s.dirBits := rfl
@[simp] theorem State.wire_slicesDown (s : State) (k : Nat) (e : Ev) : (s.wire k e).slicesDown = s.slicesDown := rfl
@[simp] theorem State.wire_txns (s : State) (k : Nat) (e : Ev) : (s.wire k e).txns = s.txns := rfl
@[simp] theorem State.wire_dirWait (s : State) (k : Nat) (e : Ev) : (s.wire k e).dirWait = s.dirWait := rfl
@[simp] theorem State.wire_wbufs (s : State) (k : Nat) (e : Ev) : (s.wire k e).wbufs = s.wbufs := rfl
@[simp] theorem State.wire_naks (s : State) (k : Nat) (e : Ev) : (s.wire k e).naks = s.naks := rfl
@[simp] theorem State.wire_nakCount (s : State) (k : Nat) (e : Ev) : (s.wire k e).nakCount = s.nakCount := rfl
@[simp] theorem State.wire_accs (s : State) (k : Nat) (e : Ev) : (s.wire k e).accs = s.accs := rfl
@[simp] theorem State.wire_tlb (s : State) (k : Nat) (e : Ev) : (s.wire k e).tlb = s.tlb := rfl
@[simp] theorem State.wire_replays (s : State) (k : Nat) (e : Ev) : (s.wire k e).replays = s.replays := rfl
@[simp] theorem State.wire_stopes (s : State) (k : Nat) (e : Ev) : (s.wire k e).stopes = s.stopes := rfl
@[simp] theorem State.wire_barWaits (s : State) (k : Nat) (e : Ev) : (s.wire k e).barWaits = s.barWaits := rfl
@[simp] theorem State.wire_latches (s : State) (k : Nat) (e : Ev) : (s.wire k e).latches = s.latches := rfl
@[simp] theorem State.wire_hub (s : State) (k : Nat) (e : Ev) : (s.wire k e).hub = s.hub := rfl
@[simp] theorem State.wire_msix (s : State) (k : Nat) (e : Ev) : (s.wire k e).msix = s.msix := rfl
@[simp] theorem State.wire_replies (s : State) (k : Nat) (e : Ev) : (s.wire k e).replies = s.replies := rfl
@[simp] theorem State.wire_epoch (s : State) (k : Nat) (e : Ev) : (s.wire k e).epoch = s.epoch := rfl

/-! ### w64 -/

@[simp] theorem State.w64_now (s : State) (a : Nat) (v : Word) : (s.w64 a v).now = s.now := rfl
@[simp] theorem State.w64_phase (s : State) (a : Nat) (v : Word) : (s.w64 a v).phase = s.phase := rfl
@[simp] theorem State.w64_agenda (s : State) (a : Nat) (v : Word) : (s.w64 a v).agenda = s.agenda := rfl
@[simp] theorem State.w64_future (s : State) (a : Nat) (v : Word) : (s.w64 a v).future = s.future := rfl
@[simp] theorem State.w64_inputs (s : State) (a : Nat) (v : Word) : (s.w64 a v).inputs = s.inputs := rfl
@[simp] theorem State.w64_grants (s : State) (a : Nat) (v : Word) : (s.w64 a v).grants = s.grants := rfl
@[simp] theorem State.w64_cur (s : State) (a : Nat) (v : Word) : (s.w64 a v).cur = s.cur := rfl
@[simp] theorem State.w64_arg (s : State) (a : Nat) (v : Word) : (s.w64 a v).arg = s.arg := rfl
@[simp] theorem State.w64_fresh (s : State) (a : Nat) (v : Word) : (s.w64 a v).fresh = s.fresh := rfl
@[simp] theorem State.w64_ids (s : State) (a : Nat) (v : Word) : (s.w64 a v).ids = s.ids := rfl
@[simp] theorem State.w64_units (s : State) (a : Nat) (v : Word) : (s.w64 a v).units = s.units := rfl
@[simp] theorem State.w64_harnesses (s : State) (a : Nat) (v : Word) : (s.w64 a v).harnesses = s.harnesses := rfl
@[simp] theorem State.w64_clusters (s : State) (a : Nat) (v : Word) : (s.w64 a v).clusters = s.clusters := rfl
@[simp] theorem State.w64_incs (s : State) (a : Nat) (v : Word) : (s.w64 a v).incs = s.incs := rfl
@[simp] theorem State.w64_lastSlot (s : State) (a : Nat) (v : Word) : (s.w64 a v).lastSlot = s.lastSlot := rfl
@[simp] theorem State.w64_outw (s : State) (a : Nat) (v : Word) : (s.w64 a v).outw = s.outw := rfl
@[simp] theorem State.w64_mem (s : State) (a : Nat) (v : Word) : (s.w64 a v).mem = memWrite s.mem a 8 v.toNat := rfl
@[simp] theorem State.w64_fadeint (s : State) (a : Nat) (v : Word) : (s.w64 a v).fadeint = s.fadeint := rfl
@[simp] theorem State.w64_pagerdst (s : State) (a : Nat) (v : Word) : (s.w64 a v).pagerdst = s.pagerdst := rfl
@[simp] theorem State.w64_staledrop (s : State) (a : Nat) (v : Word) : (s.w64 a v).staledrop = s.staledrop := rfl
@[simp] theorem State.w64_errb (s : State) (a : Nat) (v : Word) : (s.w64 a v).errb = s.errb := rfl
@[simp] theorem State.w64_badSr (s : State) (a : Nat) (v : Word) : (s.w64 a v).badSr = s.badSr := rfl
@[simp] theorem State.w64_devnum (s : State) (a : Nat) (v : Word) : (s.w64 a v).devnum = s.devnum := rfl
@[simp] theorem State.w64_lates (s : State) (a : Nat) (v : Word) : (s.w64 a v).lates = s.lates := rfl
@[simp] theorem State.w64_late (s : State) (a : Nat) (v : Word) : (s.w64 a v).late = s.late := rfl
@[simp] theorem State.w64_ext (s : State) (a : Nat) (v : Word) : (s.w64 a v).ext = s.ext := rfl
@[simp] theorem State.w64_poison (s : State) (a : Nat) (v : Word) : (s.w64 a v).poison = s.poison := rfl
@[simp] theorem State.w64_errs (s : State) (a : Nat) (v : Word) : (s.w64 a v).errs = s.errs := rfl
@[simp] theorem State.w64_classes (s : State) (a : Nat) (v : Word) : (s.w64 a v).classes = s.classes := rfl
@[simp] theorem State.w64_gbusy (s : State) (a : Nat) (v : Word) : (s.w64 a v).gbusy = s.gbusy := rfl
@[simp] theorem State.w64_dir (s : State) (a : Nat) (v : Word) : (s.w64 a v).dir = s.dir := rfl
@[simp] theorem State.w64_dirBits (s : State) (a : Nat) (v : Word) : (s.w64 a v).dirBits = s.dirBits := rfl
@[simp] theorem State.w64_slicesDown (s : State) (a : Nat) (v : Word) : (s.w64 a v).slicesDown = s.slicesDown := rfl
@[simp] theorem State.w64_txns (s : State) (a : Nat) (v : Word) : (s.w64 a v).txns = s.txns := rfl
@[simp] theorem State.w64_dirWait (s : State) (a : Nat) (v : Word) : (s.w64 a v).dirWait = s.dirWait := rfl
@[simp] theorem State.w64_wbufs (s : State) (a : Nat) (v : Word) : (s.w64 a v).wbufs = s.wbufs := rfl
@[simp] theorem State.w64_wires (s : State) (a : Nat) (v : Word) : (s.w64 a v).wires = s.wires := rfl
@[simp] theorem State.w64_naks (s : State) (a : Nat) (v : Word) : (s.w64 a v).naks = s.naks := rfl
@[simp] theorem State.w64_nakCount (s : State) (a : Nat) (v : Word) : (s.w64 a v).nakCount = s.nakCount := rfl
@[simp] theorem State.w64_accs (s : State) (a : Nat) (v : Word) : (s.w64 a v).accs = s.accs := rfl
@[simp] theorem State.w64_tlb (s : State) (a : Nat) (v : Word) : (s.w64 a v).tlb = s.tlb := rfl
@[simp] theorem State.w64_replays (s : State) (a : Nat) (v : Word) : (s.w64 a v).replays = s.replays := rfl
@[simp] theorem State.w64_stopes (s : State) (a : Nat) (v : Word) : (s.w64 a v).stopes = s.stopes := rfl
@[simp] theorem State.w64_barWaits (s : State) (a : Nat) (v : Word) : (s.w64 a v).barWaits = s.barWaits := rfl
@[simp] theorem State.w64_latches (s : State) (a : Nat) (v : Word) : (s.w64 a v).latches = s.latches := rfl
@[simp] theorem State.w64_hub (s : State) (a : Nat) (v : Word) : (s.w64 a v).hub = s.hub := rfl
@[simp] theorem State.w64_msix (s : State) (a : Nat) (v : Word) : (s.w64 a v).msix = s.msix := rfl
@[simp] theorem State.w64_replies (s : State) (a : Nat) (v : Word) : (s.w64 a v).replies = s.replies := rfl
@[simp] theorem State.w64_epoch (s : State) (a : Nat) (v : Word) : (s.w64 a v).epoch = s.epoch := rfl

/-! ### addOut -/

@[simp] theorem State.addOut_now (s : State) (k : UKey) (o : OutWord) : (s.addOut k o).now = s.now := rfl
@[simp] theorem State.addOut_phase (s : State) (k : UKey) (o : OutWord) : (s.addOut k o).phase = s.phase := rfl
@[simp] theorem State.addOut_agenda (s : State) (k : UKey) (o : OutWord) : (s.addOut k o).agenda = s.agenda := rfl
@[simp] theorem State.addOut_future (s : State) (k : UKey) (o : OutWord) : (s.addOut k o).future = s.future := rfl
@[simp] theorem State.addOut_inputs (s : State) (k : UKey) (o : OutWord) : (s.addOut k o).inputs = s.inputs := rfl
@[simp] theorem State.addOut_grants (s : State) (k : UKey) (o : OutWord) : (s.addOut k o).grants = s.grants := rfl
@[simp] theorem State.addOut_cur (s : State) (k : UKey) (o : OutWord) : (s.addOut k o).cur = s.cur := rfl
@[simp] theorem State.addOut_arg (s : State) (k : UKey) (o : OutWord) : (s.addOut k o).arg = s.arg := rfl
@[simp] theorem State.addOut_fresh (s : State) (k : UKey) (o : OutWord) : (s.addOut k o).fresh = s.fresh := rfl
@[simp] theorem State.addOut_ids (s : State) (k : UKey) (o : OutWord) : (s.addOut k o).ids = s.ids := rfl
@[simp] theorem State.addOut_harnesses (s : State) (k : UKey) (o : OutWord) : (s.addOut k o).harnesses = s.harnesses := rfl
@[simp] theorem State.addOut_clusters (s : State) (k : UKey) (o : OutWord) : (s.addOut k o).clusters = s.clusters := rfl
@[simp] theorem State.addOut_incs (s : State) (k : UKey) (o : OutWord) : (s.addOut k o).incs = s.incs := rfl
@[simp] theorem State.addOut_lastSlot (s : State) (k : UKey) (o : OutWord) : (s.addOut k o).lastSlot = s.lastSlot := rfl
@[simp] theorem State.addOut_outw (s : State) (k : UKey) (o : OutWord) : (s.addOut k o).outw = s.outw ++ [o] := rfl
@[simp] theorem State.addOut_mem (s : State) (k : UKey) (o : OutWord) : (s.addOut k o).mem = s.mem := rfl
@[simp] theorem State.addOut_fadeint (s : State) (k : UKey) (o : OutWord) : (s.addOut k o).fadeint = s.fadeint := rfl
@[simp] theorem State.addOut_pagerdst (s : State) (k : UKey) (o : OutWord) : (s.addOut k o).pagerdst = s.pagerdst := rfl
@[simp] theorem State.addOut_staledrop (s : State) (k : UKey) (o : OutWord) : (s.addOut k o).staledrop = s.staledrop := rfl
@[simp] theorem State.addOut_errb (s : State) (k : UKey) (o : OutWord) : (s.addOut k o).errb = s.errb := rfl
@[simp] theorem State.addOut_badSr (s : State) (k : UKey) (o : OutWord) : (s.addOut k o).badSr = s.badSr := rfl
@[simp] theorem State.addOut_devnum (s : State) (k : UKey) (o : OutWord) : (s.addOut k o).devnum = s.devnum := rfl
@[simp] theorem State.addOut_lates (s : State) (k : UKey) (o : OutWord) : (s.addOut k o).lates = s.lates := rfl
@[simp] theorem State.addOut_late (s : State) (k : UKey) (o : OutWord) : (s.addOut k o).late = s.late := rfl
@[simp] theorem State.addOut_ext (s : State) (k : UKey) (o : OutWord) : (s.addOut k o).ext = s.ext := rfl
@[simp] theorem State.addOut_poison (s : State) (k : UKey) (o : OutWord) : (s.addOut k o).poison = s.poison := rfl
@[simp] theorem State.addOut_errs (s : State) (k : UKey) (o : OutWord) : (s.addOut k o).errs = s.errs := rfl
@[simp] theorem State.addOut_classes (s : State) (k : UKey) (o : OutWord) : (s.addOut k o).classes = s.classes := rfl
@[simp] theorem State.addOut_gbusy (s : State) (k : UKey) (o : OutWord) : (s.addOut k o).gbusy = s.gbusy := rfl
@[simp] theorem State.addOut_l1 (s : State) (k : UKey) (o : OutWord) : (s.addOut k o).l1 = s.l1 := rfl
@[simp] theorem State.addOut_l2 (s : State) (k : UKey) (o : OutWord) : (s.addOut k o).l2 = s.l2 := rfl
@[simp] theorem State.addOut_dir (s : State) (k : UKey) (o : OutWord) : (s.addOut k o).dir = s.dir := rfl
@[simp] theorem State.addOut_dirBits (s : State) (k : UKey) (o : OutWord) : (s.addOut k o).dirBits = s.dirBits := rfl
@[simp] theorem State.addOut_slicesDown (s : State) (k : UKey) (o : OutWord) : (s.addOut k o).slicesDown = s.slicesDown := rfl
@[simp] theorem State.addOut_txns (s : State) (k : UKey) (o : OutWord) : (s.addOut k o).txns = s.txns := rfl
@[simp] theorem State.addOut_dirWait (s : State) (k : UKey) (o : OutWord) : (s.addOut k o).dirWait = s.dirWait := rfl
@[simp] theorem State.addOut_wbufs (s : State) (k : UKey) (o : OutWord) : (s.addOut k o).wbufs = s.wbufs := rfl
@[simp] theorem State.addOut_wires (s : State) (k : UKey) (o : OutWord) : (s.addOut k o).wires = s.wires := rfl
@[simp] theorem State.addOut_naks (s : State) (k : UKey) (o : OutWord) : (s.addOut k o).naks = s.naks := rfl
@[simp] theorem State.addOut_nakCount (s : State) (k : UKey) (o : OutWord) : (s.addOut k o).nakCount = s.nakCount := rfl
@[simp] theorem State.addOut_accs (s : State) (k : UKey) (o : OutWord) : (s.addOut k o).accs = s.accs := rfl
@[simp] theorem State.addOut_tlb (s : State) (k : UKey) (o : OutWord) : (s.addOut k o).tlb = s.tlb := rfl
@[simp] theorem State.addOut_replays (s : State) (k : UKey) (o : OutWord) : (s.addOut k o).replays = s.replays := rfl
@[simp] theorem State.addOut_stopes (s : State) (k : UKey) (o : OutWord) : (s.addOut k o).stopes = s.stopes := rfl
@[simp] theorem State.addOut_barWaits (s : State) (k : UKey) (o : OutWord) : (s.addOut k o).barWaits = s.barWaits := rfl
@[simp] theorem State.addOut_latches (s : State) (k : UKey) (o : OutWord) : (s.addOut k o).latches = s.latches := rfl
@[simp] theorem State.addOut_hub (s : State) (k : UKey) (o : OutWord) : (s.addOut k o).hub = s.hub := rfl
@[simp] theorem State.addOut_msix (s : State) (k : UKey) (o : OutWord) : (s.addOut k o).msix = s.msix := rfl
@[simp] theorem State.addOut_replies (s : State) (k : UKey) (o : OutWord) : (s.addOut k o).replies = s.replies := rfl
@[simp] theorem State.addOut_epoch (s : State) (k : UKey) (o : OutWord) : (s.addOut k o).epoch = s.epoch := rfl

/-! ### setErrbudget -/

@[simp] theorem State.setErrbudget_now (s : State) (c : Nat) (v : Word) : (s.setErrbudget c v).now = s.now := rfl
@[simp] theorem State.setErrbudget_phase (s : State) (c : Nat) (v : Word) : (s.setErrbudget c v).phase = s.phase := rfl
@[simp] theorem State.setErrbudget_agenda (s : State) (c : Nat) (v : Word) : (s.setErrbudget c v).agenda = s.agenda := rfl
@[simp] theorem State.setErrbudget_future (s : State) (c : Nat) (v : Word) : (s.setErrbudget c v).future = s.future := rfl
@[simp] theorem State.setErrbudget_inputs (s : State) (c : Nat) (v : Word) : (s.setErrbudget c v).inputs = s.inputs := rfl
@[simp] theorem State.setErrbudget_grants (s : State) (c : Nat) (v : Word) : (s.setErrbudget c v).grants = s.grants := rfl
@[simp] theorem State.setErrbudget_cur (s : State) (c : Nat) (v : Word) : (s.setErrbudget c v).cur = s.cur := rfl
@[simp] theorem State.setErrbudget_arg (s : State) (c : Nat) (v : Word) : (s.setErrbudget c v).arg = s.arg := rfl
@[simp] theorem State.setErrbudget_fresh (s : State) (c : Nat) (v : Word) : (s.setErrbudget c v).fresh = s.fresh := rfl
@[simp] theorem State.setErrbudget_ids (s : State) (c : Nat) (v : Word) : (s.setErrbudget c v).ids = s.ids := rfl
@[simp] theorem State.setErrbudget_units (s : State) (c : Nat) (v : Word) : (s.setErrbudget c v).units = s.units := rfl
@[simp] theorem State.setErrbudget_harnesses (s : State) (c : Nat) (v : Word) : (s.setErrbudget c v).harnesses = s.harnesses := rfl
@[simp] theorem State.setErrbudget_clusters (s : State) (c : Nat) (v : Word) : (s.setErrbudget c v).clusters = s.clusters := rfl
@[simp] theorem State.setErrbudget_incs (s : State) (c : Nat) (v : Word) : (s.setErrbudget c v).incs = s.incs := rfl
@[simp] theorem State.setErrbudget_lastSlot (s : State) (c : Nat) (v : Word) : (s.setErrbudget c v).lastSlot = s.lastSlot := rfl
@[simp] theorem State.setErrbudget_outw (s : State) (c : Nat) (v : Word) : (s.setErrbudget c v).outw = s.outw := rfl
@[simp] theorem State.setErrbudget_mem (s : State) (c : Nat) (v : Word) : (s.setErrbudget c v).mem = s.mem := rfl
@[simp] theorem State.setErrbudget_fadeint (s : State) (c : Nat) (v : Word) : (s.setErrbudget c v).fadeint = s.fadeint := rfl
@[simp] theorem State.setErrbudget_pagerdst (s : State) (c : Nat) (v : Word) : (s.setErrbudget c v).pagerdst = s.pagerdst := rfl
@[simp] theorem State.setErrbudget_staledrop (s : State) (c : Nat) (v : Word) : (s.setErrbudget c v).staledrop = s.staledrop := rfl
@[simp] theorem State.setErrbudget_badSr (s : State) (c : Nat) (v : Word) : (s.setErrbudget c v).badSr = s.badSr := rfl
@[simp] theorem State.setErrbudget_devnum (s : State) (c : Nat) (v : Word) : (s.setErrbudget c v).devnum = s.devnum := rfl
@[simp] theorem State.setErrbudget_lates (s : State) (c : Nat) (v : Word) : (s.setErrbudget c v).lates = s.lates := rfl
@[simp] theorem State.setErrbudget_late (s : State) (c : Nat) (v : Word) : (s.setErrbudget c v).late = s.late := rfl
@[simp] theorem State.setErrbudget_ext (s : State) (c : Nat) (v : Word) : (s.setErrbudget c v).ext = s.ext := rfl
@[simp] theorem State.setErrbudget_poison (s : State) (c : Nat) (v : Word) : (s.setErrbudget c v).poison = s.poison := rfl
@[simp] theorem State.setErrbudget_errs (s : State) (c : Nat) (v : Word) : (s.setErrbudget c v).errs = s.errs := rfl
@[simp] theorem State.setErrbudget_classes (s : State) (c : Nat) (v : Word) : (s.setErrbudget c v).classes = s.classes := rfl
@[simp] theorem State.setErrbudget_gbusy (s : State) (c : Nat) (v : Word) : (s.setErrbudget c v).gbusy = s.gbusy := rfl
@[simp] theorem State.setErrbudget_l1 (s : State) (c : Nat) (v : Word) : (s.setErrbudget c v).l1 = s.l1 := rfl
@[simp] theorem State.setErrbudget_l2 (s : State) (c : Nat) (v : Word) : (s.setErrbudget c v).l2 = s.l2 := rfl
@[simp] theorem State.setErrbudget_dir (s : State) (c : Nat) (v : Word) : (s.setErrbudget c v).dir = s.dir := rfl
@[simp] theorem State.setErrbudget_dirBits (s : State) (c : Nat) (v : Word) : (s.setErrbudget c v).dirBits = s.dirBits := rfl
@[simp] theorem State.setErrbudget_slicesDown (s : State) (c : Nat) (v : Word) : (s.setErrbudget c v).slicesDown = s.slicesDown := rfl
@[simp] theorem State.setErrbudget_txns (s : State) (c : Nat) (v : Word) : (s.setErrbudget c v).txns = s.txns := rfl
@[simp] theorem State.setErrbudget_dirWait (s : State) (c : Nat) (v : Word) : (s.setErrbudget c v).dirWait = s.dirWait := rfl
@[simp] theorem State.setErrbudget_wbufs (s : State) (c : Nat) (v : Word) : (s.setErrbudget c v).wbufs = s.wbufs := rfl
@[simp] theorem State.setErrbudget_wires (s : State) (c : Nat) (v : Word) : (s.setErrbudget c v).wires = s.wires := rfl
@[simp] theorem State.setErrbudget_naks (s : State) (c : Nat) (v : Word) : (s.setErrbudget c v).naks = s.naks := rfl
@[simp] theorem State.setErrbudget_nakCount (s : State) (c : Nat) (v : Word) : (s.setErrbudget c v).nakCount = s.nakCount := rfl
@[simp] theorem State.setErrbudget_accs (s : State) (c : Nat) (v : Word) : (s.setErrbudget c v).accs = s.accs := rfl
@[simp] theorem State.setErrbudget_tlb (s : State) (c : Nat) (v : Word) : (s.setErrbudget c v).tlb = s.tlb := rfl
@[simp] theorem State.setErrbudget_replays (s : State) (c : Nat) (v : Word) : (s.setErrbudget c v).replays = s.replays := rfl
@[simp] theorem State.setErrbudget_stopes (s : State) (c : Nat) (v : Word) : (s.setErrbudget c v).stopes = s.stopes := rfl
@[simp] theorem State.setErrbudget_barWaits (s : State) (c : Nat) (v : Word) : (s.setErrbudget c v).barWaits = s.barWaits := rfl
@[simp] theorem State.setErrbudget_latches (s : State) (c : Nat) (v : Word) : (s.setErrbudget c v).latches = s.latches := rfl
@[simp] theorem State.setErrbudget_hub (s : State) (c : Nat) (v : Word) : (s.setErrbudget c v).hub = s.hub := rfl
@[simp] theorem State.setErrbudget_msix (s : State) (c : Nat) (v : Word) : (s.setErrbudget c v).msix = s.msix := rfl
@[simp] theorem State.setErrbudget_replies (s : State) (c : Nat) (v : Word) : (s.setErrbudget c v).replies = s.replies := rfl
@[simp] theorem State.setErrbudget_epoch (s : State) (c : Nat) (v : Word) : (s.setErrbudget c v).epoch = s.epoch := rfl

/-! ### mapLanes -/

@[simp] theorem HwUnit.mapLanes_id (u : HwUnit) (e : LaneSet) (f : Nat → Lane → Lane) : (u.mapLanes e f).id = u.id := rfl
@[simp] theorem HwUnit.mapLanes_cluster (u : HwUnit) (e : LaneSet) (f : Nat → Lane → Lane) : (u.mapLanes e f).cluster = u.cluster := rfl
@[simp] theorem HwUnit.mapLanes_pipe (u : HwUnit) (e : LaneSet) (f : Nat → Lane → Lane) : (u.mapLanes e f).pipe = u.pipe := rfl
@[simp] theorem HwUnit.mapLanes_slot (u : HwUnit) (e : LaneSet) (f : Nat → Lane → Lane) : (u.mapLanes e f).slot = u.slot := rfl
@[simp] theorem HwUnit.mapLanes_team (u : HwUnit) (e : LaneSet) (f : Nat → Lane → Lane) : (u.mapLanes e f).team = u.team := rfl
@[simp] theorem HwUnit.mapLanes_n (u : HwUnit) (e : LaneSet) (f : Nat → Lane → Lane) : (u.mapLanes e f).n = u.n := rfl
@[simp] theorem HwUnit.mapLanes_k (u : HwUnit) (e : LaneSet) (f : Nat → Lane → Lane) : (u.mapLanes e f).k = u.k := rfl
@[simp] theorem HwUnit.mapLanes_w (u : HwUnit) (e : LaneSet) (f : Nat → Lane → Lane) : (u.mapLanes e f).w = u.w := rfl
@[simp] theorem HwUnit.mapLanes_rowBase (u : HwUnit) (e : LaneSet) (f : Nat → Lane → Lane) : (u.mapLanes e f).rowBase = u.rowBase := rfl
@[simp] theorem HwUnit.mapLanes_v (u : HwUnit) (e : LaneSet) (f : Nat → Lane → Lane) : (u.mapLanes e f).v = u.v := rfl
@[simp] theorem HwUnit.mapLanes_active (u : HwUnit) (e : LaneSet) (f : Nat → Lane → Lane) : (u.mapLanes e f).active = u.active := rfl
@[simp] theorem HwUnit.mapLanes_exited (u : HwUnit) (e : LaneSet) (f : Nat → Lane → Lane) : (u.mapLanes e f).exited = u.exited := rfl
@[simp] theorem HwUnit.mapLanes_done (u : HwUnit) (e : LaneSet) (f : Nat → Lane → Lane) : (u.mapLanes e f).done = u.done := rfl
@[simp] theorem HwUnit.mapLanes_stack (u : HwUnit) (e : LaneSet) (f : Nat → Lane → Lane) : (u.mapLanes e f).stack = u.stack := rfl
@[simp] theorem HwUnit.mapLanes_sb (u : HwUnit) (e : LaneSet) (f : Nat → Lane → Lane) : (u.mapLanes e f).sb = u.sb := rfl
@[simp] theorem HwUnit.mapLanes_sbSeen (u : HwUnit) (e : LaneSet) (f : Nat → Lane → Lane) : (u.mapLanes e f).sbSeen = u.sbSeen := rfl
@[simp] theorem HwUnit.mapLanes_seenIdle (u : HwUnit) (e : LaneSet) (f : Nat → Lane → Lane) : (u.mapLanes e f).seenIdle = u.seenIdle := rfl
@[simp] theorem HwUnit.mapLanes_pc (u : HwUnit) (e : LaneSet) (f : Nat → Lane → Lane) : (u.mapLanes e f).pc = u.pc := rfl
@[simp] theorem HwUnit.mapLanes_widx (u : HwUnit) (e : LaneSet) (f : Nat → Lane → Lane) : (u.mapLanes e f).widx = u.widx := rfl
@[simp] theorem HwUnit.mapLanes_begun (u : HwUnit) (e : LaneSet) (f : Nat → Lane → Lane) : (u.mapLanes e f).begun = u.begun := rfl
@[simp] theorem HwUnit.mapLanes_clause (u : HwUnit) (e : LaneSet) (f : Nat → Lane → Lane) : (u.mapLanes e f).clause = u.clause := rfl
@[simp] theorem HwUnit.mapLanes_status (u : HwUnit) (e : LaneSet) (f : Nat → Lane → Lane) : (u.mapLanes e f).status = u.status := rfl
@[simp] theorem HwUnit.mapLanes_act (u : HwUnit) (e : LaneSet) (f : Nat → Lane → Lane) : (u.mapLanes e f).act = u.act := rfl
@[simp] theorem HwUnit.mapLanes_wait (u : HwUnit) (e : LaneSet) (f : Nat → Lane → Lane) : (u.mapLanes e f).wait = u.wait := rfl
@[simp] theorem HwUnit.mapLanes_only (u : HwUnit) (e : LaneSet) (f : Nat → Lane → Lane) : (u.mapLanes e f).only = u.only := rfl
@[simp] theorem HwUnit.mapLanes_after (u : HwUnit) (e : LaneSet) (f : Nat → Lane → Lane) : (u.mapLanes e f).after = u.after := rfl
@[simp] theorem HwUnit.mapLanes_exiting (u : HwUnit) (e : LaneSet) (f : Nat → Lane → Lane) : (u.mapLanes e f).exiting = u.exiting := rfl
@[simp] theorem HwUnit.mapLanes_killed (u : HwUnit) (e : LaneSet) (f : Nat → Lane → Lane) : (u.mapLanes e f).killed = u.killed := rfl
@[simp] theorem HwUnit.mapLanes_split (u : HwUnit) (e : LaneSet) (f : Nat → Lane → Lane) : (u.mapLanes e f).split = u.split := rfl
@[simp] theorem HwUnit.mapLanes_preempt (u : HwUnit) (e : LaneSet) (f : Nat → Lane → Lane) : (u.mapLanes e f).preempt = u.preempt := rfl
@[simp] theorem HwUnit.mapLanes_awake (u : HwUnit) (e : LaneSet) (f : Nat → Lane → Lane) : (u.mapLanes e f).awake = u.awake := rfl
@[simp] theorem HwUnit.mapLanes_yielded (u : HwUnit) (e : LaneSet) (f : Nat → Lane → Lane) : (u.mapLanes e f).yielded = u.yielded := rfl
@[simp] theorem HwUnit.mapLanes_yieldDue (u : HwUnit) (e : LaneSet) (f : Nat → Lane → Lane) : (u.mapLanes e f).yieldDue = u.yieldDue := rfl
@[simp] theorem HwUnit.mapLanes_turned (u : HwUnit) (e : LaneSet) (f : Nat → Lane → Lane) : (u.mapLanes e f).turned = u.turned := rfl
@[simp] theorem HwUnit.mapLanes_run (u : HwUnit) (e : LaneSet) (f : Nat → Lane → Lane) : (u.mapLanes e f).run = u.run := rfl
@[simp] theorem HwUnit.mapLanes_order (u : HwUnit) (e : LaneSet) (f : Nat → Lane → Lane) : (u.mapLanes e f).order = u.order := rfl
@[simp] theorem HwUnit.mapLanes_issued1 (u : HwUnit) (e : LaneSet) (f : Nat → Lane → Lane) : (u.mapLanes e f).issued1 = u.issued1 := rfl
@[simp] theorem HwUnit.mapLanes_fpstat (u : HwUnit) (e : LaneSet) (f : Nat → Lane → Lane) : (u.mapLanes e f).fpstat = u.fpstat := rfl
@[simp] theorem HwUnit.mapLanes_hwFlags (u : HwUnit) (e : LaneSet) (f : Nat → Lane → Lane) : (u.mapLanes e f).hwFlags = u.hwFlags := rfl
@[simp] theorem HwUnit.mapLanes_seed (u : HwUnit) (e : LaneSet) (f : Nat → Lane → Lane) : (u.mapLanes e f).seed = u.seed := rfl
@[simp] theorem HwUnit.mapLanes_splitpol (u : HwUnit) (e : LaneSet) (f : Nat → Lane → Lane) : (u.mapLanes e f).splitpol = u.splitpol := rfl
@[simp] theorem HwUnit.mapLanes_gang (u : HwUnit) (e : LaneSet) (f : Nat → Lane → Lane) : (u.mapLanes e f).gang = u.gang := rfl
@[simp] theorem HwUnit.mapLanes_asid (u : HwUnit) (e : LaneSet) (f : Nat → Lane → Lane) : (u.mapLanes e f).asid = u.asid := rfl
@[simp] theorem HwUnit.mapLanes_retired (u : HwUnit) (e : LaneSet) (f : Nat → Lane → Lane) : (u.mapLanes e f).retired = u.retired := rfl
@[simp] theorem HwUnit.mapLanes_super (u : HwUnit) (e : LaneSet) (f : Nat → Lane → Lane) : (u.mapLanes e f).super = u.super := rfl
@[simp] theorem HwUnit.mapLanes_kclass (u : HwUnit) (e : LaneSet) (f : Nat → Lane → Lane) : (u.mapLanes e f).kclass = u.kclass := rfl
@[simp] theorem HwUnit.mapLanes_ctx (u : HwUnit) (e : LaneSet) (f : Nat → Lane → Lane) : (u.mapLanes e f).ctx = u.ctx := rfl
@[simp] theorem HwUnit.mapLanes_inst (u : HwUnit) (e : LaneSet) (f : Nat → Lane → Lane) : (u.mapLanes e f).inst = u.inst := rfl
@[simp] theorem HwUnit.mapLanes_wexit (u : HwUnit) (e : LaneSet) (f : Nat → Lane → Lane) : (u.mapLanes e f).wexit = u.wexit := rfl
@[simp] theorem HwUnit.mapLanes_area (u : HwUnit) (e : LaneSet) (f : Nat → Lane → Lane) : (u.mapLanes e f).area = u.area := rfl
@[simp] theorem HwUnit.mapLanes_areaIdx (u : HwUnit) (e : LaneSet) (f : Nat → Lane → Lane) : (u.mapLanes e f).areaIdx = u.areaIdx := rfl
@[simp] theorem HwUnit.mapLanes_inbox (u : HwUnit) (e : LaneSet) (f : Nat → Lane → Lane) : (u.mapLanes e f).inbox = u.inbox := rfl
@[simp] theorem HwUnit.mapLanes_pending (u : HwUnit) (e : LaneSet) (f : Nat → Lane → Lane) : (u.mapLanes e f).pending = u.pending := rfl
@[simp] theorem HwUnit.mapLanes_msgs (u : HwUnit) (e : LaneSet) (f : Nat → Lane → Lane) : (u.mapLanes e f).msgs = u.msgs := rfl
@[simp] theorem HwUnit.mapLanes_faultW (u : HwUnit) (e : LaneSet) (f : Nat → Lane → Lane) : (u.mapLanes e f).faultW = u.faultW := rfl
@[simp] theorem HwUnit.mapLanes_frec (u : HwUnit) (e : LaneSet) (f : Nat → Lane → Lane) : (u.mapLanes e f).frec = u.frec := rfl
@[simp] theorem HwUnit.mapLanes_idem (u : HwUnit) (e : LaneSet) (f : Nat → Lane → Lane) : (u.mapLanes e f).idem = u.idem := rfl
@[simp] theorem HwUnit.mapLanes_taint (u : HwUnit) (e : LaneSet) (f : Nat → Lane → Lane) : (u.mapLanes e f).taint = u.taint := rfl
@[simp] theorem HwUnit.mapLanes_prog (u : HwUnit) (e : LaneSet) (f : Nat → Lane → Lane) : (u.mapLanes e f).prog = u.prog := rfl
@[simp] theorem HwUnit.mapLanes_prog0 (u : HwUnit) (e : LaneSet) (f : Nat → Lane → Lane) : (u.mapLanes e f).prog0 = u.prog0 := rfl
@[simp] theorem HwUnit.mapLanes_resid (u : HwUnit) (e : LaneSet) (f : Nat → Lane → Lane) : (u.mapLanes e f).resid = u.resid := rfl
@[simp] theorem HwUnit.mapLanes_sparse (u : HwUnit) (e : LaneSet) (f : Nat → Lane → Lane) : (u.mapLanes e f).sparse = u.sparse := rfl
@[simp] theorem HwUnit.mapLanes_groups (u : HwUnit) (e : LaneSet) (f : Nat → Lane → Lane) : (u.mapLanes e f).groups = u.groups := rfl
@[simp] theorem HwUnit.mapLanes_q (u : HwUnit) (e : LaneSet) (f : Nat → Lane → Lane) : (u.mapLanes e f).q = u.q := rfl
@[simp] theorem HwUnit.mapLanes_awaiting (u : HwUnit) (e : LaneSet) (f : Nat → Lane → Lane) : (u.mapLanes e f).awaiting = u.awaiting := rfl
@[simp] theorem HwUnit.mapLanes_released (u : HwUnit) (e : LaneSet) (f : Nat → Lane → Lane) : (u.mapLanes e f).released = u.released := rfl
@[simp] theorem HwUnit.mapLanes_fetching (u : HwUnit) (e : LaneSet) (f : Nat → Lane → Lane) : (u.mapLanes e f).fetching = u.fetching := rfl
@[simp] theorem HwUnit.mapLanes_fbuf (u : HwUnit) (e : LaneSet) (f : Nat → Lane → Lane) : (u.mapLanes e f).fbuf = u.fbuf := rfl
@[simp] theorem HwUnit.mapLanes_logged (u : HwUnit) (e : LaneSet) (f : Nat → Lane → Lane) : (u.mapLanes e f).logged = u.logged := rfl
@[simp] theorem HwUnit.mapLanes_parkDue (u : HwUnit) (e : LaneSet) (f : Nat → Lane → Lane) : (u.mapLanes e f).parkDue = u.parkDue := rfl
@[simp] theorem HwUnit.mapLanes_drained (u : HwUnit) (e : LaneSet) (f : Nat → Lane → Lane) : (u.mapLanes e f).drained = u.drained := rfl
@[simp] theorem HwUnit.mapLanes_arr (u : HwUnit) (e : LaneSet) (f : Nat → Lane → Lane) : (u.mapLanes e f).arr = u.arr := rfl
@[simp] theorem HwUnit.mapLanes_clashed (u : HwUnit) (e : LaneSet) (f : Nat → Lane → Lane) : (u.mapLanes e f).clashed = u.clashed := rfl
@[simp] theorem HwUnit.mapLanes_stuck (u : HwUnit) (e : LaneSet) (f : Nat → Lane → Lane) : (u.mapLanes e f).stuck = u.stuck := rfl
@[simp] theorem HwUnit.mapLanes_bad (u : HwUnit) (e : LaneSet) (f : Nat → Lane → Lane) : (u.mapLanes e f).bad = u.bad := rfl

/-! ### setVr -/

@[simp] theorem HwUnit.setVr_id (u : HwUnit) (r : Vr) (v : VReg) : (u.setVr r v).id = u.id := rfl
@[simp] theorem HwUnit.setVr_cluster (u : HwUnit) (r : Vr) (v : VReg) : (u.setVr r v).cluster = u.cluster := rfl
@[simp] theorem HwUnit.setVr_pipe (u : HwUnit) (r : Vr) (v : VReg) : (u.setVr r v).pipe = u.pipe := rfl
@[simp] theorem HwUnit.setVr_slot (u : HwUnit) (r : Vr) (v : VReg) : (u.setVr r v).slot = u.slot := rfl
@[simp] theorem HwUnit.setVr_team (u : HwUnit) (r : Vr) (v : VReg) : (u.setVr r v).team = u.team := rfl
@[simp] theorem HwUnit.setVr_n (u : HwUnit) (r : Vr) (v : VReg) : (u.setVr r v).n = u.n := rfl
@[simp] theorem HwUnit.setVr_k (u : HwUnit) (r : Vr) (v : VReg) : (u.setVr r v).k = u.k := rfl
@[simp] theorem HwUnit.setVr_w (u : HwUnit) (r : Vr) (v : VReg) : (u.setVr r v).w = u.w := rfl
@[simp] theorem HwUnit.setVr_rowBase (u : HwUnit) (r : Vr) (v : VReg) : (u.setVr r v).rowBase = u.rowBase := rfl
@[simp] theorem HwUnit.setVr_lanes (u : HwUnit) (r : Vr) (v : VReg) : (u.setVr r v).lanes = u.lanes := rfl
@[simp] theorem HwUnit.setVr_active (u : HwUnit) (r : Vr) (v : VReg) : (u.setVr r v).active = u.active := rfl
@[simp] theorem HwUnit.setVr_exited (u : HwUnit) (r : Vr) (v : VReg) : (u.setVr r v).exited = u.exited := rfl
@[simp] theorem HwUnit.setVr_done (u : HwUnit) (r : Vr) (v : VReg) : (u.setVr r v).done = u.done := rfl
@[simp] theorem HwUnit.setVr_stack (u : HwUnit) (r : Vr) (v : VReg) : (u.setVr r v).stack = u.stack := rfl
@[simp] theorem HwUnit.setVr_sb (u : HwUnit) (r : Vr) (v : VReg) : (u.setVr r v).sb = u.sb := rfl
@[simp] theorem HwUnit.setVr_sbSeen (u : HwUnit) (r : Vr) (v : VReg) : (u.setVr r v).sbSeen = u.sbSeen := rfl
@[simp] theorem HwUnit.setVr_seenIdle (u : HwUnit) (r : Vr) (v : VReg) : (u.setVr r v).seenIdle = u.seenIdle := rfl
@[simp] theorem HwUnit.setVr_pc (u : HwUnit) (r : Vr) (v : VReg) : (u.setVr r v).pc = u.pc := rfl
@[simp] theorem HwUnit.setVr_widx (u : HwUnit) (r : Vr) (v : VReg) : (u.setVr r v).widx = u.widx := rfl
@[simp] theorem HwUnit.setVr_begun (u : HwUnit) (r : Vr) (v : VReg) : (u.setVr r v).begun = u.begun := rfl
@[simp] theorem HwUnit.setVr_clause (u : HwUnit) (r : Vr) (v : VReg) : (u.setVr r v).clause = u.clause := rfl
@[simp] theorem HwUnit.setVr_status (u : HwUnit) (r : Vr) (v : VReg) : (u.setVr r v).status = u.status := rfl
@[simp] theorem HwUnit.setVr_act (u : HwUnit) (r : Vr) (v : VReg) : (u.setVr r v).act = u.act := rfl
@[simp] theorem HwUnit.setVr_wait (u : HwUnit) (r : Vr) (v : VReg) : (u.setVr r v).wait = u.wait := rfl
@[simp] theorem HwUnit.setVr_only (u : HwUnit) (r : Vr) (v : VReg) : (u.setVr r v).only = u.only := rfl
@[simp] theorem HwUnit.setVr_after (u : HwUnit) (r : Vr) (v : VReg) : (u.setVr r v).after = u.after := rfl
@[simp] theorem HwUnit.setVr_exiting (u : HwUnit) (r : Vr) (v : VReg) : (u.setVr r v).exiting = u.exiting := rfl
@[simp] theorem HwUnit.setVr_killed (u : HwUnit) (r : Vr) (v : VReg) : (u.setVr r v).killed = u.killed := rfl
@[simp] theorem HwUnit.setVr_split (u : HwUnit) (r : Vr) (v : VReg) : (u.setVr r v).split = u.split := rfl
@[simp] theorem HwUnit.setVr_preempt (u : HwUnit) (r : Vr) (v : VReg) : (u.setVr r v).preempt = u.preempt := rfl
@[simp] theorem HwUnit.setVr_awake (u : HwUnit) (r : Vr) (v : VReg) : (u.setVr r v).awake = u.awake := rfl
@[simp] theorem HwUnit.setVr_yielded (u : HwUnit) (r : Vr) (v : VReg) : (u.setVr r v).yielded = u.yielded := rfl
@[simp] theorem HwUnit.setVr_yieldDue (u : HwUnit) (r : Vr) (v : VReg) : (u.setVr r v).yieldDue = u.yieldDue := rfl
@[simp] theorem HwUnit.setVr_turned (u : HwUnit) (r : Vr) (v : VReg) : (u.setVr r v).turned = u.turned := rfl
@[simp] theorem HwUnit.setVr_run (u : HwUnit) (r : Vr) (v : VReg) : (u.setVr r v).run = u.run := rfl
@[simp] theorem HwUnit.setVr_order (u : HwUnit) (r : Vr) (v : VReg) : (u.setVr r v).order = u.order := rfl
@[simp] theorem HwUnit.setVr_issued1 (u : HwUnit) (r : Vr) (v : VReg) : (u.setVr r v).issued1 = u.issued1 := rfl
@[simp] theorem HwUnit.setVr_fpstat (u : HwUnit) (r : Vr) (v : VReg) : (u.setVr r v).fpstat = u.fpstat := rfl
@[simp] theorem HwUnit.setVr_hwFlags (u : HwUnit) (r : Vr) (v : VReg) : (u.setVr r v).hwFlags = u.hwFlags := rfl
@[simp] theorem HwUnit.setVr_seed (u : HwUnit) (r : Vr) (v : VReg) : (u.setVr r v).seed = u.seed := rfl
@[simp] theorem HwUnit.setVr_splitpol (u : HwUnit) (r : Vr) (v : VReg) : (u.setVr r v).splitpol = u.splitpol := rfl
@[simp] theorem HwUnit.setVr_gang (u : HwUnit) (r : Vr) (v : VReg) : (u.setVr r v).gang = u.gang := rfl
@[simp] theorem HwUnit.setVr_asid (u : HwUnit) (r : Vr) (v : VReg) : (u.setVr r v).asid = u.asid := rfl
@[simp] theorem HwUnit.setVr_retired (u : HwUnit) (r : Vr) (v : VReg) : (u.setVr r v).retired = u.retired := rfl
@[simp] theorem HwUnit.setVr_super (u : HwUnit) (r : Vr) (v : VReg) : (u.setVr r v).super = u.super := rfl
@[simp] theorem HwUnit.setVr_kclass (u : HwUnit) (r : Vr) (v : VReg) : (u.setVr r v).kclass = u.kclass := rfl
@[simp] theorem HwUnit.setVr_ctx (u : HwUnit) (r : Vr) (v : VReg) : (u.setVr r v).ctx = u.ctx := rfl
@[simp] theorem HwUnit.setVr_inst (u : HwUnit) (r : Vr) (v : VReg) : (u.setVr r v).inst = u.inst := rfl
@[simp] theorem HwUnit.setVr_wexit (u : HwUnit) (r : Vr) (v : VReg) : (u.setVr r v).wexit = u.wexit := rfl
@[simp] theorem HwUnit.setVr_area (u : HwUnit) (r : Vr) (v : VReg) : (u.setVr r v).area = u.area := rfl
@[simp] theorem HwUnit.setVr_areaIdx (u : HwUnit) (r : Vr) (v : VReg) : (u.setVr r v).areaIdx = u.areaIdx := rfl
@[simp] theorem HwUnit.setVr_inbox (u : HwUnit) (r : Vr) (v : VReg) : (u.setVr r v).inbox = u.inbox := rfl
@[simp] theorem HwUnit.setVr_pending (u : HwUnit) (r : Vr) (v : VReg) : (u.setVr r v).pending = u.pending := rfl
@[simp] theorem HwUnit.setVr_msgs (u : HwUnit) (r : Vr) (v : VReg) : (u.setVr r v).msgs = u.msgs := rfl
@[simp] theorem HwUnit.setVr_faultW (u : HwUnit) (r : Vr) (v : VReg) : (u.setVr r v).faultW = u.faultW := rfl
@[simp] theorem HwUnit.setVr_frec (u : HwUnit) (r : Vr) (v : VReg) : (u.setVr r v).frec = u.frec := rfl
@[simp] theorem HwUnit.setVr_idem (u : HwUnit) (r : Vr) (v : VReg) : (u.setVr r v).idem = u.idem := rfl
@[simp] theorem HwUnit.setVr_taint (u : HwUnit) (r : Vr) (v : VReg) : (u.setVr r v).taint = u.taint := rfl
@[simp] theorem HwUnit.setVr_prog (u : HwUnit) (r : Vr) (v : VReg) : (u.setVr r v).prog = u.prog := rfl
@[simp] theorem HwUnit.setVr_prog0 (u : HwUnit) (r : Vr) (v : VReg) : (u.setVr r v).prog0 = u.prog0 := rfl
@[simp] theorem HwUnit.setVr_resid (u : HwUnit) (r : Vr) (v : VReg) : (u.setVr r v).resid = u.resid := rfl
@[simp] theorem HwUnit.setVr_sparse (u : HwUnit) (r : Vr) (v : VReg) : (u.setVr r v).sparse = u.sparse := rfl
@[simp] theorem HwUnit.setVr_groups (u : HwUnit) (r : Vr) (v : VReg) : (u.setVr r v).groups = u.groups := rfl
@[simp] theorem HwUnit.setVr_q (u : HwUnit) (r : Vr) (v : VReg) : (u.setVr r v).q = u.q := rfl
@[simp] theorem HwUnit.setVr_awaiting (u : HwUnit) (r : Vr) (v : VReg) : (u.setVr r v).awaiting = u.awaiting := rfl
@[simp] theorem HwUnit.setVr_released (u : HwUnit) (r : Vr) (v : VReg) : (u.setVr r v).released = u.released := rfl
@[simp] theorem HwUnit.setVr_fetching (u : HwUnit) (r : Vr) (v : VReg) : (u.setVr r v).fetching = u.fetching := rfl
@[simp] theorem HwUnit.setVr_fbuf (u : HwUnit) (r : Vr) (v : VReg) : (u.setVr r v).fbuf = u.fbuf := rfl
@[simp] theorem HwUnit.setVr_logged (u : HwUnit) (r : Vr) (v : VReg) : (u.setVr r v).logged = u.logged := rfl
@[simp] theorem HwUnit.setVr_parkDue (u : HwUnit) (r : Vr) (v : VReg) : (u.setVr r v).parkDue = u.parkDue := rfl
@[simp] theorem HwUnit.setVr_drained (u : HwUnit) (r : Vr) (v : VReg) : (u.setVr r v).drained = u.drained := rfl
@[simp] theorem HwUnit.setVr_arr (u : HwUnit) (r : Vr) (v : VReg) : (u.setVr r v).arr = u.arr := rfl
@[simp] theorem HwUnit.setVr_clashed (u : HwUnit) (r : Vr) (v : VReg) : (u.setVr r v).clashed = u.clashed := rfl
@[simp] theorem HwUnit.setVr_stuck (u : HwUnit) (r : Vr) (v : VReg) : (u.setVr r v).stuck = u.stuck := rfl
@[simp] theorem HwUnit.setVr_bad (u : HwUnit) (r : Vr) (v : VReg) : (u.setVr r v).bad = u.bad := rfl

/-! ### dropResv -/

@[simp] theorem HwUnit.dropResv_id (u : HwUnit) : (u.dropResv).id = u.id := rfl
@[simp] theorem HwUnit.dropResv_cluster (u : HwUnit) : (u.dropResv).cluster = u.cluster := rfl
@[simp] theorem HwUnit.dropResv_pipe (u : HwUnit) : (u.dropResv).pipe = u.pipe := rfl
@[simp] theorem HwUnit.dropResv_slot (u : HwUnit) : (u.dropResv).slot = u.slot := rfl
@[simp] theorem HwUnit.dropResv_team (u : HwUnit) : (u.dropResv).team = u.team := rfl
@[simp] theorem HwUnit.dropResv_n (u : HwUnit) : (u.dropResv).n = u.n := rfl
@[simp] theorem HwUnit.dropResv_k (u : HwUnit) : (u.dropResv).k = u.k := rfl
@[simp] theorem HwUnit.dropResv_w (u : HwUnit) : (u.dropResv).w = u.w := rfl
@[simp] theorem HwUnit.dropResv_rowBase (u : HwUnit) : (u.dropResv).rowBase = u.rowBase := rfl
@[simp] theorem HwUnit.dropResv_v (u : HwUnit) : (u.dropResv).v = u.v := rfl
@[simp] theorem HwUnit.dropResv_active (u : HwUnit) : (u.dropResv).active = u.active := rfl
@[simp] theorem HwUnit.dropResv_exited (u : HwUnit) : (u.dropResv).exited = u.exited := rfl
@[simp] theorem HwUnit.dropResv_done (u : HwUnit) : (u.dropResv).done = u.done := rfl
@[simp] theorem HwUnit.dropResv_stack (u : HwUnit) : (u.dropResv).stack = u.stack := rfl
@[simp] theorem HwUnit.dropResv_sb (u : HwUnit) : (u.dropResv).sb = u.sb := rfl
@[simp] theorem HwUnit.dropResv_sbSeen (u : HwUnit) : (u.dropResv).sbSeen = u.sbSeen := rfl
@[simp] theorem HwUnit.dropResv_seenIdle (u : HwUnit) : (u.dropResv).seenIdle = u.seenIdle := rfl
@[simp] theorem HwUnit.dropResv_pc (u : HwUnit) : (u.dropResv).pc = u.pc := rfl
@[simp] theorem HwUnit.dropResv_widx (u : HwUnit) : (u.dropResv).widx = u.widx := rfl
@[simp] theorem HwUnit.dropResv_begun (u : HwUnit) : (u.dropResv).begun = u.begun := rfl
@[simp] theorem HwUnit.dropResv_clause (u : HwUnit) : (u.dropResv).clause = u.clause := rfl
@[simp] theorem HwUnit.dropResv_status (u : HwUnit) : (u.dropResv).status = u.status := rfl
@[simp] theorem HwUnit.dropResv_act (u : HwUnit) : (u.dropResv).act = u.act := rfl
@[simp] theorem HwUnit.dropResv_wait (u : HwUnit) : (u.dropResv).wait = u.wait := rfl
@[simp] theorem HwUnit.dropResv_only (u : HwUnit) : (u.dropResv).only = u.only := rfl
@[simp] theorem HwUnit.dropResv_after (u : HwUnit) : (u.dropResv).after = u.after := rfl
@[simp] theorem HwUnit.dropResv_exiting (u : HwUnit) : (u.dropResv).exiting = u.exiting := rfl
@[simp] theorem HwUnit.dropResv_killed (u : HwUnit) : (u.dropResv).killed = u.killed := rfl
@[simp] theorem HwUnit.dropResv_split (u : HwUnit) : (u.dropResv).split = u.split := rfl
@[simp] theorem HwUnit.dropResv_preempt (u : HwUnit) : (u.dropResv).preempt = u.preempt := rfl
@[simp] theorem HwUnit.dropResv_awake (u : HwUnit) : (u.dropResv).awake = u.awake := rfl
@[simp] theorem HwUnit.dropResv_yielded (u : HwUnit) : (u.dropResv).yielded = u.yielded := rfl
@[simp] theorem HwUnit.dropResv_yieldDue (u : HwUnit) : (u.dropResv).yieldDue = u.yieldDue := rfl
@[simp] theorem HwUnit.dropResv_turned (u : HwUnit) : (u.dropResv).turned = u.turned := rfl
@[simp] theorem HwUnit.dropResv_run (u : HwUnit) : (u.dropResv).run = u.run := rfl
@[simp] theorem HwUnit.dropResv_order (u : HwUnit) : (u.dropResv).order = u.order := rfl
@[simp] theorem HwUnit.dropResv_issued1 (u : HwUnit) : (u.dropResv).issued1 = u.issued1 := rfl
@[simp] theorem HwUnit.dropResv_fpstat (u : HwUnit) : (u.dropResv).fpstat = u.fpstat := rfl
@[simp] theorem HwUnit.dropResv_hwFlags (u : HwUnit) : (u.dropResv).hwFlags = u.hwFlags := rfl
@[simp] theorem HwUnit.dropResv_seed (u : HwUnit) : (u.dropResv).seed = u.seed := rfl
@[simp] theorem HwUnit.dropResv_splitpol (u : HwUnit) : (u.dropResv).splitpol = u.splitpol := rfl
@[simp] theorem HwUnit.dropResv_gang (u : HwUnit) : (u.dropResv).gang = u.gang := rfl
@[simp] theorem HwUnit.dropResv_asid (u : HwUnit) : (u.dropResv).asid = u.asid := rfl
@[simp] theorem HwUnit.dropResv_retired (u : HwUnit) : (u.dropResv).retired = u.retired := rfl
@[simp] theorem HwUnit.dropResv_super (u : HwUnit) : (u.dropResv).super = u.super := rfl
@[simp] theorem HwUnit.dropResv_kclass (u : HwUnit) : (u.dropResv).kclass = u.kclass := rfl
@[simp] theorem HwUnit.dropResv_ctx (u : HwUnit) : (u.dropResv).ctx = u.ctx := rfl
@[simp] theorem HwUnit.dropResv_inst (u : HwUnit) : (u.dropResv).inst = u.inst := rfl
@[simp] theorem HwUnit.dropResv_wexit (u : HwUnit) : (u.dropResv).wexit = u.wexit := rfl
@[simp] theorem HwUnit.dropResv_area (u : HwUnit) : (u.dropResv).area = u.area := rfl
@[simp] theorem HwUnit.dropResv_areaIdx (u : HwUnit) : (u.dropResv).areaIdx = u.areaIdx := rfl
@[simp] theorem HwUnit.dropResv_inbox (u : HwUnit) : (u.dropResv).inbox = u.inbox := rfl
@[simp] theorem HwUnit.dropResv_pending (u : HwUnit) : (u.dropResv).pending = u.pending := rfl
@[simp] theorem HwUnit.dropResv_msgs (u : HwUnit) : (u.dropResv).msgs = u.msgs := rfl
@[simp] theorem HwUnit.dropResv_faultW (u : HwUnit) : (u.dropResv).faultW = u.faultW := rfl
@[simp] theorem HwUnit.dropResv_frec (u : HwUnit) : (u.dropResv).frec = u.frec := rfl
@[simp] theorem HwUnit.dropResv_idem (u : HwUnit) : (u.dropResv).idem = u.idem := rfl
@[simp] theorem HwUnit.dropResv_taint (u : HwUnit) : (u.dropResv).taint = u.taint := rfl
@[simp] theorem HwUnit.dropResv_prog (u : HwUnit) : (u.dropResv).prog = u.prog := rfl
@[simp] theorem HwUnit.dropResv_prog0 (u : HwUnit) : (u.dropResv).prog0 = u.prog0 := rfl
@[simp] theorem HwUnit.dropResv_resid (u : HwUnit) : (u.dropResv).resid = u.resid := rfl
@[simp] theorem HwUnit.dropResv_sparse (u : HwUnit) : (u.dropResv).sparse = u.sparse := rfl
@[simp] theorem HwUnit.dropResv_groups (u : HwUnit) : (u.dropResv).groups = u.groups := rfl
@[simp] theorem HwUnit.dropResv_q (u : HwUnit) : (u.dropResv).q = u.q := rfl
@[simp] theorem HwUnit.dropResv_awaiting (u : HwUnit) : (u.dropResv).awaiting = u.awaiting := rfl
@[simp] theorem HwUnit.dropResv_released (u : HwUnit) : (u.dropResv).released = u.released := rfl
@[simp] theorem HwUnit.dropResv_fetching (u : HwUnit) : (u.dropResv).fetching = u.fetching := rfl
@[simp] theorem HwUnit.dropResv_fbuf (u : HwUnit) : (u.dropResv).fbuf = u.fbuf := rfl
@[simp] theorem HwUnit.dropResv_logged (u : HwUnit) : (u.dropResv).logged = u.logged := rfl
@[simp] theorem HwUnit.dropResv_parkDue (u : HwUnit) : (u.dropResv).parkDue = u.parkDue := rfl
@[simp] theorem HwUnit.dropResv_drained (u : HwUnit) : (u.dropResv).drained = u.drained := rfl
@[simp] theorem HwUnit.dropResv_arr (u : HwUnit) : (u.dropResv).arr = u.arr := rfl
@[simp] theorem HwUnit.dropResv_clashed (u : HwUnit) : (u.dropResv).clashed = u.clashed := rfl
@[simp] theorem HwUnit.dropResv_stuck (u : HwUnit) : (u.dropResv).stuck = u.stuck := rfl
@[simp] theorem HwUnit.dropResv_bad (u : HwUnit) : (u.dropResv).bad = u.bad := rfl

/-! ### Lanes -/

@[simp] theorem Lane.setX_p (l : Lane) (r : Xr) (v : Word) : (l.setX r v).p = l.p := by unfold Lane.setX; split <;> rfl
@[simp] theorem Lane.setX_resv (l : Lane) (r : Xr) (v : Word) : (l.setX r v).resv = l.resv := by unfold Lane.setX; split <;> rfl
@[simp] theorem Lane.setP_x (l : Lane) (r : Pr) (b : Bool) : (l.setP r b).x = l.x := by unfold Lane.setP; split <;> rfl
@[simp] theorem Lane.setP_resv (l : Lane) (r : Pr) (b : Bool) : (l.setP r b).resv = l.resv := by unfold Lane.setP; split <;> rfl
@[simp] theorem Lane.X_zero (l : Lane) : l.X 0 = 0 := rfl
@[simp] theorem Lane.P_zero (l : Lane) : l.P 0 = true := rfl

/-! ### The state by its parts -/

@[simp] theorem State.unit?_of_units (s t : State) (k : UKey) (h : t.units = s.units) : t.unit? k = s.unit? k := by simp only [State.unit?, h]

theorem State.cluster_modCluster (s : State) (c d : Nat) (f : Cluster → Cluster) (h : d < s.clusters.length) :
    (s.modCluster c f).cluster d = if d = c then f (s.cluster d) else s.cluster d := by
  simp only [State.cluster, State.modCluster, List.getD_eq_getElem?_getD, List.getElem?_mapIdx, List.getElem?_eq_getElem h, Option.map_some, Option.getD_some,
    beq_iff_eq]

end Sys2Proof.Machine
end

