-- ==== Sys2Proof/Tests/Slice0.lean ====
section
/-! SUPPORT. Slice0.lean: words decoded and refused, single steps, and states that meet the hypotheses of the statements. -/

set_option Elab.async false

namespace Sys2Proof.Tests

open Machine

/-! ### Small states -/

def h0 : Hdr := ⟨0, false, 0⟩
def h1 : Hdr := ⟨0, false, 1⟩

/-- A lane with these x registers. -/
def laneOf (l : List (Nat × Nat)) : Lane := l.foldl (fun r p => r.setX (BitVec.ofNat 6 p.1) (BitVec.ofNat 64 p.2)) Lane.zero

/-- A supervisor thread at the only word of a clause at 0x1000, and a team of n lanes of four pipelines. -/
def clauseAt : Clause := ⟨0x1000, 0, [0x0F00000000000000]⟩
def thread (l : List (Nat × Nat)) : HwUnit :=
  { HwUnit.fresh ⟨0, 0, 0, false, 0⟩ 1 64 1 0 0x1000 0 0 true 0 with lanes := [laneOf l], clause := some clauseAt }
def teamOf (n slot : Nat) (l : List (Nat × Nat)) : HwUnit :=
  { HwUnit.fresh ⟨0, 0, slot, true, 0⟩ n 64 4 0 0x1000 0 0 true 0 with lanes := List.replicate n (laneOf l), clause := some clauseAt }

/-- A part of one cluster, brought up, with a unit in its turn. -/
def base : State := { State.reset with agenda := [], clusters := [Cluster.reset], now := 100, hub := { Hub.reset with ready := true, stage := 7 } }
def on (u : HwUnit) : State := { base with units := [u], cur := some u.id, clusters := [Cluster.reset] }

theorem ready {i : Instr} {s : State} {u : HwUnit} {e : LaneSet}
    (h : s.cur = some u.id ∧ s.unit? u.id = some u ∧ i.wf u.env = true ∧ (i.hdr.sb = 0 ∨ u.counter i.hdr.sb ≠ 63) ∧ u.bad = [] ∧ u.exec i.hdr = e ∧
      s.late = none ∧ s.badSr = []) : Ready i s u e :=
  ⟨h.1, h.2.1, h.2.2.1, h.2.2.2.1, h.2.2.2.2.1, h.2.2.2.2.2.2.2, h.2.2.2.2.2.1, h.2.2.2.2.2.2.1⟩

/-! ### Witnesses: steps, integer words and control -/

theorem witness_step_word : ∃ (s : State) (k : UKey) (r : List (UKey × Option Ev)) (u : HwUnit) (c : Clause) (w : Word) (i : Instr),
    (s.lates = [] ∧ s.agenda = [] ∧ s.grants = (k, none) :: r ∧ s.unit? k = some u ∧ u.able = true ∧ u.clause = some c ∧ c.words[u.widx - 1]? = some w) ∧
    decodeWord u.env w = .ok i :=
  ⟨{ on (thread []) with grants := [((thread []).id, none)] }, (thread []).id, [], thread [], clauseAt, 0x0F00000000000000, .nop h0, by decide +kernel, by decide +kernel⟩

theorem witness_step_bad_word : ∃ (s : State) (k : UKey) (r : List (UKey × Option Ev)) (u : HwUnit) (c : Clause) (w : Word),
    (s.lates = [] ∧ s.agenda = [] ∧ s.grants = (k, none) :: r ∧ s.unit? k = some u ∧ u.able = true ∧ u.clause = some c ∧ c.words[u.widx - 1]? = some w) ∧
    decodeWord u.env w = .error .unassigned :=
  let u := { thread [] with clause := some ⟨0x1000, 0, [0]⟩ }
  ⟨{ on u with grants := [(u.id, none)] }, u.id, [], u, ⟨0x1000, 0, [0]⟩, 0, by decide +kernel, by decide +kernel⟩

/-- A word whose release is performed, a step of the agenda, a retry in its turn, and a cycle with nothing left. -/
theorem witness_steps_due : (∃ (s : State) (id : Nat) (r : List Nat) (o : OutWord), s.lates = id :: r ∧ s.lateWord id = some o) ∧
    (∃ (s : State) (e : Ev) (r : List Ev), s.lates = [] ∧ s.agenda = e :: r) ∧
    (∃ (s : State) (k : UKey) (e : Ev) (r : List (UKey × Option Ev)), s.lates = [] ∧ s.agenda = [] ∧ s.grants = (k, some e) :: r) ∧
    ∃ s : State, s.lates = [] ∧ s.agenda = [] ∧ s.grants = [] :=
  let o : OutWord := ⟨1, (thread []).id, .wake h1 1 2 3, 0x1000, 1, 1, 1, [], 0, [], false, 0, false, [], 0, 0, [], [], none, none⟩
  ⟨⟨{ on (thread []) with lates := [1], outw := [o] }, 1, [], o, rfl, by decide +kernel⟩, ⟨{ base with agenda := [.dispatchCycle] }, _, _, rfl, rfl⟩,
    ⟨{ base with grants := [((thread []).id, some .dispatchCycle)] }, _, _, _, rfl, rfl, rfl⟩, base, rfl, rfl, rfl⟩

theorem witness_register_words : ∃ (i : Instr) (d : Xr) (f : Lane → Word) (s : State) (u : HwUnit) (e : LaneSet),
    binaryResult i = some (d, f) ∧ Ready i s u e ∧ e ≠ 0 :=
  ⟨.add h0 .w8 1 2 3, 1, _, on (thread [(2, 255)]), thread [(2, 255)], 1, rfl, ready (by decide +kernel), by decide +kernel⟩

theorem witness_register_words_x0 : ∃ (i : Instr) (f : Lane → Word) (s : State) (u : HwUnit) (e : LaneSet),
    unaryResult i = some (0, f) ∧ Ready i s u e ∧ e ≠ 0 :=
  ⟨.li h0 0 5, _, on (thread []), thread [], 1, rfl, ready (by decide +kernel), by decide +kernel⟩

theorem witness_pattern_words : ∃ (i : Instr) (d : Xr) (f : Lane → Word) (s : State) (u : HwUnit) (e : LaneSet),
    patternResult i = some (d, f) ∧ Ready i s u e ∧ e ≠ 0 :=
  ⟨.fmin h0 .f32 false 1 2 3, 1, _, on (teamOf 4 0 []), teamOf 4 0 [], 15, rfl, ready (by decide +kernel), by decide +kernel⟩

theorem witness_predicate_words : ∃ (i : Instr) (d : Pr) (f : Lane → Bool) (s : State) (u : HwUnit) (e : LaneSet),
    predicateResult i = some (d, f) ∧ Ready i s u e ∧ e ≠ 0 :=
  ⟨.cmp h0 .ltu .w64 2 4 5 0, 2, _, on (thread [(5, 1)]), thread [(5, 1)], 1, rfl, ready (by decide +kernel), by decide +kernel⟩

theorem witness_nowhere : ∃ (i : Instr) (s : State) (u : HwUnit), i.isWord = true ∧ (∀ h off, i ≠ .brDiv h off) ∧ (∀ h, i ≠ .join h) ∧ Ready i s u 0 :=
  ⟨.add ⟨1, false, 0⟩ .w64 1 2 3, on (thread []), thread [], rfl, by intros; nofun, by intros; nofun, ready (by decide +kernel)⟩

theorem witness_transfer : ∃ (i : Instr) (off : BitVec 30) (tk : Lane → Bool) (d : Xr) (f : HwUnit → Lane → Word) (s : State) (u : HwUnit) (e T : LaneSet),
    offsetTransfer i = some (off, tk, d, f) ∧ Ready i s u e ∧ e ≠ 0 ∧ (∀ n, T.getLsbD n = (e.getLsbD n && tk (u.lane n))) ∧
    (u.team = false ∨ T = 0 ∨ T = u.active) ∧ (T = 0 ∨ IsCanonical (u.target off)) :=
  ⟨.call h0 5 2, 2, fun _ => true, 5, _, on (thread []), thread [], 1, 1, rfl, ready (by decide +kernel), by decide +kernel, by simp, by decide +kernel,
    by unfold IsCanonical; decide +kernel⟩

theorem witness_register_transfer : ∃ (i : Instr) (a d : Xr) (s : State) (u : HwUnit) (e : LaneSet) (pc : Word), registerTransfer i = some (a, d) ∧ Ready i s u e ∧
    e ≠ 0 ∧ (u.team = false ∨ e = u.active) ∧ (∀ n, e.getLsbD n = true → (u.lane n).X a = pc) ∧ pc.extractLsb' 0 3 = 0 ∧ IsCanonical pc :=
  ⟨.ret h0 62, 62, 0, on (thread [(62, 0x2000)]), thread [(62, 0x2000)], 1, 0x2000, rfl, ready (by decide +kernel), by decide +kernel, by decide +kernel,
    by intro n; rcases n with _ | n <;> simp; decide +kernel, by decide +kernel, by unfold IsCanonical; decide +kernel⟩

theorem witness_transfer_far : ∃ (s : State) (u : HwUnit) (e : LaneSet) (h : Hdr) (off : BitVec 30), e ≠ 0 ∧ u.status = .running ∧ s.splittable u = false ∧
    u.widx ≠ 0 ∧ Ready (.br h off) s u e ∧ (u.team = false ∨ e = u.active) ∧ ¬IsCanonical (u.target off) :=
  let u := { thread [] with pc := 0xFFFFFFFFFFFFF8 }
  ⟨on u, u, 1, h0, 0x1FFFFFFF, by decide +kernel, by decide +kernel, by decide +kernel, by decide +kernel, ready (by decide +kernel), by decide +kernel,
    by unfold IsCanonical; decide +kernel⟩

theorem witness_transfer_split : ∃ (s : State) (u : HwUnit) (e : LaneSet) (h : Hdr) (off : BitVec 30), e ≠ 0 ∧ u.status = .running ∧ s.splittable u = false ∧
    u.widx ≠ 0 ∧ Ready (.br h off) s u e ∧ u.team = true ∧ e ≠ u.active :=
  let u := { teamOf 4 7 [] with lanes := [laneOf [], { laneOf [] with p := 3 }, laneOf [], laneOf []] }
  ⟨on u, u, 2, ⟨1, false, 0⟩, 2, by decide +kernel, by decide +kernel, by decide +kernel, by decide +kernel, ready (by decide +kernel), by decide +kernel,
    by decide +kernel⟩

theorem witness_transfer_misaligned : ∃ (s : State) (u : HwUnit) (e : LaneSet) (h : Hdr) (a : Xr) (pc : Word), e ≠ 0 ∧ u.status = .running ∧
    s.splittable u = false ∧ u.widx ≠ 0 ∧ Ready (.jmpx h a) s u e ∧ (u.team = false ∨ e = u.active) ∧
    (∀ n, e.getLsbD n = true → (u.lane n).X a = pc) ∧ pc.extractLsb' 0 3 ≠ 0 :=
  ⟨on (thread [(2, 1)]), thread [(2, 1)], 1, h0, 2, 1, by decide +kernel, by decide +kernel, by decide +kernel, by decide +kernel, ready (by decide +kernel),
    by decide +kernel, by intro n; rcases n with _ | n <;> simp; decide +kernel, by decide +kernel⟩

/-- A transfer that is not uniform, in a team that can split; through registers: one that is not uniform, and one that is to no canonical target. -/
theorem witness_transfer_kinds :
    (∃ (u : HwUnit), Ready (.br ⟨1, false, 0⟩ 2) (on u) u 2 ∧ (2 : LaneSet) ≠ u.active ∧ (on u).splittable u = true) ∧
    (∃ (u : HwUnit), Ready (.jmpx ⟨1, false, 0⟩ 2) (on u) u 2 ∧ u.team = true ∧ (on u).splittable u = true ∧
      ∀ pc, ¬((u.team = false ∨ (2 : LaneSet) = u.active) ∧ ∀ n, (2 : LaneSet).getLsbD n = true → (u.lane n).X 2 = pc)) ∧
    ∃ (u : HwUnit) (pc : Word), Ready (.jmpx h0 2) (on u) u 1 ∧ u.team = false ∧ (∀ n, (1 : LaneSet).getLsbD n = true → (u.lane n).X 2 = pc) ∧
      pc.extractLsb' 0 3 = 0 ∧ ¬IsCanonical pc ∧ u.status = .running ∧ (on u).splittable u = false ∧ u.widx ≠ 0 :=
  let u := { teamOf 4 0 [] with lanes := [laneOf [], { laneOf [] with p := 3 }, laneOf [], laneOf []] }
  ⟨⟨u, ready (by decide +kernel), by decide +kernel, by decide +kernel⟩,
    ⟨u, ready (by decide +kernel), rfl, by decide +kernel, fun _ h => h.1.elim (fun h => by cases h) (by decide +kernel)⟩,
    thread [(2, 0x200000000000000)], 0x200000000000000, ready (by decide +kernel), rfl, by intro n; rcases n with _ | n <;> simp; decide +kernel, by decide,
    by unfold IsCanonical; decide +kernel, rfl, by decide +kernel, by decide +kernel⟩

theorem witness_vlen : ∃ (e : Env) (w : Word) (h : Hdr) (d : Xr), decodeWord e w = .ok (.vlen h d) :=
  ⟨⟨false, false, 64⟩, 0x7A00FC0000000000, h0, 63, by decide +kernel⟩

/-- Words without operands that are ready in the thread: NOP, YIELD, JOIN, HALT and SPLIT, and MOVSR, the writes of a special register, and VLEN. -/
theorem witness_plain_words : ∀ i ∈ ([.nop h0, .yield h0, .join h0, .halt h0, .split h0, .movsr h0 1 0x003, .movrs h0 0x010 2, .movrsSet h0 0x014 2,
    .movrsClr h0 0x020 2, .vlen h0 4, .brDiv h0 6] : List Instr), Ready i (on (thread [])) (thread []) 1 := by
  intro i hi
  apply ready
  revert i
  decide +kernel

/-- YIELD in a team: the last word of its clause, and one before the last. -/
theorem witness_yield_team : (∃ u c, Ready (.yield h0) (on u) u 15 ∧ u.team = true ∧ u.after = none ∧ u.clause = some c ∧ c.words.length ≤ u.widx) ∧
    (∃ u c, Ready (.yield h0) (on u) u 15 ∧ u.team = true ∧ u.after = none ∧ u.clause = some c ∧ u.widx < c.words.length) ∧
    ∃ x : HwUnit, x.team = true ∧ x.yieldDue = true :=
  ⟨⟨teamOf 4 0 [], clauseAt, ready (by decide +kernel), rfl, rfl, rfl, by decide +kernel⟩,
    ⟨{ teamOf 4 0 [] with clause := some ⟨0x1000, 0, [0x0A00000000000000, 0x0F00000000000000]⟩ }, _, ready (by decide +kernel), rfl, rfl, rfl, by decide +kernel⟩,
    { teamOf 4 0 [] with yieldDue := true }, rfl, rfl⟩

/-- A team of four lanes, in which no lane, all and some take BR.div. -/
theorem witness_brdiv : ∃ s u, u.stack.length < 32 ∧ u.team = true ∧ Ready (.brDiv ⟨1, false, 0⟩ 6) s u 0 ∧ Ready (.brDiv h0 6) s u u.active ∧
    (∃ v, Ready (.brDiv ⟨1, false, 0⟩ 6) (on v) v 2 ∧ v.team = true ∧ (2 : LaneSet) ≠ v.active) ∧ IsCanonical (u.target 6) :=
  ⟨on (teamOf 4 0 []), teamOf 4 0 [], by decide +kernel, rfl, ready (by decide +kernel), ready (by decide +kernel),
    ⟨{ teamOf 4 0 [] with lanes := [laneOf [], { laneOf [] with p := 3 }, laneOf [], laneOf []] }, ready (by decide +kernel), rfl, by decide +kernel⟩,
    by unfold IsCanonical; decide +kernel⟩

/-- JOIN at an entry in phase 1 with a deferred set, and at one in phase 2. -/
theorem witness_join : ∃ s u v x y, Ready (.join h0) s u 1 ∧ u.stack = [x] ∧ x.two = false ∧ x.m ≠ 0 ∧ Ready (.join h0) (on v) v 1 ∧ v.stack = [y] ∧ y.two = true :=
  let u := { teamOf 4 0 [] with active := 1, stack := [⟨3, 2, 0x1008, false, 0⟩] }
  let v := { teamOf 4 0 [] with active := 1, stack := [⟨3, 2, 0x1008, true, 0x1000⟩] }
  ⟨on u, u, v, ⟨3, 2, 0x1008, false, 0⟩, ⟨3, 2, 0x1008, true, 0x1000⟩, ready (by decide +kernel), rfl, rfl, by decide +kernel, ready (by decide +kernel), rfl, rfl⟩

theorem witness_halt_waits : ∃ u : HwUnit, Ready (.halt h0) (on u) u 1 ∧ u.team = false ∧ u.sbZero = false ∧ u.wait = none :=
  ⟨{ thread [] with sb := #v[1, 0, 0, 0, 0, 0] }, ready (by decide +kernel), rfl, by decide +kernel, rfl⟩

theorem witness_halt_team : ∃ u v : HwUnit, Ready (.halt h0) (on u) u u.active ∧ u.team = true ∧ u.active &&& ~~~u.active = 0 ∧ u.stack = [] ∧
    Ready (.halt ⟨1, false, 0⟩) (on v) v 2 ∧ v.team = true ∧ v.active &&& ~~~(2 : LaneSet) ≠ 0 :=
  ⟨teamOf 4 0 [], { teamOf 4 0 [] with lanes := [laneOf [], { laneOf [] with p := 3 }, laneOf [], laneOf []] }, ready (by decide +kernel), rfl, by decide +kernel, rfl,
    ready (by decide +kernel), rfl, by decide +kernel⟩

theorem witness_split : ∃ u v : HwUnit, Ready (.split h0) (on u) u 15 ∧ (on u).splittable u = true ∧ Ready (.split h0) (on v) v 15 ∧ v.team = true ∧
    (on v).splittable v = false ∧ v.status = .running ∧ v.widx ≠ 0 ∧ v.active ≠ 0 ∧ ∀ n, v.n ≤ n → v.active.getLsbD n = false :=
  ⟨teamOf 4 0 [], teamOf 4 7 [], ready (by decide +kernel), by decide +kernel, ready (by decide +kernel), rfl, by decide +kernel, rfl, by decide +kernel, by decide +kernel, by
    intro n hn
    have : (teamOf 4 7 []).active = 15 := by decide +kernel
    have h4 : 4 ≤ n := hn
    rw [this, show (15 : LaneSet) = BitVec.ofNat 1024 15 from rfl, BitVec.getLsbD_ofNat, Nat.testBit_lt_two_pow (lt_of_lt_of_le (by decide) (Nat.pow_le_pow_right (by decide) h4) : 15 < 2 ^ n),
      Bool.and_false]⟩

theorem witness_special_registers : ∃ (s : State) (u : HwUnit), s.unit? u.id = some u ∧ u.cluster < s.clusters.length ∧ u.cluster < 160 :=
  ⟨on (thread []), thread [], by decide +kernel⟩

/-! ### Witnesses: floating point, vectors and memory -/

/-- A condition on the executing lanes of a thread is one on lane 0. -/
theorem only0 {P : Nat → Prop} (h : P 0) : ∀ n, (1 : LaneSet).getLsbD n = true → P n := by
  intro n hn
  rcases n with _ | n
  · exact h
  · simp at hn

theorem witness_fixed_fp : ∃ (i : Instr) (w : FpWord) (s : State) (u : HwUnit) (e : LaneSet), fixedFp i = some w ∧ Ready i s u e ∧ e ≠ 0 ∧ w.raising u e = [] :=
  let u := thread [(2, 0x7F800000), (3, 0xFF800000)]
  ⟨.fadd h0 .f32 .dyn false false 1 2 3, _, on u, u, 1, rfl, ready (by decide +kernel), by decide +kernel, by decide +kernel⟩

theorem witness_fixed_fp_trapped : ∃ (i : Instr) (w : FpWord) (s : State) (u : HwUnit) (e : LaneSet), fixedFp i = some w ∧ Ready i s u e ∧ e ≠ 0 ∧
    u.team = false ∧ u.n = 1 ∧ w.raising u e ≠ [] ∧ u.status = .running ∧ u.widx ≠ 0 :=
  let u := { thread [(2, 0x7F800000), (3, 0xFF800000)] with fpstat := 0x11F00 }
  ⟨.fadd h0 .f32 .dyn false false 1 2 3, _, on u, u, 1, rfl, ready (by decide +kernel), by decide +kernel, rfl, rfl, by decide +kernel, rfl, by decide +kernel⟩

theorem witness_later_fp : ∃ (i : Instr) (w : FpWord) (lat : Nat) (s : State) (u : HwUnit) (e : LaneSet), laterFp i = some (w, lat) ∧ Ready i s u e ∧ e ≠ 0 :=
  ⟨.fdiv h1 .f32 .dyn false 1 2 3, _, _, on (thread []), thread [], 1, rfl, ready (by decide +kernel), by decide +kernel⟩

def vthread : HwUnit := { thread [(2, 3)] with v := (Vector.replicate 32 0).set 3 0x7F800000 |>.set 4 0xFF800000 }

theorem witness_element_words : ∃ (i : Instr) (w : VecWord) (s : State) (u : HwUnit) (e : LaneSet), elementWord i = some w ∧ Ready i s u e ∧ e ≠ 0 ∧
    u.trapped (w.events u) = false :=
  ⟨.vfadd h0 .f32 ⟨false, 0, false⟩ .dyn 1 3 (.reg 4), _, on vthread, vthread, 1, rfl, ready (by decide +kernel), by decide +kernel, by decide +kernel⟩

theorem witness_element_words_trapped : ∃ (i : Instr) (w : VecWord) (s : State) (u : HwUnit) (e : LaneSet), elementWord i = some w ∧ Ready i s u e ∧ e ≠ 0 ∧
    u.team = false ∧ u.trapped (w.events u) = true ∧ u.status = .running ∧ u.widx ≠ 0 :=
  let u := { vthread with fpstat := 0x11F00 }
  ⟨.vfadd h0 .f32 ⟨false, 0, false⟩ .dyn 1 3 (.reg 4), _, on u, u, 1, rfl, ready (by decide +kernel), by decide +kernel, rfl, by decide +kernel, rfl, by decide +kernel⟩

theorem witness_vpair : ∃ (a b : VHalf) (s : State) (u : HwUnit) (e : LaneSet), Ready (.vpair a b) s u e ∧ e ≠ 0 ∧ u.trapped ((a.asWord false).events u |||
    (b.asWord true).events { u with seed := if a.draws u then seedSteps ((a.asWord false).elems u).length u.seed else u.seed }) = false :=
  let a : VHalf := ⟨0, 2, 20, 21, 2, 0, false⟩
  ⟨a, { a with vd := 1 }, on vthread, vthread, 1, ready (by decide +kernel), by decide +kernel, by decide +kernel⟩

theorem witness_vector_words : ∀ i ∈ ([.vcompress h0 .i8 true 3 1 2 5, .vscan h1 .i32 ⟨false, 0, false⟩ .dyn 1 2 3] : List Instr),
    Ready i (on vthread) vthread 1 := by
  intro i hi
  apply ready
  revert i
  decide +kernel

theorem witness_reduction : ∃ (i : Instr) (t : Ty) (g : Gov) (d a b : Vr) (c : HwUnit → Comb) (s : State) (u : HwUnit) (e : LaneSet),
    reduction i = some (t, g, d, a, b, c) ∧ Ready i s u e ∧ e ≠ 0 ∧ (t.isInt = true ∨ u.fpstat.extractLsb' 8 5 = 0) :=
  ⟨.vredadd h1 .f32 false 0 .dyn false 1 2 3, _, _, _, _, _, _, on vthread, vthread, 1, rfl, ready (by decide +kernel), by decide +kernel, by decide +kernel⟩

theorem witness_integer_reduction : ∃ (t : Ty) (l : List (Option (BitVec t.bits))), t.isInt = true ∧ l.length = t.elems :=
  ⟨.i64, [none, some 1, none, none, some 2, none, none, none], rfl, rfl⟩

theorem witness_ordered_merge : ∃ (i : Instr) (w : Wd) (kv uns : Bool) (d a b : Vr) (c : Xr) (s : State) (u : HwUnit) (e : LaneSet),
    orderedMerge i = some (w, kv, uns, d, a, b, c) ∧ Ready i s u e ∧ e ≠ 0 :=
  ⟨.vmerge h1 .w64 1 2 3 5, _, _, _, _, _, _, _, on vthread, vthread, 1, rfl, ready (by decide +kernel), by decide +kernel⟩

theorem witness_sorted : ∃ (as bs : List (List Nat)), as.Pairwise (fun x y => sgn (x.headD 0) 8 ≤ sgn (y.headD 0) 8) ∧
    bs.Pairwise (fun x y => sgn (x.headD 0) 8 ≤ sgn (y.headD 0) 8) :=
  ⟨[[255], [1]], [[128], [127]], by decide, by decide⟩

/-! Memory: a thread with an address in X(2), and a line that its L1 owns. -/

def mthread (a : Nat) : HwUnit := thread [(2, a), (3, 7), (4, 128)]

def lineHere : L1Line := ⟨0, 0, 64, ⟨.dev, 64⟩, 0xFFFFFFFF, 0, 0xFFFFFFFF, 0, Vector.replicate 32 0, 0xFF, none, 0⟩

def withLine (u : HwUnit) : State := { on u with l1 := [lineHere] }

theorem witness_memory_words : ∃ (i : Instr) (m : MemReq) (s : State) (u : HwUnit) (e : LaneSet), memoryReq i = some m ∧ Ready i s u e ∧ e ≠ 0 ∧
    ∀ n, e.getLsbD n = true → m.fits (u.lane n) :=
  ⟨.ld h1 .si .cl 0 .w64 1 2 0, _, on (mthread 0x2078), mthread 0x2078, 1, rfl, ready (by decide +kernel), by decide +kernel,
    only0 (by show Fits _ _ _; unfold Fits IsCanonical; decide +kernel)⟩

theorem witness_barinit_fits : ∃ (i : Instr) (m : MemReq) (s : State) (u : HwUnit) (e : LaneSet), memoryReq i = some m ∧ Ready i s u e ∧ e ≠ 0 ∧
    ∀ n, e.getLsbD n = true → m.fits (u.lane n) :=
  ⟨.barinit h1 .si .dv 2 3 0, _, on (mthread 0x2070), mthread 0x2070, 1, rfl, ready (by decide +kernel), by decide +kernel,
    only0 (by show Fits _ _ _ ∧ _; unfold Fits IsCanonical; decide +kernel)⟩

/-- The three ways in which an address of a word does not fit, and a count out of range. -/
theorem witness_memory_words_fault : ∃ (i : Instr) (m : MemReq), memoryReq i = some m ∧ (∀ h rt sp a off, i ≠ .pref h rt sp a off) ∧
    (∃ u, Ready i (on u) u 1 ∧ u.team = false ∧ u.n = 1 ∧ u.status = .running ∧ u.widx ≠ 0 ∧ (m.ea (u.lane 0)).toNat % m.align ≠ 0) ∧
    (∃ u, Ready i (on u) u 1 ∧ u.team = false ∧ u.n = 1 ∧ u.status = .running ∧ u.widx ≠ 0 ∧ (m.ea (u.lane 0)).toNat % m.align = 0 ∧
      32 < (m.ea (u.lane 0)).toNat % 128 / 4 + m.words) ∧
    (∃ u, Ready i (on u) u 1 ∧ u.team = false ∧ u.n = 1 ∧ u.status = .running ∧ u.widx ≠ 0 ∧ (m.ea (u.lane 0)).toNat % m.align = 0 ∧
      (m.ea (u.lane 0)).toNat % 128 / 4 + m.words ≤ 32 ∧ ¬IsCanonical (m.ea (u.lane 0))) :=
  ⟨.ld h1 .si .cl 3 .w32 1 2 0, _, rfl, by intros; nofun,
    ⟨mthread 0x2001, ready (by decide +kernel), rfl, rfl, rfl, by decide +kernel, by decide +kernel⟩,
    ⟨mthread 0x207C, ready (by decide +kernel), rfl, rfl, rfl, by decide +kernel, by decide +kernel, by decide +kernel⟩,
    ⟨mthread 0x200000000000000, ready (by decide +kernel), rfl, rfl, rfl, by decide +kernel, by decide +kernel, by decide +kernel, by
      unfold IsCanonical; decide +kernel⟩⟩

theorem witness_barinit_count : ∃ (h : Hdr) (rt : ReqType) (sc : Scope) (a b : Xr) (off : BitVec 18) (u : HwUnit), Ready (.barinit h rt sc a b off) (on u) u 1 ∧
    u.team = false ∧ u.n = 1 ∧ Fits ((u.lane 0).addr a off) 16 4 ∧ (u.lane 0).X b = 0 :=
  ⟨h1, .si, .dv, 2, 5, 0, mthread 0x2000, ready (by decide +kernel), rfl, rfl, by unfold Fits IsCanonical; decide +kernel, by decide +kernel⟩

theorem witness_vector_memory : ∃ (i : Instr) (w : Wd) (st : Bool) (g : Gov) (d : Vr) (rt : ReqType) (sc : Scope) (at_ : HwUnit → Nat → Word) (s : State) (u : HwUnit),
    vectorReq i = some (w, st, g, d, rt, sc, at_) ∧ Ready i s u 1 ∧
    ∀ k, k < 512 / w.bits → g.active u w.bits k = true → (at_ u k).toNat % wdBytes w = 0 ∧ IsCanonical (at_ u k) :=
  ⟨.vld h1 false false .si .cl .w64 1 2 0 0, _, _, _, _, _, _, _, on (mthread 0x2000), mthread 0x2000, rfl, ready (by decide +kernel), by
    unfold IsCanonical; decide +kernel⟩

theorem witness_vector_memory_faults : ∃ (i : Instr) (w : Wd) (st : Bool) (g : Gov) (d : Vr) (rt : ReqType) (sc : Scope) (at_ : HwUnit → Nat → Word),
    vectorReq i = some (w, st, g, d, rt, sc, at_) ∧
    (∃ u, Ready i (on u) u 1 ∧ u.team = false ∧ u.n = 1 ∧ u.status = .running ∧ u.widx ≠ 0 ∧
      ∃ k, k < 512 / w.bits ∧ g.active u w.bits k = true ∧ (at_ u k).toNat % wdBytes w ≠ 0) ∧
    (∃ u, Ready i (on u) u 1 ∧ u.team = false ∧ u.n = 1 ∧ u.status = .running ∧ u.widx ≠ 0 ∧
      (¬∃ k, k < 512 / w.bits ∧ g.active u w.bits k = true ∧ (at_ u k).toNat % wdBytes w ≠ 0) ∧
      ∃ k, k < 512 / w.bits ∧ g.active u w.bits k = true ∧ ¬IsCanonical (at_ u k)) :=
  ⟨.vst h1 false .si .cl .w64 1 2 0 0, _, _, _, _, _, _, _, rfl,
    ⟨mthread 0x2001, ready (by decide +kernel), rfl, rfl, rfl, by decide +kernel, 0, by decide +kernel, by decide +kernel, by decide +kernel⟩,
    ⟨mthread 0x200000000000000, ready (by decide +kernel), rfl, rfl, rfl, by decide +kernel, by
      rintro ⟨k, hk, _, h⟩; revert k; decide +kernel, 0, by decide +kernel, by decide +kernel, by unfold IsCanonical; decide +kernel⟩⟩

theorem owns {u : HwUnit} {ea : Word} {m : Mask} (h : (u.team = false ∧ u.n = 1 ∧ u.w ≤ 1) ∧ (withLine u).lineFor u ea = some lineHere ∧ u.super = true ∧ u.kclass = 0 ∧
    m &&& ~~~lineHere.owned = 0 ∧ m &&& ~~~lineHere.valid = 0) : OwnsLine (withLine u) u ea m lineHere :=
  ⟨⟨h.1.1, h.1.2.1, h.1.2.2, rfl, rfl⟩, h.2.1, h.2.2.2.2.1, h.2.2.2.2.2, rfl, by rw [h.2.2.1]; decide +kernel, ⟨rfl, rfl, rfl, h.2.2.2.1⟩, by
    show ∀ x ∈ [lineHere], _; decide +kernel⟩

theorem witness_load_hit : ∃ (s : State) (u : HwUnit) (l : L1Line), Ready (.ld h1 .si .tm 0 .w64 1 2 0) s u 1 ∧ u.team = false ∧ u.n = 1 ∧ u.w ≤ 1 ∧ s.accs = [] ∧
    s.outw = [] ∧ Fits ((u.lane 0).addr 2 0) 8 (spanLen 0 .w64) ∧ s.l1At (32 * u.cluster + u.pipe) u.asid (((u.lane 0).addr 2 0).toNat % 2 ^ 57 / 128) = some l ∧
    l.poison = 0 ∧ l.perm.getLsbD 1 = true ∧ u.super = true ∧ spanBits ((u.lane 0).addr 2 0) (spanLen 0 .w64) &&& ~~~l.valid = 0 :=
  ⟨withLine (mthread 0x2078), mthread 0x2078, lineHere, ready (by decide +kernel), rfl, rfl, by decide, rfl, rfl, by unfold Fits IsCanonical; decide +kernel,
    by decide +kernel, rfl, by decide, rfl, by decide +kernel⟩

theorem witness_owned_store : ∃ (s : State) (u : HwUnit) (l : L1Line), Ready (.st h1 .ow .cl 0 .w64 3 2 0) s u 1 ∧
    Fits ((u.lane 0).addr 2 0) (wdBytes .w64) (spanLen 0 .w64) ∧ OwnsLine s u ((u.lane 0).addr 2 0) (spanBits ((u.lane 0).addr 2 0) 2) l :=
  ⟨withLine (mthread 0x2078), mthread 0x2078, lineHere, ready (by decide +kernel), by unfold Fits IsCanonical; decide +kernel, owns (by decide +kernel)⟩

theorem witness_owned_step : ∃ (i : Instr) (q : MemReq) (s : State) (u : HwUnit) (l : L1Line), memoryReq i = some q ∧ Ready i s u 1 ∧
    (q.acc u s.ids 0).kind.atomic = true ∧ (q.acc u s.ids 0).kind ≠ .cond ∧ (q.acc u s.ids 0).rt = .ow ∧ q.fits (u.lane 0) ∧
    OwnsLine s u (q.ea (u.lane 0)) (q.acc u s.ids 0).mask l :=
  ⟨.amoadd h1 .ow .cl .w64 1 2 3 0, _, withLine (mthread 0x2078), mthread 0x2078, lineHere, rfl, ready (by decide +kernel), by decide +kernel, by decide +kernel,
    rfl, by show Fits _ _ _; unfold Fits IsCanonical; decide +kernel, owns (by decide +kernel)⟩

/-- An arrival at a barrier whose remain is 0, as a freshly zeroed object is, faults; a step of it does not. -/
theorem witness_owned_step_fault : ∃ (i : Instr) (q : MemReq) (s : State) (u : HwUnit) (l : L1Line), memoryReq i = some q ∧ Ready i s u 1 ∧
    (q.acc u s.ids 0).kind.atomic = true ∧ (q.acc u s.ids 0).rt = .ow ∧ q.fits (u.lane 0) ∧ OwnsLine s u (q.ea (u.lane 0)) (q.acc u s.ids 0).mask l ∧
    ((q.acc u s.ids 0).step (datumOf l.words ((q.ea (u.lane 0)).toNat % 128) 16)).fault ≠ 0 :=
  ⟨.bararr h1 .ow .dv 1 2 3 0, _, withLine (mthread 0x2070), mthread 0x2070, lineHere, rfl, ready (by decide +kernel), by decide +kernel,
    rfl, by show Fits _ _ _; unfold Fits IsCanonical; decide +kernel, owns (by decide +kernel), by decide +kernel⟩

theorem witness_amo_step : ∃ (a : Acc) (w : Wd) (b c : BitVec w.bits), a.kind = .amo .cas ∧ a.n = wdBytes w ∧ a.arg = b.toNat ∧ a.cmp = c.toNat :=
  ⟨{ (mthread 0).access 0 (.amo .cas) .ow .cl .none 0x2000 1 1 with arg := 255, cmp := 128 }, .w8, 255, 128, rfl, rfl, rfl, rfl⟩

theorem witness_barrier_steps : ∀ k ∈ ([.arr, .exp, .dec, .wait, .test, .init] : List BarOp), ∃ a : Acc, a.kind = .bar k ∧ a.arg < 2 ^ 15 ∧
    ∃ ph rm pd ct, ph < 2 ∧ rm < 2 ^ 15 ∧ pd < 2 ^ 48 ∧ ct < 2 ^ 15 ∧ rm = 1 ∧ (pd + a.arg) % 2 ^ 48 = 0 :=
  fun k _ => ⟨{ (mthread 0).access 0 (.bar k) .ow .cl .none 0x2000 16 15 with arg := 1 }, rfl, by show 1 < 2 ^ 15; decide, 1, 1, 2 ^ 48 - 1, 1, by show _ ∧ _ ∧ _ ∧ _ ∧ _ ∧ (2 ^ 48 - 1 + 1) % 2 ^ 48 = 0; decide⟩

theorem witness_lock : ∃ (s : State) (u : HwUnit) (l : L1Line), Ready (.ldlk h1 .ow .cl 1 .w32 1 2 0) s u 1 ∧ Fits ((u.lane 0).addr 2 0) 4 (spanLen 1 .w32) ∧
    OwnsLine s u ((u.lane 0).addr 2 0) (spanBits ((u.lane 0).addr 2 0) (spanLen 1 .w32)) l ∧ u.lanes.length = 1 :=
  ⟨withLine (mthread 0x2078), mthread 0x2078, lineHere, ready (by decide +kernel), by unfold Fits IsCanonical; decide +kernel, owns (by decide +kernel), rfl⟩

/-- STCK within a reservation of its thread, and with one that covers other words only. -/
theorem witness_stck : ∃ (u v : HwUnit) (l : L1Line), Ready (.stck h1 .ow .cl .w32 1 3 2 0) (withLine u) u 1 ∧ Fits ((u.lane 0).addr 2 0) 4 1 ∧
    OwnsLine (withLine u) u ((u.lane 0).addr 2 0) (spanBits ((u.lane 0).addr 2 0) 1) l ∧ u.lanes.length = 1 ∧
    (∃ r, (u.lane 0).resv = some r ∧ r.pf = l.pf ∧ spanBits ((u.lane 0).addr 2 0) 1 &&& ~~~r.mask = 0) ∧ Ready (.stck h1 .ow .cl .w32 1 3 2 0) (withLine v) v 1 ∧
    OwnsLine (withLine v) v ((v.lane 0).addr 2 0) (spanBits ((v.lane 0).addr 2 0) 1) l ∧
    ∀ r, (v.lane 0).resv = some r → r.pf ≠ l.pf ∨ spanBits ((v.lane 0).addr 2 0) 1 &&& ~~~r.mask ≠ 0 :=
  let r : Resv := ⟨⟨.dev, 64⟩, 0xC0000000, .l1 0, 99, 1⟩
  let u := { mthread 0x2078 with lanes := (mthread 0x2078).lanes.map (fun l => { l with resv := some r }) }
  let v := { mthread 0x2078 with lanes := (mthread 0x2078).lanes.map (fun l => { l with resv := some { r with mask := 1 } }) }
  ⟨u, v, lineHere, ready (by decide +kernel), by unfold Fits IsCanonical; decide +kernel, owns (by decide +kernel), by decide +kernel, ⟨r, by decide +kernel⟩,
    ready (by decide +kernel), owns (by decide +kernel), by
      have h : (v.lane 0).resv = some { r with mask := 1 } := by decide +kernel
      intro q hq
      rw [h] at hq; cases hq
      exact Or.inr (by decide +kernel)⟩

theorem witness_barwait : ∃ (u v : HwUnit), Ready (.barwait h0 .si .dv 2 3 0) (on u) u 1 ∧ Fits ((u.lane 0).addr 2 0) 16 4 ∧ (1 : LaneSet) &&& ~~~u.done ≠ 0 ∧
    u.wait = none ∧ Ready (.barwait h0 .si .dv 2 3 0) (on v) v 1 ∧ (1 : LaneSet) &&& ~~~v.done = 0 :=
  ⟨mthread 0x2000, { mthread 0x2000 with done := 1 }, ready (by decide +kernel), by unfold Fits IsCanonical; decide +kernel, by decide +kernel, rfl,
    ready (by decide +kernel), by decide +kernel⟩

/-- PINW of one frame with a quota of one, and the same with none; UNPINW. -/
theorem witness_pinw : ∃ (s : State) (u : HwUnit), Ready (.pinw h1 1 2 4 0) s u 1 ∧ ((u.lane 0).addr 2 0).toNat % 128 = 0 ∧ ((u.lane 0).X 4).toNat = 128 ∧
    IsCanonical ((u.lane 0).addr 2 0) ∧ s.stopes = [] ∧ (s.ctxDw u.ctx 1).2.stopes = [] ∧ (s.ctxDw u.ctx 1).2.unit? u.id = some u ∧ (s.ctxDw u.ctx 1).1 = 1 ∧
    (∀ k, k < 80 → pinsIn [⟨0, 0, 0, 0x2000, 1, 255, false⟩] 0 k ≤ 19660) ∧ ((on u).ctxDw u.ctx 1).1 = 0 :=
  ⟨{ on (mthread 0x2000) with mem := [(8, 1)] }, mthread 0x2000, ready (by decide +kernel), by decide +kernel, by decide +kernel, by unfold IsCanonical; decide +kernel,
    rfl, by decide +kernel, by decide +kernel, by decide +kernel, fun k _ => by
      simp only [pinsIn, List.filter, beq_self_eq_true, List.map, List.sum_cons, List.sum_nil]
      exact le_trans (Nat.add_le_add_right (List.length_filter_le _ _) 0) (by decide), by decide +kernel⟩

theorem witness_unpinw : ∃ (s : State) (u : HwUnit), Ready (.unpinw h1 1 2 0) s u 1 ∧ IsCanonical ((u.lane 0).addr 2 0) :=
  ⟨on (mthread 0x2000), mthread 0x2000, ready (by decide +kernel), by unfold IsCanonical; decide +kernel⟩

/-! ### Witnesses: the scratchpad and the queues -/

def bankOf (u : HwUnit) (c : Cluster) : State := { on u with clusters := [c] }
def oneAlloc : Cluster := { Cluster.reset with allocs := [⟨4096, 1, true, ⟨0, 0, 0, false, 0⟩, 0⟩] }
def sthread (a n : Nat) : HwUnit := thread [(2, a), (3, n), (4, 4096)]

theorem alone {u : HwUnit} {c : Cluster} (h : (u.team = false ∧ u.n = 1 ∧ u.done = 0) ∧ c.spadBad = [] ∧ u.cluster = 0) : AloneAtBank (bankOf u c) u :=
  ⟨h.1, rfl, by show ∀ x ∈ ([] : List L1Line), _; simp, by rw [h.2.2]; exact Nat.zero_lt_one, by rw [h.2.2]; exact h.2.1⟩

/-- The last word of an allocation is stored and filled: its bit is as the word waits for it. -/
theorem witness_spad : ∃ (i : Instr) (q : SpadReq) (s : State) (u : HwUnit), spadReq i = some q ∧ Ready i s u 1 ∧ AloneAtBank s u ∧
    (q.ea (u.lane 0)).toNat = 8188 ∧ q.n (u.lane 0) = 4 ∧ (∀ k, k < 4 → s.mayUse u (8188 + k)) ∧ 8188 % q.align = 0 ∧ q.wait = some false ∧
    ∀ w, touches 8188 4 w → (s.cluster u.cluster).full.contains w = false :=
  ⟨.stsf h1 .w32 3 2 0, _, bankOf (sthread 8188 0) oneAlloc, sthread 8188 0, rfl, ready (by decide +kernel), alone (by decide +kernel), by decide +kernel, rfl, by
    unfold State.mayUse; decide +kernel, by decide, rfl, fun w _ => rfl⟩

/-- An empty run of bits, which names no byte at all. -/
theorem witness_spad_run : ∃ (i : Instr) (q : SpadReq) (s : State) (u : HwUnit), spadReq i = some q ∧ Ready i s u 1 ∧ AloneAtBank s u ∧
    q.n (u.lane 0) = 0 ∧ q.wait = none :=
  ⟨.feopf h1 2 3, _, bankOf (sthread 0x200000 0) oneAlloc, sthread 0x200000 0, rfl, ready (by decide +kernel), alone (by decide +kernel), by decide +kernel, rfl⟩

/-- The checks: bytes of nobody, a misaligned address; of a run, a misaligned address, a count too large, and a run that leaves its allocation. -/
theorem witness_spad_checks :
    (∃ (q : SpadReq) (u : HwUnit), spadReq (.lds h1 .w32 1 2 0) = some q ∧ Ready (.lds h1 .w32 1 2 0) (bankOf u oneAlloc) u 1 ∧
      AloneAtBank (bankOf u oneAlloc) u ∧ u.status = .running ∧ u.widx ≠ 0 ∧ (q.ea (u.lane 0)).toNat = 8192 ∧ ¬(bankOf u oneAlloc).mayUse u 8192) ∧
    (∃ (q : SpadReq) (u : HwUnit), spadReq (.lds h1 .w32 1 2 0) = some q ∧ Ready (.lds h1 .w32 1 2 0) (bankOf u oneAlloc) u 1 ∧
      AloneAtBank (bankOf u oneAlloc) u ∧ (q.ea (u.lane 0)).toNat = 4098 ∧ q.n (u.lane 0) = 4 ∧ q.align = 4 ∧
      ∀ k, k < 4 → (bankOf u oneAlloc).mayUse u (4098 + k)) ∧
    (∃ u, Ready (.feopf h1 2 3) (bankOf u oneAlloc) u 1 ∧ AloneAtBank (bankOf u oneAlloc) u ∧ ((u.lane 0).X 2).toNat % 4 ≠ 0) ∧
    (∃ u, Ready (.feopf h1 2 3) (bankOf u oneAlloc) u 1 ∧ AloneAtBank (bankOf u oneAlloc) u ∧ ((u.lane 0).X 2).toNat % 4 = 0 ∧ 131072 < 4 * ((u.lane 0).X 3).toNat) ∧
    (∃ u, Ready (.feopf h1 2 3) (bankOf u oneAlloc) u 1 ∧ AloneAtBank (bankOf u oneAlloc) u ∧ ((u.lane 0).X 2).toNat = 8188 ∧ ((u.lane 0).X 3).toNat = 2 ∧
      ¬(bankOf u oneAlloc).mayUse u (8188 + 4 * 1)) :=
  ⟨⟨_, sthread 8192 0, rfl, ready (by decide +kernel), alone (by decide +kernel), rfl, by decide +kernel, by decide +kernel, by unfold State.mayUse; decide +kernel⟩,
    ⟨_, sthread 4098 0, rfl, ready (by decide +kernel), alone (by decide +kernel), by decide +kernel, rfl, rfl, by unfold State.mayUse; decide +kernel⟩,
    ⟨sthread 4097 1, ready (by decide +kernel), alone (by decide +kernel), by decide +kernel⟩,
    ⟨sthread 4096 32769, ready (by decide +kernel), alone (by decide +kernel), by decide +kernel, by decide +kernel⟩,
    ⟨sthread 8188 2, ready (by decide +kernel), alone (by decide +kernel), by decide +kernel, by decide +kernel, by unfold State.mayUse; decide +kernel⟩⟩

/-- A load that waits for a full word finds it empty. -/
theorem witness_spad_waits : ∃ (i : Instr) (q : SpadReq) (s : State) (u : HwUnit), spadReq i = some q ∧ q.wait = some true ∧ Ready i s u 1 ∧ AloneAtBank s u ∧
    u.wait = none ∧ (q.ea (u.lane 0)).toNat = 4096 ∧ q.n (u.lane 0) = 8 ∧ 4096 % q.align = 0 ∧ (∀ k, k < 8 → s.mayUse u (4096 + k)) ∧
    touches 4096 8 1025 ∧ (s.cluster u.cluster).full.contains 1025 = false :=
  ⟨.ldse h1 .w64 1 2 0, _, bankOf (sthread 4096 0) { oneAlloc with full := [1024] }, sthread 4096 0, rfl, rfl, ready (by decide +kernel), alone (by decide +kernel), rfl,
    by decide +kernel, rfl, by decide, by unfold State.mayUse; decide +kernel, by unfold touches; decide, by decide +kernel⟩

/-- SALLOC: the whole of an empty bank at once; a scratchpad without a free unit; a size of 0. -/
theorem witness_salloc : ∃ (u v w : HwUnit) (c d : Cluster), Ready (.salloc h1 1 1 2) (bankOf u c) u 1 ∧ (u.lane 0).X 2 = 131072 ∧ c.hasRun 131072 32 0 ∧
    Ready (.salloc h1 1 1 2) (bankOf v d) v 1 ∧ (v.lane 0).X 2 = 1 ∧ (∀ k, ¬d.hasRun 1 1 k) ∧
    Ready (.salloc h1 1 1 2) (bankOf w c) w 1 ∧ (w.lane 0).X 2 = 0 ∧ w.team = false ∧ w.status = .running ∧ w.widx ≠ 0 :=
  ⟨sthread 131072 0, sthread 1 0, sthread 0 0, Cluster.reset, { Cluster.reset with allocs := [⟨0, 512, true, ⟨0, 0, 0, false, 0⟩, 0⟩] }, ready (by decide +kernel), by decide +kernel,
    ⟨by decide, by decide, by decide, fun j _ _ x hx => by cases hx⟩, ready (by decide +kernel), by decide +kernel, fun k h => by
      have := h.2.2.2 k (Nat.le_refl k) (Nat.lt_succ_self k) _ (List.mem_singleton.mpr rfl)
      have h0 := h.1
      simp only [Nat.zero_div, Nat.not_lt_zero, false_or] at this
      omega, ready (by decide +kernel), by decide +kernel, rfl, rfl, by decide +kernel⟩

/-- SFREE of an own allocation and of none; SFMT of legal and illegal values. -/
theorem witness_sfree_sfmt : (∃ u, Ready (.sfree h1 2) (bankOf u oneAlloc) u 1 ∧ ∃ x ∈ oneAlloc.allocs, x.live = true ∧ x.base = ((u.lane 0).X 2).toNat ∧ x.owner = u.id) ∧
    (∃ u, Ready (.sfree h1 2) (bankOf u oneAlloc) u 1 ∧ (∀ x ∈ oneAlloc.allocs, x.base ≠ ((u.lane 0).X 2).toNat) ∧ u.team = false ∧ u.widx ≠ 0) ∧
    (∃ u, Ready (.sfmtWrite h1 15 2) (on u) u 1 ∧ ((u.lane 0).X 2).toNat = 0x49 ∧ u.super = true) ∧
    (∃ u, Ready (.sfmtWrite h1 15 2) (on u) u 1 ∧ ((u.lane 0).X 2).toNat = 0x4A ∧ u.team = false ∧ u.status = .running) ∧
    ∃ u, Ready (.sfmtRead h1 1 15) (on u) u 1 :=
  ⟨⟨sthread 4096 0, ready (by decide +kernel), by decide +kernel⟩, ⟨sthread 0 0, ready (by decide +kernel), by decide +kernel, rfl, by decide +kernel⟩,
    ⟨sthread 0x49 0, ready (by decide +kernel), by decide +kernel, rfl⟩, ⟨sthread 0x4A 0, ready (by decide +kernel), by decide +kernel, rfl, rfl⟩,
    ⟨sthread 0 0, ready (by decide +kernel)⟩⟩

/-! A team that cannot split, with a queue register. -/

def qteam (r : QReg) : HwUnit := { teamOf 4 7 [(2, 5)] with q := (Vector.replicate 16 QReg.reset).set 1 r }

def fresh1 : QReg := QReg.reset
def cmdQ (l : List (Word × Nat)) : QReg := { QReg.reset with bound := some 0, ents := l }
def resQ (l : List (Word × Nat)) : QReg := { QReg.reset with bound := some 0x10, ents := l }
def entry : Word × Nat := (1, 0)

/-- Each queue word where it acts, where it waits, and where it faults. -/
theorem witness_queue_words : ∀ p ∈ ([(.qbind h1 1 3, fresh1), (.qbindOff h1 1, cmdQ []), (.qpush h1 1 2 true 1, cmdQ (List.replicate 7 entry)), (.qpop h1 1 1 true 1, resQ [entry]),
    (.qpeek h1 1 1 false 0, resQ [entry]), (.qstat h1 1 1, resQ []), (.qdrain h1 1, resQ []), (.qdrainAbort h1 1, cmdQ []), (.qpush h1 1 2 false 0, cmdQ (List.replicate 8 entry)),
    (.qpush h1 1 2 true 1, cmdQ (List.replicate 8 entry)), (.qpop h1 1 1 false 0, resQ []), (.qpop h1 1 1 true 1, resQ []), (.qpeek h1 1 1 false 0, resQ []), (.qpeek h1 1 1 true 1, resQ []), (.qdrain h1 1, { cmdQ [] with infl := 1 }),
    (.qdrainAbort h1 1, { cmdQ [entry] with infl := 1 }),
    (.qbind h1 1 0, cmdQ []), (.qbindOff h1 1, cmdQ [entry]), (.qpush h1 1 2 false 0, resQ []), (.qpop h1 1 1 false 0, cmdQ []), (.qpeek h1 1 1 false 0, fresh1),
    (.qdrain h1 1, fresh1), (.qdrainAbort h1 1, fresh1)] : List (Instr × QReg)), Ready p.1 (on (qteam p.2)) (qteam p.2) 15 := by
  intro p hp
  apply ready
  revert p
  decide +kernel

theorem witness_queue_conditions : (resQ []).holds .drained = true ∧ (cmdQ []).holds .aborted = true ∧ { cmdQ [] with infl := 1 }.holds .drained = false ∧
    { cmdQ [entry] with infl := 1 }.holds .aborted = false ∧ (on (qteam (resQ [entry]))).noDirtyL1 ∧
    (∀ r ∈ [fresh1, cmdQ [], cmdQ [entry], resQ []], Whole (on (qteam r)) (qteam r)) ∧ (qteam fresh1).wait = none :=
  ⟨by decide +kernel, by decide +kernel, by decide +kernel, by decide +kernel, by unfold State.noDirtyL1; decide +kernel, by unfold Whole; decide +kernel, rfl⟩

/-! ### Witnesses: channels, engines, groups, and units that come and go -/

/-- A context whose pools hold one thread area and one team area. -/
def ctxMem : List Host.Cell := [(18, 1), (24, 1), (28, 1), (34, 2)]

theorem uncached {s : State} (h : s.l1 = [] ∧ s.l2 = [] ∧ s.wbufs = [] ∧ s.dir = [] ∧ s.errs = [] ∧ s.poison = []) : Uncached s :=
  ⟨h.1, h.2.1, h.2.2.1, h.2.2.2.1, h.2.2.2.2.1, h.2.2.2.2.2⟩

/-- An operand slot that a team holds. -/
def slot (n : Nat) (owner : UKey) : Tile := ⟨n, owner, 0, [], [], 0, false, false, 0, []⟩

/-- Where no granule is FULL there is no hole. -/
theorem solid {s : State} (h : s.classes = []) (lo n : Nat) : s.solid lo n := by
  intro a _ _
  simp [State.hole, State.cls, h]

/-- A team with a FILL of sixteen bytes in its queue 1, bound to port 0. -/
def fillHead : Word := BitVec.ofNat 64 (4 * 2 ^ 60 + cmdWords 4 * 2 ^ 58 + 2 ^ 44 + 16)
def offering : HwUnit := qteam { QReg.reset with bound := some 0, ents := [(fillHead, 0), (4096, 0), (0xAB, 0)] }

theorem witness_channel_accept : ∃ (s : State) (x : Chan) (u : HwUnit) (ws : List (Word × Nat)) (r : List (HwUnit × Nat × List (Word × Nat))), s.accs = [] ∧
    s.noDirtyL1 ∧ 0 < s.clusters.length ∧ (s.cluster 0).chans[0]? = some x ∧ x.cmds = [] ∧ s.offersOf 0 0 = (u, 1, ws) :: r ∧ s.unit? u.id = some u ∧
    (((ws.headD (0, 0)).1).extractLsb' 60 4).toNat ≤ 9 ∧ ((ws.headD (0, 0)).1).getLsbD 54 = false :=
  ⟨on offering, ⟨none, []⟩, offering, [(fillHead, 0), (4096, 0), (0xAB, 0)], [], rfl, by unfold State.noDirtyL1; decide +kernel, by decide +kernel, by decide +kernel,
    rfl, by decide +kernel, by decide +kernel, by decide +kernel, by decide +kernel⟩

/-- A channel of cluster 0 with that FILL in hand, landing, and landed. -/
def fillCmd (stage : Nat) : Cmd := ⟨1, 0, offering.id, 1, [fillHead, 4096, 0xAB], 0, true, 0, 0, false, [(0, 4096, 1)], [], [], [], [], 0, 0, stage⟩
def filling (stage : Nat) : State := { on offering with clusters := [{ oneAlloc with chans := [⟨none, [fillCmd stage]⟩] }] }

theorem witness_in_hand : ∃ (s : State) (k : Cmd) (u : HwUnit), InHand s 0 k u ∧ k.code = 4 ∧ k.stage = 2 ∧ k.status = 0 ∧ k.pois = [] ∧ k.ds = 1 ∧
    k.team.cluster < s.clusters.length ∧ (k.word 1).toNat = 4096 ∧ k.fld 0 32 = 16 ∧ ∀ i, i < 16 → ∃ x ∈ k.areas, x.1 = 0 ∧ x.2.1 ≤ 4096 + i ∧ 4096 + i < x.2.1 + 4096 * x.2.2 :=
  ⟨filling 2, fillCmd 2, offering, ⟨by decide +kernel, by decide +kernel, by decide +kernel, rfl, by decide +kernel⟩, by decide +kernel, rfl, rfl, rfl, by decide +kernel, by decide +kernel,
    by decide +kernel, by decide +kernel, by decide +kernel⟩

theorem witness_in_hand_landed : ∃ (s : State) (k : Cmd) (u : HwUnit), InHand s 0 k u ∧ k.code ≤ 9 ∧ k.code ≤ 7 ∧ k.stage = 3 ∧ k.status = 0 ∧ k.pois = [] ∧ k.bd = false :=
  ⟨filling 3, fillCmd 3, offering, ⟨by decide +kernel, by decide +kernel, by decide +kernel, rfl, by decide +kernel⟩, by decide +kernel, by decide +kernel, rfl, rfl, rfl, by decide +kernel⟩

/-- Other commands in hand: a COPY of eight bytes that has read its source, a FLAGSET that stores and one that adds, a BARDEC that binds. -/
def handing (u : HwUnit) (k : Cmd) : State := { on u with clusters := [{ oneAlloc with chans := [⟨none, [k]⟩], tiles := [{ slot 0 u.id with busy := true }] }] }
def cmdOf (code words : Nat) (rest : Nat) (args : List Word) : Cmd :=
  { fillCmd 0 with words := BitVec.ofNat 64 (code * 2 ^ 60 + words * 2 ^ 58 + rest) :: args }
def copyCmd : Cmd := { cmdOf 0 2 (2 ^ 46 + 2 ^ 44 + 8) [4096, 4104] with stage := 2, src := (List.range 8).map (fun i => (2 ^ 64 + 4096 + i, BitVec.ofNat 8 i, false)) }

theorem inHand (k : Cmd) (h : ((handing offering k).cluster 0).cmd? k.id = some k ∧ (∃ x, ((handing offering k).cluster 0).chans[k.ch]? = some x ∧ x.cmds.head? = some k) ∧
    (∀ k' ∈ ((handing offering k).cluster 0).chans.flatMap (·.cmds), k'.id = k.id → k' = k) ∧ k.team = offering.id ∧ k.q < 16 ∧ k.rq < 16) :
    InHand (handing offering k) 0 k offering := by
  obtain ⟨h1, h2, h3, h4, h5, h6⟩ := h
  exact ⟨⟨Nat.zero_lt_one, h1⟩, h2, h3, rfl, by rw [h4]; simp [handing, on, State.unit?], h4.symm, rfl, rfl, rfl, h5, h6⟩

theorem witness_moved_bytes : ∃ (s : State) (k : Cmd) (u : HwUnit) (ms : List Move), InHand s 0 k u ∧ k.code ≤ 7 ∧ k.code ≠ 4 ∧ k.stage = 2 ∧ k.status = 0 ∧ k.pois = [] ∧
    k.moves k.idx = some ms ∧ k.team.cluster < s.clusters.length ∧ ms.flatMap (fun m => m.bytes k) ≠ [] ∧
    ∀ x ∈ ms.flatMap (fun m => m.bytes k), keyHi x.1 = k.team.cluster + 1 ∧ k.mayUse x.1 = true :=
  ⟨handing offering copyCmd, copyCmd, offering, [⟨⟨1, 0, 4096⟩, 0, ⟨1, 0, 4104⟩, 0, 8, none⟩], inHand _ (by decide +kernel), by decide +kernel, by decide +kernel, rfl, rfl, rfl,
    by decide +kernel, by decide +kernel, by decide +kernel, by decide +kernel⟩

theorem witness_flagset : ∀ op ∈ ([0, 2 ^ 36, 2 ^ 38] : List Nat), let k := cmdOf 8 2 (2 ^ 44 + op) [4096, 5]
    InHand (handing offering k) 0 k offering ∧ k.code = 8 ∧ k.stage = 0 ∧ k.status = 0 ∧ k.headOk = true ∧ k.argsOk = true ∧ k.feOk [] = true ∧ k.bd = false ∧ k.pois = [] ∧
      ((handing offering k).cluster 0).chans.flatMap (·.cmds) = [k] ∧ k.loc 1 true = some ⟨1, 0, 4096⟩ ∧ (List.range 8).all (fun i => k.mayUse ((⟨1, 0, 4096⟩ : Loc).key i)) = true := by
  intro op ho k
  have h : ∀ op ∈ ([0, 2 ^ 36, 2 ^ 38] : List Nat), let k := cmdOf 8 2 (2 ^ 44 + op) [4096, 5]
      (((handing offering k).cluster 0).cmd? k.id = some k ∧ (∃ x, ((handing offering k).cluster 0).chans[k.ch]? = some x ∧ x.cmds.head? = some k) ∧
        (∀ k' ∈ ((handing offering k).cluster 0).chans.flatMap (·.cmds), k'.id = k.id → k' = k) ∧ k.team = offering.id ∧ k.q < 16 ∧ k.rq < 16) ∧
      k.code = 8 ∧ k.stage = 0 ∧ k.status = 0 ∧ k.headOk = true ∧ k.argsOk = true ∧ k.feOk [] = true ∧ k.bd = false ∧ k.pois = [] ∧
      ((handing offering k).cluster 0).chans.flatMap (·.cmds) = [k] ∧ k.loc 1 true = some ⟨1, 0, 4096⟩ ∧
      (List.range 8).all (fun i => k.mayUse ((⟨1, 0, 4096⟩ : Loc).key i)) = true := by decide +kernel
  exact ⟨inHand k (h op ho).1, (h op ho).2⟩

theorem witness_bardec : let k := cmdOf 9 1 (2 ^ 39) [0x2000]
    InHand (handing offering k) 0 k offering ∧ k.code = 9 ∧ k.stage = 0 ∧ k.status = 0 ∧ k.headOk = true ∧ k.argsOk = true ∧ k.feOk [] = true ∧ k.bd = false ∧ k.pois = [] ∧
      k.head.getLsbD 39 = true ∧ k.head.getLsbD 38 = false :=
  ⟨inHand _ (by decide +kernel), by decide +kernel⟩

/-- Commands at their end: a TILELD and a TILEST of the team's slot 0, with a reserved entry; a FLAGSET and a BARDEC. -/
theorem witness_command_ends : ∀ p ∈ ([(6, 3, 3), (7, 2, 3), (8, 2, 3), (9, 1, 4)] : List (Nat × Nat × Nat)), let k := { cmdOf p.1 p.2.1 (2 ^ 54) [4096, 0, 0] with stage := p.2.2, resv := true }
    InHand (handing offering k) 0 k offering ∧ k.code ≤ 9 ∧ (if k.code ≤ 7 then k.stage = 3 else k.stage ≠ 0) ∧ k.status = 0 ∧ k.pois = [] ∧ k.bd = false ∧ k.slot = 0 ∧
      k.team = offering.id := by
  intro p hp k
  have h : ∀ p ∈ ([(6, 3, 3), (7, 2, 3), (8, 2, 3), (9, 1, 4)] : List (Nat × Nat × Nat)), let k := { cmdOf p.1 p.2.1 (2 ^ 54) [4096, 0, 0] with stage := p.2.2, resv := true }
      (((handing offering k).cluster 0).cmd? k.id = some k ∧ (∃ x, ((handing offering k).cluster 0).chans[k.ch]? = some x ∧ x.cmds.head? = some k) ∧
        (∀ k' ∈ ((handing offering k).cluster 0).chans.flatMap (·.cmds), k'.id = k.id → k' = k) ∧ k.team = offering.id ∧ k.q < 16 ∧ k.rq < 16) ∧
      k.code ≤ 9 ∧ (if k.code ≤ 7 then k.stage = 3 else k.stage ≠ 0) ∧ k.status = 0 ∧ k.pois = [] ∧ k.bd = false ∧ k.slot = 0 ∧ k.team = offering.id := by decide +kernel
  exact ⟨inHand k (h p hp).1, (h p hp).2⟩

/-! A team of a harness that holds two operand slots. -/

def engine : Harness := ⟨0, 0, 4, none, 7, none, none, none, 0, none, 0, [], none⟩
def mteam : HwUnit := teamOf 4 7 [(2, 3), (3, 0x401)]
def matrix (u : HwUnit) (h : Harness) (ts : List Tile) : State := { on u with harnesses := [h], clusters := [{ Cluster.reset with tiles := ts }] }
def held2 : List Tile := [slot 0 mteam.id, slot 1 mteam.id]

theorem slotsReady {i : Instr} {u : HwUnit} {e : LaneSet} {h : Harness} {ts : List Tile}
    (H : (∀ n ∈ matrixSlots u i, ((matrix u h ts).tile? u.cluster n).any (fun x => x.owner == u.id && !x.busy) = true) ∧ matrixClash u i = false ∧
      tagRegOk u i e = true ∧ (matrix u h ts).tagFault u i e = none ∧ (matrix u h ts).harness? u.cluster u.pipe = some h ∧ h.engine.length < 4 ∧ u.cluster = 0) :
    SlotsReady i (matrix u h ts) u e := by
  refine ⟨fun n hn => ?_, H.2.1, ⟨H.2.2.1, H.2.2.2.1⟩, ⟨h, H.2.2.2.2.1, H.2.2.2.2.2.1⟩, by rw [H.2.2.2.2.2.2]; exact Nat.zero_lt_one⟩
  have := H.1 n hn
  cases ht : (matrix u h ts).tile? u.cluster n with
  | none => rw [ht] at this; simp at this
  | some x =>
    rw [ht] at this
    simp only [Option.any_some, Bool.and_eq_true, beq_iff_eq, Bool.not_eq_true'] at this
    exact ⟨x, rfl, this⟩

theorem witness_engine_words : ∀ i ∈ ([.tzero h1 0 .lo, .tmov h1 0 1 .whole .whole, .tmovt h1 0 1 .lo .hi] : List Instr),
    isEngineWord i = true ∧ Ready i (matrix mteam engine held2) mteam 15 ∧ SlotsReady i (matrix mteam engine held2) mteam 15 := by
  intro i hi
  have h : ∀ i ∈ ([.tzero h1 0 .lo, .tmov h1 0 1 .whole .whole, .tmovt h1 0 1 .lo .hi] : List Instr), isEngineWord i = true ∧
    ((matrix mteam engine held2).cur = some mteam.id ∧ (matrix mteam engine held2).unit? mteam.id = some mteam ∧ i.wf mteam.env = true ∧
      (i.hdr.sb = 0 ∨ mteam.counter i.hdr.sb ≠ 63) ∧ mteam.bad = [] ∧ mteam.exec i.hdr = 15 ∧ (matrix mteam engine held2).late = none ∧ (matrix mteam engine held2).badSr = []) ∧
    (∀ n ∈ matrixSlots mteam i, ((matrix mteam engine held2).tile? 0 n).any (fun x => x.owner == mteam.id && !x.busy) = true) ∧ matrixClash mteam i = false ∧
      tagRegOk mteam i 15 = true ∧ (matrix mteam engine held2).tagFault mteam i 15 = none ∧ (matrix mteam engine held2).harness? 0 0 = some engine := by
    decide +kernel
  have := h i hi
  exact ⟨this.1, ready this.2.1, slotsReady ⟨this.2.2.1, this.2.2.2.1, this.2.2.2.2.1, this.2.2.2.2.2.1, this.2.2.2.2.2.2, by decide, rfl⟩⟩

/-- A slot that is not held, and a full queue. -/
theorem witness_engine_words_stop : Ready (.tzero h1 2 .whole) (matrix mteam engine held2) mteam 15 ∧
    (∃ n ∈ matrixSlots mteam (.tzero h1 2 .whole), ∀ x, (matrix mteam engine held2).tile? mteam.cluster n = some x → x.owner ≠ mteam.id) ∧
    tagRegOk mteam (.tzero h1 2 .whole) 15 = true ∧ mteam.team = true ∧ mteam.status = .running ∧ mteam.widx ≠ 0 ∧
    let s := matrix mteam { engine with engine := [1, 2, 3, 4] } held2
    Ready (.tzero h1 0 .whole) s mteam 15 ∧ (∀ n ∈ matrixSlots mteam (.tzero h1 0 .whole), s.holds mteam n = true) ∧ s.engineClear mteam (.tzero h1 0 .whole) = false ∧
      mteam.wait = none :=
  ⟨ready (by decide +kernel), by decide +kernel, by decide +kernel, rfl, rfl, by decide +kernel, ready (by decide +kernel), by decide +kernel, by decide +kernel, rfl⟩

/-- TCLAIM of two free slots, and of one that another team holds; TREL of a slot that nothing uses; TGANG of two harnesses, and of none. -/
theorem witness_slots : Ready (.tclaim h1 1 2) (matrix mteam engine []) mteam 15 ∧ ((mteam.lane (topLane 15 4)).X 2) = 3 ∧
    (∀ n, n < 64 → (3 : Word).getLsbD n = true → (matrix mteam engine []).tile? 0 n = none) ∧
    Ready (.tclaim h1 1 2) (matrix mteam engine [slot 0 ⟨0, 4, 0, true, 0⟩]) mteam 15 ∧ (matrix mteam engine [slot 0 ⟨0, 4, 0, true, 0⟩]).tile? 0 0 ≠ none ∧
    (matrix mteam engine [slot 0 ⟨0, 4, 0, true, 0⟩]).holds mteam 0 = false ∧ Ready (.trel h1 2) (matrix mteam engine held2) mteam 15 ∧
    (∀ n, n < 64 → (3 : Word).getLsbD n = true → (matrix mteam engine held2).holds mteam n = true) ∧ (∀ x ∈ held2, x.busy = false ∧ x.inUse = 0) :=
  ⟨ready (by decide +kernel), by decide +kernel, by decide +kernel, ready (by decide +kernel), by decide +kernel, by decide +kernel, ready (by decide +kernel),
    by decide +kernel, by decide +kernel⟩

/-- TREL of slots of which one is in use. -/
theorem witness_trel_used : let ts := [{ slot 0 mteam.id with inUse := 1 }, slot 1 mteam.id]
    Ready (.trel h1 2) (matrix mteam engine ts) mteam 15 ∧ (∀ n, n < 64 → (3 : Word).getLsbD n = true → (matrix mteam engine ts).holds mteam n = true) ∧
      ∃ x ∈ ((matrix mteam engine ts).cluster 0).tiles, (3 : Word).getLsbD x.slot = true ∧ x.owner = mteam.id ∧ x.inUse ≠ 0 :=
  ⟨ready (by decide +kernel), by decide +kernel, by decide +kernel⟩

theorem witness_gang_list : ∃ u v : HwUnit, Ready (.tgang h0 2) (on u) u 15 ∧ (u.lane (topLane 15 4)).X 2 = 0 ∧ Ready (.tgang h0 2) (on v) v 15 ∧
    let g := (v.lane (topLane 15 4)).X 2
    (g.extractLsb' 57 3).toNat = 2 ∧ g.extractLsb' 60 4 = 0 ∧ g.extractLsb' 54 3 = 0 ∧ (∀ k, k < 6 → 2 ≤ k → gangEntry g k = 0) ∧
      (∀ k, k < 2 → gangEntry g k / 8 < 40) ∧ gangEntry g 0 ≠ gangEntry g 1 ∧ gangEntry g 0 = v.gangId :=
  ⟨teamOf 4 7 [], teamOf 4 7 [(2, 2 * 2 ^ 57 + 319 * 512)], ready (by decide +kernel), by decide +kernel, ready (by decide +kernel), by decide +kernel⟩

/-! Two teams of a gang of harnesses 0 and 1 of a die, at TJOIN. -/

def joinWord : Instr := .tjoin h1 .i8 .i8 0 1 2 .lo .lo false
def gangOf (me : Nat) : Word := BitVec.ofNat 64 (2 * 2 ^ 57 + me * 2 ^ 54 + 512)
def member (base me : Nat) : HwUnit :=
  { teamOf 4 7 [] with wait := if me = 0 then none else some ⟨.engine, 0, 0, 0, 0, [], false⟩, id := ⟨0, base, 7, true, 0⟩, pipe := base, gang := gangOf me, clause := (encode joinWord).map (fun w => ⟨0x1000, 0, [w]⟩) }
def latch (l : List (UKey × Nat)) : Latch := ⟨0, 1, 2 * 2 ^ 57 % 2 ^ 54 + 512, 2, joinKey joinWord, 65536, 100, l, []⟩
def ganged (l : List (UKey × Nat)) : State :=
  { matrix (member 0 0) engine [slot 0 (member 0 0).id, slot 1 (member 0 0).id, slot 2 (member 0 0).id] with units := [member 0 0, member 4 1], latches := [latch l] }

theorem witness_gang : ∀ l ∈ ([[], [((member 4 1).id, 0)]] : List (List (UKey × Nat))),
    ((ganged l).cur = some (member 0 0).id ∧ (ganged l).unit? (member 0 0).id = some (member 0 0) ∧ joinWord.wf (member 0 0).env = true ∧
      (member 0 0).exec joinWord.hdr = 15 ∧ (ganged l).late = none ∧ (ganged l).badSr = [] ∧ (member 0 0).bad = [] ∧ (member 0 0).counter 1 ≠ 63) ∧
    (∀ n ∈ matrixSlots (member 0 0) joinWord, (ganged l).holds (member 0 0) n = true) ∧ (member 0 0).wait = none ∧ (member 0 0).waitingWord = some joinWord ∧
    gangN (member 0 0).gang = 2 ∧ gangMe (member 0 0).gang = 0 ∧ gangMe (member 4 1).gang = 1 ∧
    ((ganged l).latches.filter (fun x => x.die == 0)).find? (fun x => x.list_ == (member 0 0).gang.toNat % 2 ^ 54 && x.n == 2) = some (latch l) ∧
    (latch l).key = joinKey joinWord ∧ (∀ x ∈ (ganged l).latches, x = latch l) ∧
    (∀ q ∈ l, q.1.pipe ≠ (member 0 0).pipe ∧ q.1 ≠ (member 0 0).id ∧ (((ganged l).unit? q.1).any (fun v => v.waitingWord.isSome && v.pipe == 4)) = true) ∧
    (∀ x ∈ (ganged l).latches, ∀ q ∈ x.arrived, ((ganged l).unit? q.1).any (fun v => v.wait.any (fun y => y.id == q.2)) = true) := by
  decide +kernel

/-! The engine at work: its word is next, and its last cycle is due. -/

def outw (id : Nat) (i : Instr) (k : UKey) : OutWord := ⟨id, k, i, 0x1000, 1, 1, 1, [], 0, [], false, 0, false, [], 0, 0, [], [], none, none⟩

theorem witness_engine_start : ∃ (s : State) (h : Harness) (o : OutWord), s.harness? 0 0 = some h ∧ h.engCur = none ∧ h.engine = [1] ∧
    s.outw.find? (fun x => x.id == 1) = some o ∧ s.awaitsA o = false ∧ h.width = 4 :=
  ⟨{ matrix mteam { engine with engine := [1] } held2 with outw := [outw 1 (.tzero h1 0 .lo) mteam.id] }, _, _, rfl, rfl, rfl, rfl, rfl, rfl⟩

/-- Last cycles of TZERO, TMOV, TMOVT and an INT8 MMA. -/
theorem witness_engine_last : ∀ i ∈ ([.tzero h1 0 .hi, .tmov h1 0 1 .lo .hi, .tmovt h1 0 1 .whole .whole, .mma h1 .i8 .i8 0 1 2 .lo .lo false] : List Instr),
    let o := outw 1 i mteam.id
    let h := { engine with engCur := some (1, 1) }
    let s : State := { matrix mteam h (slot 2 mteam.id :: held2) with outw := [o] }
    s.harnesses = [h] ∧ h.cluster = 0 ∧ h.base = 4 * 0 ∧ h.engCur = some (o.id, 1) ∧ s.outw.find? (fun x => x.id == o.id) = some o ∧ s.unit? o.unit = some mteam ∧
      o.unit.cluster = 0 ∧ (s.cluster 0).govUsed + h.width ≤ (s.cluster 0).govLimit ∧ s.engineBad o = false ∧ (s.tile? 0 1).isSome = true ∧ (s.tile? 0 2).isSome = true := by
  decide +kernel

theorem witness_gang_timeout : ∃ (s : State) (l : Latch) (u : HwUnit), s.latches = [l] ∧ l.since + l.limit ≤ s.now ∧ l.arrived = [(u.id, 0)] ∧ s.unit? u.id = some u ∧
    u.wait.map (·.id) = some 0 ∧ u.waitingWord = some joinWord ∧ u.team = true ∧ u.status = .running ∧ u.widx ≠ 0 :=
  ⟨{ ganged [((member 4 1).id, 0)] with now := 100 + 65536 }, latch [((member 4 1).id, 0)], member 4 1, by decide +kernel⟩

/-! Groups: a thread of a group of two, at each stage. -/

def groupOf2 (arrived : List Nat) (phase : Bool) : Group := ⟨0, 0, [0, 8], 0, arrived, phase, 0, [], 5⟩
def grouped (u : HwUnit) (g : Group) : State := { on u with clusters := [{ Cluster.reset with groups := [g] }] }
def gthread : HwUnit := { thread [] with groups := [some 0, none, none, none] }

theorem witness_group_stages : ∀ p ∈ ([({ gthread with arr := some (0, false) }, groupOf2 [] true), (gthread, groupOf2 [] false), ({ gthread with released := true }, groupOf2 [] false),
    ({ gthread with released := true }, { groupOf2 [8] false with op := groupOp (.grpsync h0 0) })] : List (HwUnit × Group)),
    ((grouped p.1 p.2).cur = some p.1.id ∧ (grouped p.1 p.2).unit? p.1.id = some p.1 ∧ (Instr.grpsync h0 0).wf p.1.env = true ∧ p.1.exec h0 = 1 ∧ p.1.bad = [] ∧
      (grouped p.1 p.2).late = none ∧ (grouped p.1 p.2).badSr = []) ∧ p.1.clashed = false ∧ (grouped p.1 p.2).l1 = [] ∧ p.1.cluster < (grouped p.1 p.2).clusters.length ∧
    p.1.groups.getD 0 none = some 0 ∧ (grouped p.1 p.2).group? p.1.cluster 0 = some p.2 ∧ p.1.wait = none ∧ p.1.bit ∉ p.2.arrived ∧ p.2.due = 0 ∧ p.2.members ≠ [] ∧
    (p.2.arrived = [] ∨ p.2.op = groupOp (.grpsync h0 0)) := by
  decide +kernel

/-- In the first an arrival has its phase over; in the last the other member has arrived. A unit of no group. -/
theorem witness_group_rest : (groupOf2 [] true).phase ≠ false ∧ (∃ m ∈ (groupOf2 [] false).members, m ∉ [gthread.bit]) ∧ (∀ m ∈ (groupOf2 [8] false).members, m ∈ [8] ++ [gthread.bit]) ∧
    Ready (.grpsync h0 3) (on (thread [])) (thread []) 1 ∧ (thread []).groups.getD 3 none = none ∧ (thread []).team = false := by
  refine ⟨by decide +kernel, by decide +kernel, by decide +kernel, ready (by decide +kernel), by decide +kernel, rfl⟩

theorem witness_group_fold : ∃ g : Group, (∀ q ∈ g.contrib, q.1 < 256) ∧ g.contrib.flatMap (·.2) ≠ [] ∧ ∀ v ∈ g.contrib.flatMap (·.2), v = 0 ∨ v = 1 :=
  ⟨{ groupOf2 [] false with contrib := [(255, [1, 0]), (0, [1])], op := 1 }, by simp, by simp, by simp⟩

theorem witness_group_folds : ∀ op ∈ ([1, 2, 3, 4, 5] : List Nat), ∃ g : Group, g.op = op ∧ (∀ q ∈ g.contrib, q.1 < 256) ∧ g.contrib.flatMap (·.2) ≠ [] ∧
    ∀ v ∈ g.contrib.flatMap (·.2), v = 0 ∨ v = 1 :=
  fun op _ => ⟨{ groupOf2 [] false with contrib := [(255, [1, 0]), (0, [1])], op := op }, rfl, by simp, by simp, by simp⟩

/-! CINCH: four threads of pipelines 0 to 3 that form a harness of width 4 with four lanes of 16 registers. -/

def cinchArg : Nat := 7
def cthread (p : Nat) : HwUnit :=
  { thread [(2, 4), (3, cinchArg)] with id := ⟨0, p, 0, false, 0⟩, pipe := p, released := true, wait := none }
def rdvOf (l : List UKey) : Rdv := ⟨1, 7, 4, 4, 16, 0, 0x1000 + 2 * 8, 0, true, 50, 10, l⟩
def meeting (u : HwUnit) (l : List Rdv) : State := { on u with clusters := [{ Cluster.reset with rdv := l }], ids := 9 }

theorem witness_cinch : (∀ l ∈ ([[], [rdvOf [(cthread 1).id]]] : List (List Rdv)),
    ((meeting (cthread 0) l).cur = some (cthread 0).id ∧ (meeting (cthread 0) l).unit? (cthread 0).id = some (cthread 0) ∧
      (Instr.cinch h0 2 3 0 0 2).wf (cthread 0).env = true ∧ (cthread 0).exec h0 = 1 ∧ (cthread 0).sbZero = true ∧ (cthread 0).released = true ∧ (cthread 0).wait = none ∧
      (meeting (cthread 0) l).late = none ∧ (meeting (cthread 0) l).badSr = [] ∧ (meeting (cthread 0) l).harnesses = [] ∧ (meeting (cthread 0) l).ids ≠ 1 ∧ l.length < 8)) ∧
    (let x := ((cthread 0).lane 0).X 3
     x.extractLsb' 13 51 = 0 ∧ (x.extractLsb' 8 5).toNat = 0 ∧ (x.extractLsb' 0 8).toNat = 7 ∧ (((cthread 0).lane 0).X 2).toNat = 4) ∧
    (∀ q ∈ (rdvOf [(cthread 1).id]).parked, q.pipe ≠ (cthread 0).pipe) ∧ (0x1000 + (2 : BitVec 24).signExtend 64 * 8 : Word) = (rdvOf []).tgt ∧
    Ready (.cinch h0 2 3 0 0 2) (on (sthread 0 0)) (sthread 0 0) 1 ∧ ((sthread 0 0).lane 0).X 2 = 0 :=
  ⟨by decide +kernel, by decide +kernel, by decide +kernel, by decide +kernel, ready (by decide +kernel), by decide +kernel⟩

theorem witness_formation : ∃ (s : State) (r : Rdv) (of : Nat → HwUnit), Uncached s ∧ (s.cluster 0).rdv.find? (fun x => x.hid == r.hid) = some r ∧ s.rdvReady 0 r = true ∧
    0 < r.w ∧ r.w ≤ r.n ∧ (∀ j, j < r.w → s.units.find? (fun u => r.parked.contains u.id && u.pipe == r.base + j) = some (of j)) ∧ (s.freeAreas (of 0).ctx true 1).1 = [0] :=
  let r := rdvOf [(cthread 0).id, (cthread 1).id, (cthread 2).id, (cthread 3).id]
  ⟨{ meeting (cthread 0) [r] with units := [cthread 0, cthread 1, cthread 2, cthread 3], mem := ctxMem }, r, cthread, uncached ⟨rfl, rfl, rfl, rfl, rfl, rfl⟩, by decide +kernel,
    by decide +kernel, by decide, by decide, by decide +kernel, by decide +kernel⟩

theorem witness_rendezvous_timeout : ∃ (s : State) (r : Rdv) (u : HwUnit) (i : Instr), (s.cluster 0).rdv.find? (fun x => x.id == r.id) = some r ∧ r.start + r.limit ≤ s.now ∧
    r.parked = [u.id] ∧ s.unit? u.id = some u ∧ u.waitingWord = some i ∧ u.team = false ∧ u.n = 1 ∧ u.status = .running ∧ u.widx ≠ 0 :=
  ⟨meeting (cthread 1) [rdvOf [(cthread 1).id]], rdvOf [(cthread 1).id], cthread 1, .nop h0, by decide +kernel⟩

theorem witness_exit : ∃ (s : State) (u : HwUnit), Uncached s ∧ s.solid (u.area - 8192 * (u.areaIdx + 1)) (8192 * (u.areaIdx + 2)) ∧ s.unit? u.id = some u ∧ u.team = false ∧ u.exiting = true ∧ u.killed = false ∧ u.sbZero = true ∧
    s.allocsOf u = [] ∧ s.slotsOf u = [] ∧ u.queuesDrained = true ∧ u.preempt = none ∧ u.areaIdx < 65536 ∧ 8192 * (u.areaIdx + 1) ≤ u.area :=
  let u := { thread [] with exiting := true, area := 0x12000 }
  ⟨on u, u, uncached ⟨rfl, rfl, rfl, rfl, rfl, rfl⟩, solid rfl _ _, by decide +kernel⟩

theorem witness_team_split : ∃ (s : State) (u : HwUnit) (l : Nat), Uncached s ∧ s.unit? u.id = some u ∧ u.team = true ∧ u.split = some [] ∧ u.wait = none ∧ u.released = true ∧
    s.outOf u.id = [] ∧ s.slotsOf u = [] ∧ u.queuesDrained = true ∧ u.preempt = none ∧ u.liveLanes = [l] ∧ (s.freeAreas u.ctx false 1).1 = [0] ∧ u.id.cluster = u.cluster ∧ u.id.team = true ∧ l < 64 :=
  let u := { teamOf 4 0 [(1, 5)] with active := 8, exited := 7, split := some [], released := true }
  ⟨{ on u with mem := ctxMem }, u, 3, uncached ⟨rfl, rfl, rfl, rfl, rfl, rfl⟩, by decide +kernel⟩

/-! ### Witnesses: exceptions, messages, pre-emption and launch -/

/-- A stopped thread in the next pipeline, and the number that names it. -/
def stopped (st : UStatus) : HwUnit := { thread [(1, 9)] with id := ⟨0, 1, 0, false, 0⟩, pipe := 1, status := st, faultW := some (0x1000, 1, 1) }
def its : Nat := 2 ^ 33
def issuer : HwUnit := thread [(2, its), (3, 0), (4, 8)]
def two (st : UStatus) : State := { on issuer with units := [issuer, stopped st] }

theorem witness_trap_eret : ∀ p ∈ ([(.trap h0 2 5, sthread 7 0), (.eret h0 2, sthread 0x2000 0), (.eret h0 2, { sthread 0x2000 0 with sb := #v[1, 0, 0, 0, 0, 0] }), (.eret h0 2, sthread 0x2001 0),
    (.eret h0 2, sthread 0x200000000000000 0)] : List (Instr × HwUnit)), Ready p.1 (on p.2) p.2 1 ∧ p.2.status = .running ∧ (on p.2).splittable p.2 = false ∧ p.2.widx ≠ 0 := by
  intro p hp
  have h : ∀ p ∈ ([(.trap h0 2 5, sthread 7 0), (.eret h0 2, sthread 0x2000 0), (.eret h0 2, { sthread 0x2000 0 with sb := #v[1, 0, 0, 0, 0, 0] }), (.eret h0 2, sthread 0x2001 0),
    (.eret h0 2, sthread 0x200000000000000 0)] : List (Instr × HwUnit)), ((on p.2).cur = some p.2.id ∧ (on p.2).unit? p.2.id = some p.2 ∧ p.1.wf p.2.env = true ∧
      (p.1.hdr.sb = 0 ∨ p.2.counter p.1.hdr.sb ≠ 63) ∧ p.2.bad = [] ∧ p.2.exec p.1.hdr = 1 ∧ (on p.2).late = none ∧ (on p.2).badSr = []) ∧ p.2.status = .running ∧
      (on p.2).splittable p.2 = false ∧ p.2.widx ≠ 0 := by decide +kernel
  exact ⟨ready (h p hp).1, (h p hp).2⟩

/-- Legal and illegal operands of words that release first. -/
theorem witness_late_words :
    (∃ sc ok keep, lateReq (.wake h1 1 2 3) = some (sc, ok, keep) ∧ Ready (.wake h1 1 2 3) (two .halted) issuer 1 ∧ ok (two .halted) issuer (issuer.lane 0) 0) ∧
    (∃ sc ok keep, lateReq (.wake h1 1 2 4) = some (sc, ok, keep) ∧ Ready (.wake h1 1 2 4) (two .halted) (issuer) 1 ∧ (issuer.lane 0).X 4 = 8) ∧
    (∃ sc ok keep, lateReq (.tlbshootAsid h1 1 2) = some (sc, ok, keep) ∧ Ready (.tlbshootAsid h1 1 2) (two .halted) issuer 1 ∧ ok (two .halted) issuer (issuer.lane 0) 0x77 ∧
      Alone issuer) :=
  ⟨⟨_, _, _, rfl, ready (by decide +kernel), Or.inl (by decide +kernel)⟩, ⟨_, _, _, rfl, ready (by decide +kernel), by decide +kernel⟩,
    ⟨_, _, _, rfl, ready (by decide +kernel), Or.inr (by decide +kernel), by unfold Alone; decide +kernel⟩⟩

/-! Words whose release has been performed. -/

def lateW (i : Instr) (val val2 : Word) (srcs : List Word) : OutWord := { outw 1 i issuer.id with val := val, val2 := val2, srcs := [(0, srcs)] }
def lateS (st : UStatus) (o : OutWord) : State := { two st with outw := [o], late := some 1 }

theorem witness_wake : ∀ st ∈ ([.running, .halted, .parked, .saved] : List UStatus), ∀ act ∈ ([0, 1, 2, 3] : List Nat),
    let o := lateW (.wake h1 1 2 3) (BitVec.ofNat 64 its) (BitVec.ofNat 64 act) []
    (lateS st o).lateOut = some o ∧ idDev o.val = (lateS st o).devnum % 2 ^ 18 ∧ (lateS st o).named o.val = some (stopped st) ∧ (lateS st o).accs = [] ∧
      (lateS st o).outOf (stopped st).id = [] ∧ (stopped st).faultW = some (0x1000, 1, 1) := by
  decide +kernel

theorem witness_wake_nobody : ∃ (s : State) (o : OutWord), s.lateOut = some o ∧ idDev o.val = s.devnum % 2 ^ 18 ∧ s.named o.val = none ∧ s.noDirtyL1 :=
  let o := lateW (.wake h1 1 2 3) 0xFFFF 0 []
  ⟨lateS .halted o, o, by decide +kernel, by decide +kernel, by decide +kernel, by unfold State.noDirtyL1; decide +kernel⟩

theorem witness_sendm : ∀ id ∈ ([its, 0xFFFF] : List Nat),
    let o := lateW (.sendm h1 .cl 1 2 4) 1 2 [BitVec.ofNat 64 id]
    (lateS .running o).lateOut = some o ∧ (lateS .running o).unit? o.unit = some issuer ∧ idDev o.srcA = (lateS .running o).devnum % 2 ^ 18 ∧
      ((lateS .running o).named o.srcA = none ↔ id = 0xFFFF) := by
  decide +kernel

/-- WINRD and WINWR of each register file of a halted thread; of a running one, which they do not look onto. -/
theorem witness_window : (∀ sel ∈ ([0x0001, 0x0101, 0x0200, 0x0400, 0x0500, 0x0600] : List (BitVec 14)),
    let o := lateW (.winrd h1 1 2 3 sel) 0 0 [BitVec.ofNat 64 its, 0]
    (lateS .halted o).lateOut = some o ∧ (lateS .halted o).named o.srcA = some (stopped .halted)) ∧
    (let o := lateW (.winwr h1 1 2 3 0x0001) 0 5 [0, BitVec.ofNat 64 its]
     (lateS .halted o).lateOut = some o ∧ (lateS .halted o).named (o.src 1) = some (stopped .halted) ∧ o.unit ≠ (stopped .halted).id ∧
      selOk (stopped .halted) 0x0001 0 true = true) ∧
    (let o := lateW (.winrd h1 1 2 3 0x0001) 0 0 [BitVec.ofNat 64 its, 0]
     (lateS .running o).lateOut = some o ∧ (lateS .running o).named o.srcA = some (stopped .running)) := by
  decide +kernel

theorem witness_window_uncached : Uncached (two .halted) ∧ Uncached (two .parked) :=
  ⟨⟨rfl, rfl, rfl, rfl, rfl, rfl⟩, ⟨rfl, rfl, rfl, rfl, rfl, rfl⟩⟩

/-! Messages. -/

def msg : Msg := ⟨1, 2, 3, 4⟩

theorem witness_waitm : ∀ p ∈ ([(.waitm h1 .cl 8, { thread [] with inbox := [msg, msg], pending := true }), (.waitm h1 .cl 8, thread []), (.waitmNb h1 .cl 8, thread []),
    (.waitm h1 .cl 8, { thread [] with inbox := [msg], pending := false })] : List (Instr × HwUnit)), Ready p.1 (on p.2) p.2 1 := by
  intro p hp
  apply ready
  revert p
  decide +kernel

/-- A message for a unit with room for one more, for one that is full, at its 256th refusal too, and for one that has gone. -/
theorem witness_delivery : ∀ n ∈ ([3, 4] : List Nat),
    let u := { stopped .running with inbox := List.replicate n msg }
    let o := lateW (.sendm h1 .cl 1 2 4) 1 2 [BitVec.ofNat 64 its]
    let s : State := { two .running with units := [issuer, u], outw := [o] }
    s.unit? u.id = some u ∧ u.resident = true ∧ s.future = [] ∧ s.outw.find? (fun x => x.id == 1) = some o ∧ s.unit? ⟨5, 0, 0, false, 0⟩ = none := by
  decide +kernel

/-- The host's event queue with room for one more entry, and full. -/
theorem witness_event_queue : ∀ p ∈ ([63, 64] : List Nat),
    let s : State := { base with hub := { base.hub with eqProd := p } }
    (s.hub.eqCtl.extractLsb' 0 5).toNat = 6 ∧ ((s.hub.eqProd + 2 ^ 32 - s.hub.eqCons) % 2 ^ 32 < 2 ^ 6 ↔ p = 63) := by
  decide +kernel

/-! Pre-emption. -/

theorem witness_preempt_words : ∀ i ∈ ([.preempt h1 1 2, .preemptSave h1 1 2, .preemptKill h1 1 2, .ctxsave h1 1 2, .ctxload h1 1 4, .preempt h1 1 5] : List Instr),
    Ready i (two .halted) issuer 1 := by
  intro i hi
  apply ready
  revert i
  decide +kernel

theorem witness_preempt_named : (two .halted).named ((issuer.lane 0).X 2) = some (stopped .halted) ∧ (on issuer).named ((issuer.lane 0).X 2) = none ∧
    (∃ v ∈ ({ two .saved with units := [issuer, { stopped .saved with area := 8 }] } : State).units, v.status = .saved ∧ v.area = ((issuer.lane 0).X 4).toNat ∧ v.area ≠ 0 ∧
      (∀ w ∈ ({ two .saved with units := [issuer, { stopped .saved with area := 8 }] } : State).units, w.status = .saved → w.area = v.area → w = v)) ∧
    (two .saved).hub.returns = [] := by
  decide +kernel

/-- Units that a pre-emption finds quiet: a thread, stopped or running, and a team at a clause boundary that drains, flushes, or is saved. -/
def asked (u : HwUnit) : State := { on u with outw := [outw 1 (.preempt h1 1 2) ⟨0, 5, 0, false, 0⟩] }
def qteams : List HwUnit :=
  [stopped .halted, stopped .running, { teamOf 4 7 [] with prog := 100, wexit := 110, resid := 50 }, { teamOf 4 7 [] with idem := some 0x800 },
    { teamOf 4 7 [] with idem := some 0x800, taint := true }, teamOf 4 7 []]

theorem quiet {s : State} {u : HwUnit} (h : (s.outOf u.id = [] ∧ s.accs = [] ∧ u.awaiting = [] ∧ u.wait = none) ∧
    (u.exiting = false ∧ u.split = none ∧ u.preempt = none ∧ u.drained = 0 ∧ s.unit? u.id = some u) ∧ s.latches = [] ∧ s.l1 = [] ∧ u.parkDue = false) : Quiet s u :=
  ⟨h.1, h.2.1, h.2.2⟩

theorem witness_preempt_quiet : ∀ u ∈ qteams, Quiet (asked u) u ∧ (asked u).unit? u.id = some u ∧ (asked u).unit? ⟨7, 0, 0, true, 0⟩ = none := by
  intro u hu
  have h : ∀ u ∈ qteams, (((asked u).outOf u.id = [] ∧ (asked u).accs = [] ∧ u.awaiting = [] ∧ u.wait = none) ∧
    (u.exiting = false ∧ u.split = none ∧ u.preempt = none ∧ u.drained = 0 ∧ (asked u).unit? u.id = some u) ∧ (asked u).latches = [] ∧ (asked u).l1 = [] ∧
      u.parkDue = false) ∧ (asked u).unit? ⟨7, 0, 0, true, 0⟩ = none := by decide +kernel
  exact ⟨quiet (h u hu).1, (h u hu).1.2.1.2.2.2.2, (h u hu).2⟩

/-- The third of them drains: its weight left, times its rate, is within the limit. -/
theorem witness_drains : ∃ u ∈ qteams, u.team = true ∧ u.prog.toNat ≠ 0 ∧ u.prog.toNat < u.wexit ∧
    (u.wexit - u.prog.toNat) * u.resid.toNat ≤ (((asked u).cluster 0).drainlim.extractLsb' 0 32).toNat * u.prog.toNat :=
  ⟨{ teamOf 4 7 [] with prog := 100, wexit := 110, resid := 50 }, by decide +kernel⟩

theorem witness_drain_over : ∃ (s : State) (u : HwUnit) (p : Preempt), s.unit? u.id = some u ∧ s.outOf u.id = [] ∧ s.accs = [] ∧ s.latches = [] ∧ s.l1 = [] ∧ u.awaiting = [] ∧
    u.wait = none ∧ u.exiting = false ∧ u.split = none ∧ u.team = true ∧ u.status = .running ∧ u.begun = false ∧ u.widx = 1 ∧ u.preempt = some p ∧ p.mode = .adaptive ∧
    p.saving = false ∧ p.by_ = [] ∧ u.drained ≠ 0 ∧ u.idem = none :=
  let p : Preempt := ⟨.adaptive, [], 3, false, false⟩
  let u := { teamOf 4 7 [] with preempt := some p, drained := 90 }
  ⟨on u, u, p, by decide +kernel⟩

/-! Launch queues: the block of queue 0 at 0x1000, of sixteen records. -/

def block : List Host.Cell := [(0x1000, 4), (0x1002, 2)]
def launching (u : HwUnit) : State := { on u with mem := block, hub := { base.hub with lqbase := 0x1000 } }

theorem witness_valid_block : ∃ s d0 d1, ValidBlock s 0 d0 d1 ∧ Uncached s ∧ s.solid (s.blockOf 0) 64 ∧ s.hub.recs = [] ∧ s.hub.ready = true ∧ s.hub.trip = false ∧
    Ready (.launchRun h1 1 2) s (sthread 0 0) 1 ∧ (((sthread 0 0).lane 0).X 2).extractLsb' 6 26 = 0 :=
  ⟨launching (sthread 0 0), 0x20004, 0, ⟨by decide +kernel, by decide +kernel, by decide +kernel, by decide +kernel⟩, uncached ⟨rfl, rfl, rfl, rfl, rfl, rfl⟩, solid rfl _ _, rfl, rfl, rfl,
    ready (by decide +kernel), by decide +kernel⟩

theorem witness_launch : ∀ k ∈ ([0x10000, 1] : List Nat),
    let o := lateW (.launch h1 1 2) 0 (BitVec.ofNat 64 k) []
    ({ launching issuer with outw := [o], late := some 1 } : State).lateOut = some o ∧ (o.val2.getLsbD 16 = true ↔ k = 0x10000) ∧
      ((0 : Word).extractLsb' 16 16 ≠ o.val2.extractLsb' 0 16 ↔ k = 1) := by
  decide +kernel

/-- No block is valid at a base whose queue's size field is 0. -/
theorem witness_invalid_block : (∀ d0 d1, ¬ValidBlock (on (sthread 0 0)) 0 d0 d1) ∧ Uncached (on (sthread 0 0)) ∧ (on (sthread 0 0)).hub.lqbase.toNat % 4096 = 0 ∧
    Ready (.launchRun h1 1 2) (on (sthread 0 0)) (sthread 0 0) 1 ∧ Alone (sthread 0 0) ∧ Ready (.launchRun h1 1 2) (on (sthread 64 0)) (sthread 64 0) 1 ∧
    (((sthread 64 0).lane 0).X 2).extractLsb' 6 26 ≠ 0 :=
  ⟨fun d0 d1 h => by
      have h1 := h.size.1
      rw [h.read.1, show memRead (on (sthread 0 0)).mem ((on (sthread 0 0)).blockOf 0) 8 = 0 from by decide +kernel] at h1
      revert h1; decide,
    uncached ⟨rfl, rfl, rfl, rfl, rfl, rfl⟩, by decide +kernel, ready (by decide +kernel), by unfold Alone; decide +kernel, ready (by decide +kernel), by decide +kernel⟩

/-! ### Witnesses: translation -/

/-- Tables of address space 0 from page 1 on: page 0 of memory is at page 6, to be read, written and executed by all. -/
def tables (leaf : Nat) : List Host.Cell :=
  [(0, 1), (7, 0xA0), (0x1000, 1), (0x1001, 8), (0x2000, 1), (0x2001, 0x0C), (0x3000, 1), (0x3001, 0x10), (0x4000, 1), (0x4001, 0x14),
   (0x5000, BitVec.ofNat 8 leaf), (0x5001, 0x18)]
def allWindow (last : Word) : Vector Word 256 := ((Vector.replicate 256 0).set 0 0x8000000000000000).set 1 last
def mapped (leaf : Nat) (last : Word) (s : State) : State := { s with mem := tables leaf, hub := { s.hub with windows := allWindow last } }

/-- Leaves that allow all, do not allow writes, have not been accessed; and one whose page no window entry leads to. -/
def leaves : List (Nat × Word) := [(0xDF, 0x000FFFFFFFFFF000), (0xD3, 0x000FFFFFFFFFF000), (0x97, 0x000FFFFFFFFFF000), (0xDF, 0x5000)]

theorem witness_walk : ∀ p ∈ leaves, let s := mapped p.1 p.2 base
    s.hasRoot 0 1 false false ∧ TableWalk s 0 5 (1 * 4096) (BitVec.ofNat 64 (0x1800 + p.1)) 0 ∧ Uncached s := by
  intro p hp
  refine ⟨?_, ?_, uncached ⟨rfl, rfl, rfl, rfl, rfl, rfl⟩⟩
  · revert p; unfold State.hasRoot; decide +kernel
  · have h : ∀ p ∈ leaves, let s := mapped p.1 p.2 base
        (s.classify 0x1000 = some ⟨.dev, 0x1000⟩ ∧ s.classify 0x2000 = some ⟨.dev, 0x2000⟩ ∧ s.classify 0x3000 = some ⟨.dev, 0x3000⟩ ∧
          s.classify 0x4000 = some ⟨.dev, 0x4000⟩ ∧ s.classify 0x5000 = some ⟨.dev, 0x5000⟩) ∧
        (0x801 = BitVec.ofNat 64 (s.dw 0x1000) ∧ 0xC01 = BitVec.ofNat 64 (s.dw 0x2000) ∧ 0x1001 = BitVec.ofNat 64 (s.dw 0x3000) ∧
          0x1401 = BitVec.ofNat 64 (s.dw 0x4000) ∧ BitVec.ofNat 64 (0x1800 + p.1) = BitVec.ofNat 64 (s.dw 0x5000)) ∧
        (let pte : Word := BitVec.ofNat 64 (0x1800 + p.1)
         pte.getLsbD 0 = true ∧ pte.extractLsb' 54 7 = 0 ∧ pte.extractLsb' 61 2 ≠ 3 ∧ pte.getLsbD 1 = true) := by decide +kernel
    obtain ⟨⟨c1, c2, c3, c4, c5⟩, ⟨d1, d2, d3, d4, d5⟩, e1, e2, e3, e4⟩ := h p hp
    exact .down 3 _ 0x1000 _ _ 0 c1 (by decide) d1 (by decide) (by decide) (by decide) (by decide) (by decide)
      (.down 2 _ 0x2000 _ _ 0 c2 (by decide) d2 (by decide) (by decide) (by decide) (by decide) (by decide)
        (.down 1 _ 0x3000 _ _ 0 c3 (by decide) d3 (by decide) (by decide) (by decide) (by decide) (by decide)
          (.down 0 _ 0x4000 _ _ 0 c4 (by decide) d4 (by decide) (by decide) (by decide) (by decide) (by decide)
            (.leaf 0 _ 0x5000 _ c5 (by decide) d5 e1 e2 e3 (Or.inl e4)))))

/-- The page of the last of them has no memory, the others do; a root entry that is not valid, and one of a page that migrates. -/
theorem witness_walk_ends : (mapped 0xDF 0x5000 base).classify 0x6000 = none ∧ (mapped 0xDF 0x000FFFFFFFFFF000 base).classify 0x6000 = some ⟨.dev, 0x6000⟩ ∧
    (mapped 0xDF 0x000FFFFFFFFFF000 base).classify (1 * 4096 + 8 * (2 ^ 48 / 2 ^ 48 % 512)) = some ⟨.dev, 0x1008⟩ ∧
    (mapped 0xDF 0x000FFFFFFFFFF000 base).dw 0x1008 = 0 := by decide +kernel

/-- A load of four bytes for the outstanding word 1, at an address that the tables do not map. -/
def acc (kind : AccKind) (stage : AccStage) : Acc :=
  ⟨7, kind, .si, .cl, .out 1, none, 0, 0, 1, 0, false, 0, 0, 0, 4, 1, [], 0, 0, none, true, none, none, none, stage, none, none, 0, 1, false, 0, 0, false, 0, 0, false, []⟩
def loadWord : OutWord := outw 1 (.ld h1 .si .cl 0 .w32 5 2 0) issuer.id
def walking (leaf : Nat) (a : Acc) : State := { mapped leaf 0x000FFFFFFFFFF000 (on issuer) with accs := [a], outw := [loadWord], ids := 20 }

/-- A page that is not there, and one that has not been accessed; nobody pages for the die. -/
theorem witness_failed_walk : ∀ l ∈ ([0xC0, 0x9F] : List Nat),
    let a := acc .load .walk
    let s := walking l a
    let at_ := { s with arg := some (.translationWalk a.id) }
    s.accs = [a] ∧ a.fault = 0 ∧ a.owner = .out loadWord.id ∧ s.outw.find? (fun x => x.id == loadWord.id) = some loadWord ∧ loadWord.due = false ∧ loadWord.faults = [] ∧
      at_.walk a.asid a.v57 a.kind.need a.super = (.fault (if l = 0xC0 then 0x71 else 0x73) 0, at_) ∧
      at_.asidEntry a.asid = (some (1, false, false), at_) ∧ (s.pagerdst.toList.getD a.die 0).getLsbD 63 = false ∧ s.replays = [] ∧ a.unit = none ∧
      s.cachedLeaf a.die a.asid a.v57 = none ∧ a.kind ≠ .pref ∧ a.stage = .walk := by
  decide +kernel

/-- Somebody pages for the die; a leaf that says that its page migrates. -/
theorem witness_paged_walk : (let s := { walking 0x9F (acc .load .walk) with pagerdst := #v[0x8000000000000000, 0, 0, 0] }
    (s.pagerdst.toList.getD (acc .load .walk).die 0).getLsbD 63 = true ∧ s.replays = []) ∧
    (let a := acc .load .walk
     let m := { walking 0 a with mem := [(0, 1), (7, 0xA0), (0x1000, 0), (0x1001, 1)], arg := some (Ev.translationWalk a.id) }
     m.walk a.asid a.v57 a.kind.need a.super = (.mig 4, m)) := by
  decide +kernel

/-- The load is held for a page that now can be read; a word of FAULTACK and a request of the mailbox name it. -/
def held : Replay := ⟨7, 0, 0, 7, 0x71, false⟩
def holding : State := { walking 0xDF (acc .load .replay) with replays := [held] }

theorem heldFor : HeldFor holding held (acc .load .replay) loadWord :=
  ⟨by decide +kernel, by decide +kernel⟩

theorem witness_rewalk : let a := acc .load .replay
    let at_ := { holding with arg := some (.migrationRewalk held.tag) }
    ∃ x z p l q, at_.walk a.asid a.v57 a.kind.need a.super = (.ok x z p l q, at_) := by
  exact ⟨⟨⟨.dev, 192⟩, 0xDF, false, some .none, false⟩, 4096, 0x18DF, 0, ⟨.dev, 0x5000⟩, by decide +kernel⟩

theorem witness_held_complete : ∃ (s : State) (a : Acc) (u : HwUnit), s.accs = [a] ∧ a.owner = .out 1 ∧ a.unit = some u.id ∧ s.unit? u.id = some u ∧ a.stage ≠ .held ∧
    u.awaiting = [a.id] ∧ s.acc? a.id = some a ∧ (1, a.lane / max 1 u.w) ∉ u.logged ∧ u.team = false ∧ u.logged.length < 8 :=
  let u := { issuer with awaiting := [7] }
  let a := { acc .load .replay with unit := some u.id }
  ⟨{ holding with units := [u], accs := [a] }, a, u, by decide +kernel⟩

def answering (v : Nat) : HwUnit := { thread [(2, v)] with id := ⟨0, 2, 0, false, 0⟩, pipe := 2 }
def answers (v : Nat) : State := { holding with units := [issuer, answering v], cur := some (answering v).id }

/-- FAULTACK of the held request, of one that is not held, of one of a device that no route leads to, and with an operand that is not legal. -/
theorem witness_faultack : (∀ v ∈ ([7, 8, 0x50000000000, 0x400000000000000] : List Nat), Ready (.faultack h0 2) (answers v) (answering v) 1 ∧ Alone (answering v)) ∧
    Ready (.faultackRefuse h0 2) (answers 7) (answering 7) 1 ∧ HeldFor (answers 7) held (acc .load .replay) loadWord ∧ loadWord.unit ≠ (answering 7).id ∧
    loadWord.id < (answers 7).ids ∧ (∀ r ∈ (answers 8).replays, r.tag % 2 ^ 32 ≠ 8) ∧ (answers 0x50000000000).devnum % 2 ^ 18 ≠ 5 ∧ (answers 0x50000000000).route 5 0 = none := by
  have h : ∀ v ∈ ([7, 8, 0x50000000000, 0x400000000000000] : List Nat), ((answers v).cur = some (answering v).id ∧ (answers v).unit? (answering v).id = some (answering v) ∧
      (Instr.faultack h0 2).wf (answering v).env = true ∧ ((Instr.faultack h0 2).hdr.sb = 0 ∨ (answering v).counter (Instr.faultack h0 2).hdr.sb ≠ 63) ∧ (answering v).bad = [] ∧
      (answering v).exec (Instr.faultack h0 2).hdr = 1 ∧ (answers v).late = none ∧ (answers v).badSr = []) ∧ ((answering v).team = false ∧ (answering v).n = 1 ∧ (answering v).status = .running ∧
      (answering v).widx ≠ 0) := by decide +kernel
  exact ⟨fun v hv => ⟨ready (h v hv).1, (h v hv).2⟩, ready (by decide +kernel), ⟨by decide +kernel, by decide +kernel⟩, by decide +kernel, by decide +kernel, by decide +kernel,
    by decide +kernel, by decide +kernel⟩

theorem witness_mailbox_answer : held.tag % 2 ^ 32 = ((7 : Word).extractLsb' 0 32).toNat ∧ held.die = ((7 : Word).extractLsb' 32 4).toNat ∧ held.unit = ((7 : Word).extractLsb' 36 4).toNat ∧
    (∀ r ∈ (on issuer).replays, r.tag ≠ 7) := by decide +kernel

/-! ### Witnesses: shootdowns -/

def shootOut (i : Instr) (v v2 : Nat) : OutWord := { outw 1 i issuer.id with val := BitVec.ofNat 64 v, val2 := BitVec.ofNat 64 v2 }

theorem witness_shoot_words : ∀ i ∈ ([.tlbshoot h1 1 2 3, .tlbshootAsid h1 1 2, .tlbshootAll h1 1, .tlbshootGlob h1 1 2 3] : List Instr),
    (shootWord i).isSome = true ∧ ({ two .running with outw := [shootOut i 0x4000 0x10000], late := some 1 } : State).lateOut = some (shootOut i 0x4000 0x10000) := by
  decide +kernel

def shoot (applied : Bool) (host : Option (Nat × Bool × Nat)) : Shoot := ⟨0, 0, 0, 0, 1, applied, host, [], []⟩

/-- TLBSYNC of a ticket that is in progress, of one that is over, and of an operand that is no ticket. -/
theorem witness_tlbsync : Ready (.tlbsync h0 2) { on (sthread 0 0) with hub := { base.hub with shoots := [shoot false none], ticket := 1 } } (sthread 0 0) 1 ∧
    (((0 : Word).toNat + 2 ^ 32 - (shoot false none).ticket) % 2 ^ 32 < 2 ^ 31) ∧ (1 + 2 ^ 32 - (0 : Word).toNat) % 2 ^ 32 ≤ 2 ^ 31 ∧ (sthread 0 0).wait = none ∧
    Ready (.tlbsync h0 2) { on (sthread 0 0) with hub := { base.hub with shoots := [shoot false none], ticket := 2 ^ 31 + 1 } } (sthread 0 0) 1 ∧ (2 ^ 31 < (2 ^ 31 + 1 + 2 ^ 32 - (0 : Word).toNat) % 2 ^ 32) ∧
    Ready (.tlbsync h0 2) (on (sthread 0 0)) (sthread 0 0) 1 ∧ (on (sthread 0 0)).hub.shoots = [] ∧ (on (sthread 0 0)).noDirtyL1 ∧
    Ready (.tlbsync h0 2) (on (sthread 0x100000000 0)) (sthread 0x100000000 0) 1 ∧ ((((sthread 0x100000000 0).lane 0).X 2).extractLsb' 32 32 ≠ 0) ∧ Alone (sthread 0x100000000 0) :=
  ⟨ready (by decide +kernel), by decide, by decide, rfl, ready (by decide +kernel), by decide, ready (by decide +kernel), rfl, by unfold State.noDirtyL1; decide +kernel, ready (by decide +kernel), by decide +kernel,
    by unfold Alone; decide +kernel⟩

theorem witness_shoot_complete : ∀ p ∈ ([(false, none), (true, some (5, true, 3))] : List (Bool × Option (Nat × Bool × Nat))),
    let s : State := { on issuer with tlb := [⟨0, 0, 0, 0, 4096, 0x6000, 0x18D7, 0, ⟨.dev, 0x5000⟩, []⟩, ⟨0, 0, 1, 0, 4096, 0x6000, 0x18D7, 0, ⟨.dev, 0x5000⟩, []⟩], hub := { base.hub with shoots := [shoot p.1 p.2] } }
    s.hub.shoots.find? (fun y => y.ticket == (shoot p.1 p.2).ticket) = some (shoot p.1 p.2) ∧ s.l1 = [] ∧ s.l2 = [] ∧ s.replays = [] ∧ s.accs = [] ∧ s.wbufs = [] ∧
      (∀ i ∈ (shoot p.1 p.2).waits, s.acc? i = none) := by
  decide +kernel

theorem witness_imb_shootdowns : (∀ e ∈ ([.imbShootdownRange 0x4000 0x10000 5, .imbShootdownAsid 0 1 5, .imbShootdownAll 0 0 5, .imbShootdownGlobal 0x4000 0x10000 5] : List Ev),
    (imbShootdown e).isSome = true) ∧ PageRange 0x4000 0x10000 ∧ ¬PageRange 0x4001 0x10000 ∧ ((0 : Word).extractLsb' 16 48 = 0) ∧ ((0x10000 : Word).extractLsb' 16 48 ≠ 0) := by
  refine ⟨by intro e he; fin_cases he <;> rfl, ?_, ?_, by decide, by decide⟩ <;> (unfold PageRange IsCanonical; decide +kernel)

/-! ### Witnesses: errors, classes and waiting -/

theorem witness_error_budget : Ready (.errbAdd h1 5 2) (on (sthread 9 0)) (sthread 9 0) 1 ∧ Ready (.errbAdd h1 5 2) (on (sthread 0x100000000 0)) (sthread 0x100000000 0) 1 ∧
    Alone (sthread 0x100000000 0) ∧
    (∀ n ∈ ([0, 1, 2] : List Nat), Ready (.errbRep h1 2) ((on (sthread 9 0)).setErrbudget 0 (BitVec.ofNat 64 n)) (sthread 9 0) 1 ∧
      (((on (sthread 9 0)).setErrbudget 0 (BitVec.ofNat 64 n)).errbudget 0).extractLsb' 0 32 = BitVec.ofNat 32 n) := by
  have h : ∀ n ∈ ([0, 1, 2] : List Nat), let s := (on (sthread 9 0)).setErrbudget 0 (BitVec.ofNat 64 n)
      (s.cur = some (sthread 9 0).id ∧ s.unit? (sthread 9 0).id = some (sthread 9 0) ∧ (Instr.errbRep h1 2).wf (sthread 9 0).env = true ∧
        ((Instr.errbRep h1 2).hdr.sb = 0 ∨ (sthread 9 0).counter (Instr.errbRep h1 2).hdr.sb ≠ 63) ∧ (sthread 9 0).bad = [] ∧ (sthread 9 0).exec (Instr.errbRep h1 2).hdr = 1 ∧
        s.late = none ∧ s.badSr = []) ∧ (s.errbudget 0).extractLsb' 0 32 = BitVec.ofNat 32 n := by decide +kernel
  exact ⟨ready (by decide +kernel), ready (by decide +kernel), by unfold Alone; decide +kernel, fun n hn => ⟨ready (h n hn).1, (h n hn).2⟩⟩

/-- A charge that exhausts the count: of a command of a unit, and of a word under way. -/
theorem witness_charge : ∃ (s : State) (u : HwUnit) (o : OutWord), ((s.errbudget 0).extractLsb' 0 32).toNat ≤ 1 ∧ s.unit? u.id = some u ∧ s.outw = [o] ∧ o.unit = u.id :=
  ⟨{ (on issuer).setErrbudget 0 1 with outw := [loadWord] }, issuer, loadWord, by decide +kernel⟩

/-- An access that its charge ends. -/
theorem witness_charged_access : let a := acc .load .bound
    let s := walking 0xDF a
    s.accs = [a] ∧ a.id ≠ 0 ∧ a.fault = 0 ∧ a.owner = .out loadWord.id ∧ s.outw.find? (fun x => x.id == loadWord.id) = some loadWord ∧ loadWord.due = false ∧
      loadWord.faults = [] := by
  decide +kernel

/-- Blocks of each class, the last of the device among them; a bank; a register. -/
theorem witness_bit_errors : (∀ c ∈ ([RClass.full, .detect, .none] : List RClass), ∃ s : State, s.cls (64 * 0 / granuleBytes) = c) ∧ 64 * (deviceBytes / 64 - 1) < deviceBytes ∧
    0 < (on issuer).clusters.length ∧ (on issuer).unit? issuer.id = some issuer := by
  refine ⟨?_, by decide +kernel, by decide, by decide +kernel⟩
  intro c hc
  fin_cases hc
  · exact ⟨{ base with classes := [(0, .full)] }, by decide +kernel⟩
  · exact ⟨{ base with classes := [(0, .detect)] }, by decide +kernel⟩
  · exact ⟨base, by decide +kernel⟩

def rethread (b : Nat) : HwUnit := { thread [(2, 0), (3, b)] with super := true }

/-- RECLASS of granule 0 with the next and with itself, and at the end of device memory. -/
theorem witness_reclass : (∀ b ∈ ([granuleBytes, 0, deviceBytes] : List Nat), ∀ c ∈ ([.full, .detect, .none] : List RClass),
      Ready (.reclass h1 2 3 c) (on (rethread b)) (rethread b) 1 ∧ Alone (rethread b)) ∧
    Ready (.reclassRd h1 5 2) (on (rethread 0)) (rethread 0) 1 ∧ granuleBytes * (0 + 1) ≤ deviceBytes ∧
    (let o := { outw 1 (.reclass h1 2 3 .full) (rethread 0).id with val := BitVec.ofNat 64 (classNumber .full) }
     let s : State := { on (rethread 0) with outw := [o] }
     s.outw = [o] ∧ o.val2.toNat = 0 ∧ o.due = false ∧ s.txns = [] ∧ s.dir = [] ∧ s.l2 = [] ∧ s.errs = [] ∧ s.future = []) := by
  have h : ∀ b ∈ ([granuleBytes, 0, deviceBytes] : List Nat), ∀ c ∈ ([.full, .detect, .none] : List RClass), let u := rethread b
      ((on u).cur = some u.id ∧ (on u).unit? u.id = some u ∧ (Instr.reclass h1 2 3 c).wf u.env = true ∧
        ((Instr.reclass h1 2 3 c).hdr.sb = 0 ∨ u.counter (Instr.reclass h1 2 3 c).hdr.sb ≠ 63) ∧ u.bad = [] ∧ u.exec (Instr.reclass h1 2 3 c).hdr = 1 ∧
        (on u).late = none ∧ (on u).badSr = []) ∧ (u.team = false ∧ u.n = 1 ∧ u.status = .running ∧ u.widx ≠ 0) := by decide +kernel
  exact ⟨fun b hb c hc => ⟨ready (h b hb c hc).1, (h b hb c hc).2⟩, ready (by decide +kernel), by decide +kernel, by decide +kernel⟩

/-! A unit that waits at a word. -/

def waitAt (k : WaitKind) (fails : Nat) : Wait := ⟨k, 3, fails, 0, 0, [], false⟩
def waiting (u : HwUnit) (i : Instr) (w : Wait) : HwUnit := { u with wait := some w, clause := (encode i).map (fun x => ⟨0x1000, 0, [x]⟩) }
def later (u : HwUnit) : State := { on u with now := 100000 }

theorem waits {s : State} {u : HwUnit} {w : Wait} {i : Instr} (h : s.unit? u.id = some u ∧ u.wait = some w ∧ u.waitingWord = some i) : Waits s u w i := ⟨h.1, h.2.1, h.2.2⟩

/-- A team at QPOP of an empty queue and of one with an entry, below and at the limit. -/
theorem witness_queue_retry : ∀ p ∈ ([([], 1), ([(5, 0)], 1), ([], 65536)] : List (List (Word × Nat) × Nat)),
    let i : Instr := .qpop h1 5 1 false 0
    let u := waiting { teamOf 4 7 [] with q := (Vector.replicate 16 QReg.reset).set 1 { QReg.reset with bound := some 0x10, ents := p.1 } } i (waitAt .queue p.2)
    Waits (later u) u (waitAt .queue p.2) i ∧ (qWaitOf i).isSome = true ∧ (p.2 = 65536 ↔ (later u).atLimit u (waitAt .queue p.2)) ∧ Whole (later u) u ∧ u.exec i.hdr ≠ 0 ∧ (later u).due u (waitAt .queue p.2) := by
  intro p hp
  have h : ∀ p ∈ ([([], 1), ([(5, 0)], 1), ([], 65536)] : List (List (Word × Nat) × Nat)),
    let i : Instr := .qpop h1 5 1 false 0
    let u := waiting { teamOf 4 7 [] with q := (Vector.replicate 16 QReg.reset).set 1 { QReg.reset with bound := some 0x10, ents := p.1 } } i (waitAt .queue p.2)
    ((later u).unit? u.id = some u ∧ u.wait = some (waitAt .queue p.2) ∧ u.waitingWord = some i) ∧ (qWaitOf i).isSome = true ∧
      (p.2 = 65536 ↔ (((later u).cluster u.cluster).waitlim.extractLsb' 0 32).toNat ≤ (waitAt .queue p.2).fails) ∧
      (u.team = true ∧ (later u).splittable u = false ∧ u.status = .running ∧ u.widx ≠ 0) ∧ u.exec i.hdr ≠ 0 ∧
      (waitAt .queue p.2).last + 64 * (((later u).cluster u.cluster).waitlim.extractLsb' 32 12).toNat ≤ (later u).now := by decide +kernel
  obtain ⟨a, b, c, d, e, f⟩ := h p hp
  exact ⟨waits a, b, c, d, e, Or.inr f⟩

theorem witness_group_retry : ∀ p ∈ ([(true, 1), (false, 1), (false, 65536)] : List (Bool × Nat)),
    let i : Instr := .grpsync h0 0
    let w := waitAt (.group false) p.2
    let u := waiting { thread [] with groups := [some 0, none, none, none], arr := some (0, false) } i w
    let g : Group := ⟨0, 0, [0, 8], 0, [0], p.1, 0, [], 5⟩
    let s : State := { later u with clusters := [{ Cluster.reset with groups := [g] }] }
    Waits s u w i ∧ u.arr = some (0, false) ∧ s.group? u.cluster 0 = some g ∧ w.last + 64 * ((s.cluster u.cluster).waitlim.extractLsb' 32 12).toNat ≤ s.now ∧
      (p.2 = 65536 ↔ s.atLimit u w) ∧ Alone u ∧ u.exec i.hdr ≠ 0 := by
  intro p hp
  have h : ∀ p ∈ ([(true, 1), (false, 1), (false, 65536)] : List (Bool × Nat)),
    let i : Instr := .grpsync h0 0
    let w := waitAt (.group false) p.2
    let u := waiting { thread [] with groups := [some 0, none, none, none], arr := some (0, false) } i w
    let g : Group := ⟨0, 0, [0, 8], 0, [0], p.1, 0, [], 5⟩
    let s : State := { later u with clusters := [{ Cluster.reset with groups := [g] }] }
    (s.unit? u.id = some u ∧ u.wait = some w ∧ u.waitingWord = some i) ∧ u.arr = some (0, false) ∧ s.group? u.cluster 0 = some g ∧
      w.last + 64 * ((s.cluster u.cluster).waitlim.extractLsb' 32 12).toNat ≤ s.now ∧
      (p.2 = 65536 ↔ ((s.cluster u.cluster).waitlim.extractLsb' 0 32).toNat ≤ w.fails) ∧ (u.team = false ∧ u.n = 1 ∧ u.status = .running ∧ u.widx ≠ 0) ∧ u.exec i.hdr ≠ 0 := by
    decide +kernel
  obtain ⟨a, b, c, d, e, f, g⟩ := h p hp
  exact ⟨waits a, b, c, d, e, f, g⟩

theorem witness_waitm_retry : ∀ n ∈ ([1, 65536] : List Nat),
    let i : Instr := .waitm h1 .cl 8
    let u := waiting (thread []) i (waitAt .inbox n)
    Waits (later u) u (waitAt .inbox n) i ∧ (n = 65536 ↔ (later u).atLimit u (waitAt .inbox n)) ∧ Alone u ∧ u.exec i.hdr ≠ 0 ∧ (later u).due u (waitAt .inbox n) := by
  intro n hn
  have h : ∀ n ∈ ([1, 65536] : List Nat),
    let i : Instr := .waitm h1 .cl 8
    let u := waiting (thread []) i (waitAt .inbox n)
    ((later u).unit? u.id = some u ∧ u.wait = some (waitAt .inbox n) ∧ u.waitingWord = some i) ∧
      (n = 65536 ↔ (((later u).cluster u.cluster).waitlim.extractLsb' 0 32).toNat ≤ (waitAt .inbox n).fails) ∧
      (u.team = false ∧ u.n = 1 ∧ u.status = .running ∧ u.widx ≠ 0) ∧ u.exec i.hdr ≠ 0 ∧
      (waitAt .inbox n).last + 64 * (((later u).cluster u.cluster).waitlim.extractLsb' 32 12).toNat ≤ (later u).now := by decide +kernel
  obtain ⟨a, b, c, d, e⟩ := h n hn
  exact ⟨waits a, b, c, d, Or.inr e⟩

/-- A unit whose wait has been poked is due, however lately it tested. -/
theorem witness_due_poked : ∃ (s : State) (u : HwUnit) (w : Wait), u.wait = some w ∧ w.last = s.now ∧ s.due u w :=
  let w := { waitAt .inbox 1 with last := 100, poked := true }
  ⟨on { thread [] with wait := some w }, { thread [] with wait := some w }, w, rfl, rfl, Or.inl rfl⟩

/-- STSF at its own allocation, in an empty word, in a full one, and there at the limit. -/
theorem witness_fe_retry : ∀ p ∈ ([([1023], 1), ([1024], 1), ([1024], 65536)] : List (List Nat × Nat)), ∃ q : SpadReq,
    let i : Instr := .stsf h1 .w32 3 2 0
    let w := waitAt .fe p.2
    let u := waiting (sthread 4096 7) i w
    let f : FeWait := ⟨u.id, w.id, false, 0, 4096, 4, 0, 0, false, false⟩
    let s : State := { later u with clusters := [{ oneAlloc with full := p.1, feWaits := [f] }] }
    (s.cluster u.cluster).feWaits = [f] ∧ f.last + 64 * ((s.cluster u.cluster).waitlim.extractLsb' 32 12).toNat ≤ s.now ∧ Waits s u w i ∧ w.faults = [] ∧ spadReq i = some q ∧ q.wait = some false ∧ AloneAtBank s u ∧ u.lanes.length = 1 ∧ u.exec i.hdr = 1 ∧
      w.last + 64 * ((s.cluster u.cluster).waitlim.extractLsb' 32 12).toNat ≤ s.now ∧ (q.ea (u.lane 0)).toNat = 4096 ∧ q.n (u.lane 0) = 4 ∧
      (∀ k, k < 4 → s.mayUse u (4096 + k)) ∧ 4096 % q.align = 0 ∧ touches 4096 4 1024 ∧
      ((s.cluster u.cluster).full.contains 1024 = false ↔ p.1 = [1023]) ∧ (p.2 = 65536 ↔ s.atLimit u w) ∧ u.status = .running ∧ u.widx ≠ 0 := by
  intro p hp
  have h : ∀ p ∈ ([([1023], 1), ([1024], 1), ([1024], 65536)] : List (List Nat × Nat)),
    let i : Instr := .stsf h1 .w32 3 2 0
    let w := waitAt .fe p.2
    let u := waiting (sthread 4096 7) i w
    let f : FeWait := ⟨u.id, w.id, false, 0, 4096, 4, 0, 0, false, false⟩
    let s : State := { later u with clusters := [{ oneAlloc with full := p.1, feWaits := [f] }] }
    (s.unit? u.id = some u ∧ u.wait = some w ∧ u.waitingWord = some i) ∧ (u.team = false ∧ u.n = 1 ∧ u.done = 0) ∧ u.cluster = 0 ∧ u.lanes.length = 1 ∧ u.exec i.hdr = 1 ∧
      w.last + 64 * ((s.cluster u.cluster).waitlim.extractLsb' 32 12).toNat ≤ s.now ∧ (∀ k, k < 4 → s.mayUse u (4096 + k)) ∧
      ((s.cluster u.cluster).full.contains 1024 = false ↔ p.1 = [1023]) ∧
      (p.2 = 65536 ↔ ((s.cluster u.cluster).waitlim.extractLsb' 0 32).toNat ≤ w.fails) ∧ u.status = .running ∧ u.widx ≠ 0 := by
    unfold State.mayUse; decide +kernel
  obtain ⟨a, b, c, d, e, f, g, j, k, l, m⟩ := h p hp
  have ea : ((((waiting (sthread 4096 7) (.stsf h1 .w32 3 2 0) (waitAt .fe p.2)).lane 0).X 2) + (0 : BitVec 18).signExtend 64).toNat = 4096 := by
    show ((((sthread 4096 7).lane 0).X 2) + (0 : BitVec 18).signExtend 64).toNat = 4096
    decide +kernel
  exact ⟨_, rfl, f, waits a, rfl, rfl, rfl, ⟨b, rfl, by show ∀ x ∈ ([] : List L1Line), _; simp, by rw [c]; exact Nat.zero_lt_one, by rw [c]; rfl⟩, d, e, f, ea, rfl, g,
    by decide, by unfold touches; decide, j, k, l, m⟩

/-! ### Witnesses: intervals, fetch and issue -/

def resv : Resv := ⟨⟨.dev, 5⟩, 3, .home, 90, 2⟩

theorem witness_reservation_ends : ∃ (s : State) (u : HwUnit), s.unit? u.id = some u ∧ 0 < u.lanes.length ∧ (u.lane 0).resv = some resv ∧ resv.atC + 1024 ≤ s.now :=
  let u := { thread [] with lanes := [{ laneOf [] with resv := some resv }] }
  ⟨later u, u, by decide +kernel⟩

/-- A waiter of a barrier object that has been woken, one whose interval has passed, and one that is neither. -/
theorem witness_barrier_waiter : ∀ p ∈ ([(true, 100), (false, 100000), (false, 100)] : List (Bool × Nat)),
    let w := waitAt .barrier 1
    let u := { thread [] with wait := some w }
    let b : BarWait := ⟨u.id, w.id, 0, ⟨.dev, 5⟩, 0, p.1, acc (.bar .wait) .held⟩
    let s : State := { on u with now := p.2, barWaits := [b] }
    s.unit? u.id = some u ∧ u.wait = some w ∧ w.kind = .barrier ∧ (b.woken = true ↔ p.1 = true) ∧
      s.accs = [] ∧ (w.last + 64 * ((s.cluster u.cluster).waitlim.extractLsb' 32 12).toNat ≤ s.now ↔ p.2 = 100000) := by
  decide +kernel

theorem witness_fade : ∃ (s : State) (a b c : Stope), (s.fadeint.toList.getD 3 0).toNat ≠ 0 ∧ s.stopes = [a, b, c] ∧ a.die = 3 ∧ a.hit = true ∧ b.hit = false ∧ 1 < b.fade ∧
    c.hit = false ∧ c.fade = 1 :=
  ⟨{ base with stopes := [⟨3, 0, 0, 0, 1, 9, true⟩, ⟨3, 0, 0, 4096, 1, 255, false⟩, ⟨3, 0, 0, 8192, 1, 1, false⟩] }, _, _, _, by decide +kernel, rfl, rfl, rfl, rfl, by decide, rfl, rfl⟩

theorem witness_outstanding_store : ∃ (s : State) (a : Acc) (o : OutWord) (u : HwUnit), s.accs = [a] ∧ a.kind = .spad ∧ a.owner = .out o.id ∧ a.unit = some u.id ∧
    s.unit? u.id = some u ∧ s.outw.find? (fun x => x.id == o.id) = some o ∧ o.instr = .stsx h0 .w32 3 2 0 ∧ o.due = false ∧ a.told = false ∧ a.need ≤ 6 ∧ a.acq = none ∧
    a.dst = none ∧ a.asid = u.asid ∧ a.super = u.super ∧ a.n = wdBytes .w32 ∧ a.va < 0x200000 ∧ (∀ k, k < a.n → s.mayUse u (a.va + k)) ∧ a.va % a.n = 0 ∧
    u.cluster < s.clusters.length :=
  let u := sthread 4096 7
  let a := { acc .spad .held with unit := some u.id, va := 8188, super := u.super }
  let o := outw 1 (.stsx h0 .w32 3 2 0) u.id
  ⟨{ bankOf u oneAlloc with accs := [a], outw := [o] }, a, o, u, by unfold State.mayUse; decide +kernel⟩

/-- An allocation that drains, with and without a command that may land in it. -/
theorem witness_free : ∃ (s t : State) (x : Alloc) (o : OutWord) (k : Cmd), x ∈ (s.cluster 0).allocs ∧ x.live = false ∧ x.base < 0x200000 ∧ s.outw = [o] ∧ o.unit.cluster = 0 ∧
    o.val.toNat = x.base ∧ o.due = false ∧ o.instr = .sfree h0 2 ∧ (∀ cl ∈ s.clusters, ∀ ch ∈ cl.chans, ch.cmds = []) ∧ x ∈ (t.cluster 0).allocs ∧
    k.lands 0 x.base = true ∧ t.clusters.any (fun cl => cl.chans.any (fun ch => ch.cmds.contains k)) = true :=
  let x : Alloc := ⟨4096, 1, false, ⟨0, 0, 0, false, 0⟩, 0⟩
  let o := { outw 1 (.sfree h0 2) ⟨0, 0, 0, false, 0⟩ with val := 4096 }
  let k : Cmd := ⟨0, 0, ⟨0, 0, 7, true, 0⟩, 1, [0x4000100000000008, 4096, 0, 0], 0, false, 0, 0, false, [(0, 4096, 1)], [], [], [], [], 0, 0, 2⟩
  let c : Cluster := { Cluster.reset with allocs := [x] }
  ⟨{ on (sthread 0 0) with clusters := [c], outw := [o] }, { on (sthread 0 0) with clusters := [{ c with chans := [⟨none, [k]⟩] }], outw := [o] }, x, o, k, by decide +kernel⟩

/-! A clause of one word at 0x1000, whose header and word have come. -/

def arriving (hd w : Nat) (pc : Word) : HwUnit :=
  { thread [] with clause := none, pc := pc, fbuf := [(0x400, BitVec.ofNat 32 hd), (0x401, BitVec.ofNat 32 (hd / 2 ^ 32)), (0x402, BitVec.ofNat 32 w), (0x403, BitVec.ofNat 32 (w / 2 ^ 32))] }

/-- Clauses that pass, and that fail with 0x10 (a reserved bit), 0x11 (class 6) and 0x12 (a word of another class). -/
theorem witness_clauses : ∀ p ∈ ([(0, 0, 0x3600186030000001), (1, 0x10, 0x3600186030000001), (0x0C00000000000000, 0x11, 0x3600186030000001), (0x0200000000000000, 0x12, 0x9001142004080010)] : List (Nat × Nat × Nat)),
    let u := arriving p.1 p.2.2 0x1000
    (on u).unit? u.id = some u ∧ u.able = true ∧ u.clause = none ∧ u.fetching = false ∧ IsCanonical u.pc ∧ u.fetched (u.pc.toNat % 2 ^ 57) = some (BitVec.ofNat 64 p.1) ∧
      ((BitVec.ofNat 64 p.1).extractLsb' 60 4).toNat + 1 = 1 ∧ u.fetched (u.pc.toNat % 2 ^ 57 + 8) = some (BitVec.ofNat 64 p.2.2) ∧
      ClauseCause ⟨u.pc, BitVec.ofNat 64 p.1, [BitVec.ofNat 64 p.2.2]⟩ p.2.1 ∧ u.team = false ∧ u.n = 1 ∧ u.active = 1 := by
  intro p hp
  have h : ∀ p ∈ ([(0, 0, 0x3600186030000001), (1, 0x10, 0x3600186030000001), (0x0C00000000000000, 0x11, 0x3600186030000001), (0x0200000000000000, 0x12, 0x9001142004080010)] : List (Nat × Nat × Nat)),
    let u := arriving p.1 p.2.2 0x1000
    (on u).unit? u.id = some u ∧ u.able = true ∧ u.clause = none ∧ u.fetching = false ∧ IsCanonical u.pc ∧ u.fetched (u.pc.toNat % 2 ^ 57) = some (BitVec.ofNat 64 p.1) ∧
      ((BitVec.ofNat 64 p.1).extractLsb' 60 4).toNat + 1 = 1 ∧ u.fetched (u.pc.toNat % 2 ^ 57 + 8) = some (BitVec.ofNat 64 p.2.2) ∧ u.team = false ∧ u.n = 1 ∧ u.active = 1 := by
    unfold IsCanonical; decide +kernel
  have c : ∀ p ∈ ([(0, 0, 0x3600186030000001), (1, 0x10, 0x3600186030000001), (0x0C00000000000000, 0x11, 0x3600186030000001), (0x0200000000000000, 0x12, 0x9001142004080010)] : List (Nat × Nat × Nat)),
      ClauseCause ⟨0x1000, BitVec.ofNat 64 p.1, [BitVec.ofNat 64 p.2.2]⟩ p.2.1 := by
    unfold ClauseCause; decide +kernel
  obtain ⟨a1, a2, a3, a4, a5, a6, a7, a8, a9, a10, a11⟩ := h p hp
  exact ⟨a1, a2, a3, a4, a5, a6, a7, a8, c p hp, a9, a10, a11⟩

/-- A unit that has fetched nothing yet, and one whose target is not canonical. -/
theorem witness_fetch_begins : ∃ u v : HwUnit, (on u).unit? u.id = some u ∧ u.able = true ∧ u.clause = none ∧ u.fetching = false ∧ IsCanonical u.pc ∧ u.fbuf = [] ∧
    (on u).tlb = [] ∧ v.able = true ∧ v.clause = none ∧ ¬IsCanonical v.pc :=
  ⟨{ thread [] with clause := none }, { thread [] with clause := none, pc := 0x200000000000000 }, by unfold IsCanonical; decide +kernel⟩

/-- Two ready threads of a pipeline, of which slot 7 is next. -/
def slotted (sl : Nat) : HwUnit := { thread [] with id := ⟨0, 0, sl, false, 0⟩, slot := sl, seenIdle := false }

theorem witness_split_issue : ∃ (s : State) (u : HwUnit), (s.lastOf 0 0 + 1 + 6) % 8 = 7 ∧ s.at? 0 0 7 false = some u ∧ s.threadReady u = true ∧
    (∀ k, k < 6 → s.at? 0 0 ((s.lastOf 0 0 + 1 + k) % 8) false = none) :=
  ⟨{ on (slotted 7) with units := [slotted 0, slotted 7], lastSlot := [(0, 0, 0)] }, slotted 7, by decide +kernel⟩

/-- A harness with two teams at one clause that may pair, one of them urgent in the second state, and one with none. -/
def teamAt (sl : Nat) (active : LaneSet) (first : Bool) : HwUnit :=
  { teamOf 4 sl [] with active := active, issued1 := first, order := sl, seenIdle := false, clause := some ⟨0x1000, 0x0003000000000000, [0x0F00000000000000]⟩ }
def arbiter (ts : List HwUnit) (h : Harness) : State := { on (teamAt 0 15 true) with units := ts, harnesses := [h] }
def idle4 : Harness := ⟨0, 0, 4, none, 7, none, none, none, 0, none, 2, [], none⟩

theorem witness_arbitration : ∀ ts ∈ ([[teamAt 0 3 true, teamAt 1 12 true], [teamAt 0 15 true, teamAt 7 15 false], []] : List (List HwUnit)),
    (arbiter ts idle4).harness? 0 0 = some idle4 ∧ idle4.pair = none ∧ idle4.curSlot < 8 ∧ ((arbiter ts idle4).teamsOf 0 0).filter HwUnit.ready = ts ∧
      ∀ v ∈ ts, (arbiter ts idle4).unit? v.id = some v ∧ v.slot < 8 := by
  decide +kernel

theorem witness_urgent : ∃ (s : State) (h : Harness) (u v : HwUnit), s.harness? 0 0 = some h ∧ s.at? 0 0 7 true = some u ∧ u.ready = true ∧ u.issued1 = false ∧
    h.holder = some v.id ∧ h.pair = none ∧ s.unit? v.id = some v ∧ v.id ≠ u.id :=
  let h := { idle4 with holder := some (teamAt 0 15 true).id }
  ⟨arbiter [teamAt 0 15 true, teamAt 7 15 false] h, h, teamAt 7 15 false, teamAt 0 15 true, by decide +kernel⟩

theorem witness_auto_split : ∃ (s : State) (u : HwUnit), s.unit? u.id = some u ∧ u.splitpol.getLsbD 7 = true ∧ 64 ≤ u.sparse ∧ s.splittable u = true ∧ u.able = true ∧ u.begun = false ∧ u.widx = 1 :=
  let u := { teamAt 0 15 true with splitpol := 0x90, sparse := 64 }
  ⟨arbiter [u] idle4, u, by decide +kernel⟩

/-- Words that complete with no write, with one of each kind, and with a fault. -/
theorem witness_complete : ∀ o ∈ ([loadWord, { loadWord with writes := [.x 0 5 9] }, { loadWord with writes := [.p 0 5 true] }, { loadWord with writes := [.v 3 5] },
      { loadWord with faults := [⟨0x72, 0, 0x1000, 1, 0, [], 0, 0⟩] }, { loadWord with instr := .sfmtWrite h1 3 2 }, { loadWord with instr := .trel h1 2 }] : List OutWord),
    let u := { thread [] with sb := #v[1, 0, 0, 0, 0, 0] }
    let s : State := { on u with outw := [o] }
    s.outw.find? (fun x => x.id == o.id) = some o ∧ s.unit? o.unit = some u ∧ u.id = o.unit ∧ u.resident = true ∧ o.post = [] ∧ o.slot.toNat ≤ 6 ∧ u.wait = none ∧
      u.team = false ∧ u.status = .running ∧ o.unit.cluster < s.clusters.length := by
  decide +kernel

/-! ### Witnesses: the directory and the dies -/

def pf5 : PAddr := ⟨.dev, 5⟩
def sharers (f : Nat → Sharer) : Vector Sharer 6 := Vector.ofFn (fun i => f i.val)
def exact_ (m : Mask) : Sharer := ⟨m, .exact, false, false⟩

/-- An entry of frame 5 whose home is die 3. -/
def entry5 (st : DirState) (owner : Nat) (busy : Bool) (f : Nat → Sharer) : DirEnt := ⟨pf5, 3, st, owner, if st = .s then 0 else (f owner).mask, busy, false, 0, sharers f⟩
def dirS (l : List DirEnt) : State := { base with dir := l }

theorem dirIdle (l : List DirEnt) : DirIdle (dirS l) pf5 := ⟨⟨rfl, rfl, rfl, rfl⟩, ⟨rfl, rfl, rfl, rfl⟩, ⟨rfl, by show State.hole (dirS []) _ = false; decide +kernel⟩⟩

/-- An RDS of a frame without an entry, from a die that is not its home. -/
theorem witness_rds_new : ∃ die, (dirS []).home pf5 ≠ die ∧ (dirS []).home pf5 < 4 ∧ die < 4 ∧ DirIdle (dirS []) pf5 ∧ (dirS []).accs = [] := by
  have h : (dirS []).home pf5 < 4 := Nat.mod_lt _ (by decide)
  exact ⟨((dirS []).home pf5 + 1) % 4, by omega, h, by omega, dirIdle [], rfl⟩

/-- Entries in S and E: with a sharer, another one, an owner that has the words; and one that is busy. -/
theorem witness_entries :
    (let e := entry5 .s 0 false (fun x => if x = 1 then exact_ 3 else Sharer.none)
     (dirS [e]).entry? pf5 = some e ∧ e.busy = false ∧ e.st = .s ∧ (e.sharer 0).fmt = .exact ∧ (e.sharer 1).mask = 3 ∧ (∀ x, x < 6 → (e.sharer x).fmt = .exact) ∧
       e.onlyOf [1] 3 ∧ ¬e.onlyOf [0] 3) ∧
    (let e := entry5 .e 1 false (fun x => if x = 1 then exact_ 3 else Sharer.none)
     (dirS [e]).entry? pf5 = some e ∧ e.busy = false ∧ e.st ≠ .s ∧ e.owner ≠ 0 ∧ (1 : Mask) &&& (e.sharer e.owner).mask ≠ 0 ∧ e.owner < 6) ∧
    (let e := entry5 .s 0 true (fun _ => Sharer.none)
     (dirS [e]).entry? pf5 = some e ∧ e.busy = true) := by
  unfold DirEnt.onlyOf; decide +kernel

theorem witness_formats : ∀ x, ((entry5 .s 0 false (fun x => if x = 1 then exact_ 3 else Sharer.none)).sharer x).fmt = .exact ∧
    ((entry5 .s 0 false (fun x => if x = 1 then exact_ 3 else Sharer.none)).sharer x).sub = false := by
  intro x
  rcases Nat.lt_or_ge x 6 with h | h
  · revert x; decide +kernel
  · unfold DirEnt.sharer entry5
    rw [List.getD_eq_default _ _ (by simpa using h)]
    exact ⟨rfl, rfl⟩

/-- Owners: one that holds none of the words asked for, one that asks for more itself, one of dirty words beside sharers, and one whose word is stored to. -/
theorem witness_owners :
    (∀ st ∈ ([.e, .m, .o] : List DirState), let e := entry5 st 1 false (fun x => if x = 1 then exact_ 3 else Sharer.none)
      DirIdle (dirS [e]) pf5 ∧ (dirS [e]).entry? pf5 = some e ∧ e.busy = false ∧ e.st ≠ .s ∧ e.owner ≠ 0 ∧ (4 : Mask) &&& (e.sharer e.owner).mask = 0 ∧
        e.onlyOf [1] 4 ∧ (e.sharer 1).fmt = .exact ∧ ((7 : Mask) &&& (e.sharer e.owner).mask ≠ 0)) ∧
    (dirS []).wbufs = [] ∧ (dirS []).accs = [] ∧ (putMask (putsOf 4 4 9)) &&& 3 ≠ 0 := by
  refine ⟨fun st hs => ⟨dirIdle _, ?_⟩, rfl, rfl, by decide +kernel⟩
  revert st
  unfold DirEnt.onlyOf
  decide +kernel

/-- A write-back of words that still stand in their die's buffer. -/
theorem witness_buffered : ∃ (s : State) (e : DirEnt) (b : WbEnt), DirIdle s pf5 ∧ s.wbufs = [b] ∧ s.entry? pf5 = some e ∧ e.busy = false ∧ b.die = 1 ∧ b.pf = pf5 ∧ b.m ≠ 0 ∧
    b.poison = 0 ∧ e.st ≠ .s ∧ e.owner = 1 ∧ (e.sharer 1).mask = 3 ∧ e.onlyOf [1, e.home] 0xFFFFFFFF :=
  let e := entry5 .m 1 false (fun x => if x = 1 then exact_ 3 else Sharer.none)
  ⟨{ dirS [e] with wbufs := [⟨1, 0, pf5, 3, Vector.replicate 32 9, 0⟩] }, e, _, ⟨⟨rfl, rfl, rfl, rfl⟩, ⟨rfl, rfl, rfl, rfl⟩, rfl, by show State.hole (dirS []) _ = false; decide +kernel⟩,
    rfl, by decide +kernel, rfl, rfl, rfl, by decide, rfl, by decide, rfl, by decide +kernel, by unfold DirEnt.onlyOf; decide +kernel⟩

/-- A store of word 2, which a die holds as BF16 in update mode, changes what that die sees or not; a subscription. -/
theorem witness_store_and_subscription :
    (let e := entry5 .s 0 false (fun x => if x = 1 then ⟨4, .bf16, true, true⟩ else Sharer.none)
     (dirS [e]).entry? pf5 = some e ∧ e.sees 0 1 2 0 0x40000000 ∧ ¬e.sees 0 1 2 0 1 ∧ (e.sharer 1).mode = true) ∧
    (let a := { acc .store .sent with puts := putsOf 8 4 9, xl := some ⟨pf5, 0xDF, false, some .none, false⟩ }
     ({ dirS [] with accs := [a] } : State).accs = [a] ∧ a.puts = putsOf 8 4 9) ∧
    (acc (.subscr .bf16 true) .sent).kind = .subscr .bf16 true := by
  unfold DirEnt.sees; decide +kernel

/-- UNSUB and EVC by the only sharer but the home, and beside another; WBK of an owner that held all it had. -/
theorem witness_removals :
    (let e := entry5 .s 0 false (fun x => if x = 3 then exact_ 0xFFFFFFFF else if x = 1 then exact_ 3 else Sharer.none)
     (e.sharer 1).mask &&& ~~~3 = 0 ∧ e.onlyOf [1, e.home] 0xFFFFFFFF ∧ (e.sharer 1).sub = false) ∧
    (let e := entry5 .s 0 false (fun x => if x = 3 then exact_ 0xFFFFFFFF else if x = 1 then ⟨3, .exact, false, true⟩ else if x = 2 then exact_ 1 else Sharer.none)
     (∃ x, x < 6 ∧ x ≠ 1 ∧ x ≠ e.home ∧ (e.sharer x).mask ≠ 0) ∧ (e.sharer 1).sub = true) ∧
    (let e := entry5 .m 1 false (fun x => if x = 3 then exact_ 0xFFFFFFFC else if x = 1 then exact_ 3 else Sharer.none)
     e.st ≠ .s ∧ e.owner = 1 ∧ (e.sharer 1).mask = 3 ∧ e.onlyOf [1, e.home] 0xFFFFFFFF) := by
  unfold DirEnt.onlyOf; decide +kernel

/-- Every slice has failed: a request is answered NAK, and tried again. -/
theorem witness_slices_down : ({ base with slicesDown := List.range 16 } : State).sliceDown pf5 = true ∧ base.nakCount = [] ∧
    ({ base with naks := [(4, 1, .wbk 1 pf5 3 [])] } : State).naks = [(4, 1, .wbk 1 pf5 3 [])] := by
  refine ⟨?_, rfl, rfl⟩
  show (List.range 16).contains (dirSliceOf pf5) = true
  exact List.contains_iff_mem.2 (List.mem_range.2 (Nat.mod_lt _ (by decide)))

def line5 (st : Nat → WordState) : L2Line := ⟨1, 0, 0, pf5, Vector.ofFn (fun i => st i.val), Vector.replicate 32 7, 0, 0xDF, some .none, 0⟩
def lineS (l : L2Line) : State := { base with l2 := [l] }

theorem witness_line : OneLine (lineS (line5 (fun i => if i = 0 then .d else .c))) 1 pf5 (line5 (fun i => if i = 0 then .d else .c)) ∧
    OneLine (lineS (line5 (fun _ => .c))) 1 pf5 (line5 (fun _ => .c)) := by
  have h : ∀ (st : Nat → WordState), (∀ i, i < 32 → ∀ p, st i ≠ .l p) → OneLine (lineS (line5 st)) 1 pf5 (line5 st) := by
    intro st hs
    refine ⟨⟨rfl, rfl, rfl, by decide, rfl⟩, ⟨rfl, rfl, ?_⟩, ⟨rfl, by show State.hole base _ = false; decide +kernel, rfl, rfl⟩⟩
    intro i p
    unfold L2Line.stAt line5
    rcases Nat.lt_or_ge i 32 with hi | hi
    · rw [List.getD_eq_getElem _ _ (by simpa using hi)]
      simpa using hs i hi p
    · rw [List.getD_eq_default _ _ (by simpa using hi)]
      exact fun hh => by cases hh
  exact ⟨h _ (fun i _ p => by split <;> (intro hh; cases hh)), h _ (fun i _ p => by intro hh; cases hh)⟩

/-- DAT that ends a load under .uc, and an UNSUB; each kind of last acknowledgement. -/
theorem witness_dat : ∃ (s : State) (a : Acc) (x : Xl), s.accs = [a] ∧ a.xl = some x ∧ x.pf = pf5 ∧ a.owner = .out loadWord.id ∧ s.outw = [loadWord] ∧ loadWord.due = false ∧
    loadWord.faults = [] ∧ a.told = false ∧ a.stage = .sent ∧ a.fault = 0 ∧ a.shot = false ∧ a.need ≤ 6 ∧ a.kind = .load ∧ a.rt = .uc ∧ a.rel = none ∧ a.waits = none ∧
    a.acq = none ∧ a.dst = some (.x a.lane 5 0) ∧ s.l1 = [] ∧ s.l2 = [] :=
  let x : Xl := ⟨pf5, 0xDF, false, some .none, false⟩
  let a := { acc .load .sent with rt := .uc, xl := some x, dst := some (.x 0 5 0) }
  ⟨{ base with accs := [a], outw := [loadWord] }, a, x, by decide +kernel⟩

theorem witness_acks : ∀ f ∈ ([.victim, .freed 1, .grant (.rdo 1 pf5 3 7), .perform 7] : List TxnFin), ∀ n ∈ ([1, 2] : List Nat),
    let e := entry5 .s 0 true (fun _ => Sharer.none)
    let s : State := { dirS [e] with txns := [⟨5, pf5, n, f⟩], wbufs := [⟨1, 0, pf5, 0, Vector.replicate 32 0, 0⟩], accs := [acc .store .bound], outw := [loadWord] }
    s.txns = [⟨5, pf5, n, f⟩] ∧ s.dirWait = [] ∧ s.l2 = [] ∧ s.errs = [] ∧ s.poison = [] ∧ pf5.space = .dev ∧ (e.sharer 1).fmt = .exact ∧ s.entry? pf5 = some e ∧
      (acc .store .bound).need ≤ 6 ∧ (acc .store .bound).told = false := by
  decide +kernel

/-! ### Witnesses: records -/

/-- A record of one thread with entry 0x1000, as it stands at 0x2000 in the ring of queue 0, and as the hub holds it. -/
def dwsOf (prod : Nat) : List Word := [0x1000, BitVec.ofNat 64 (prod * 2 ^ 32), 0x100000000, 9, 0, 0, 0, 0]
def recCells (prod : Nat) : List Host.Cell := [(0x2001, 0x10), (0x200C, BitVec.ofNat 8 prod), (0x2014, 1), (0x2018, 9)]
def theRec (next : Nat) : Rec := ⟨0, 0, dwsOf 0, 0, 0, [], next, [], [], [], false, 0, true, [], []⟩
def running (mem : List Host.Cell) (recs : List Rec) : State :=
  { base with mem := mem, hub := { base.hub with recs := recs, queues := base.hub.queues.set 0 { LQueue.reset with base := 0x2000, prod := 1, st := .run } } }

theorem oneQueue (mem : List Host.Cell) (recs : List Rec) : OneQueue (running mem recs) 0 := by
  refine ⟨uncached ⟨rfl, rfl, rfl, rfl, rfl, rfl⟩, ⟨by decide, by rfl, ?_, rfl⟩, rfl, ?_⟩
  · have h : ∀ k, k < 64 → k ≠ 0 → ((running [] []).lq k).st = .stop := by decide +kernel
    intro k hk
    show ((running [] []).lq k).st = .stop
    rcases Nat.lt_or_ge k 64 with h64 | h64
    · exact h k h64 hk
    · unfold State.lq
      rw [List.getD_eq_default _ _ (by simpa using h64)]
      rfl
  · intro c
    show ((running [] []).cluster c).rdv = []
    unfold State.cluster
    rcases c with _ | c
    · rfl
    · rfl

/-- Its one instance is to be placed: in the first cluster after the last, 159, which has room. -/
theorem witness_placement : let r := theRec 0
    OneQueue (running ctxMem [r]) 0 ∧ r.q = 0 ∧ r.current = true ∧ r.abort = 0 ∧ r.team = false ∧ r.urgent = false ∧ r.gsz = 0 ∧ r.flags = 0 ∧ r.n = 1 ∧ r.next < r.count ∧
      ((running ctxMem [r]).freeAreas r.ctx false 1).1 = [0] ∧ (running ctxMem [r]).roomIn r (((running ctxMem [r]).hub.lastCl + 1 + 0) % 160) :=
  ⟨oneQueue _ _, rfl, rfl, rfl, by decide +kernel, by decide +kernel, by decide +kernel, by decide +kernel, by decide +kernel, by decide +kernel, by decide +kernel,
    Or.inl (by decide +kernel), 0, 0, by decide, by decide, by decide +kernel⟩

/-- A record that is valid, and one whose number is not the queue's next, are next of their queue; the context's descriptor is valid. -/
theorem witness_acceptance : ∀ prod ∈ ([0, 1] : List Nat),
    let s := running ([(7, 0x80)] ++ recCells prod) []
    let r : Rec := ⟨0, (s.lq 0).next, dwsOf prod, 0, s.now, [], 0, [], [], [], false, 0, true, [], []⟩
    (s.lq 0).prod ≠ (s.lq 0).next ∧ (s.lq 0).ann = [] ∧ (s.lq 0).base % 64 = 0 ∧ (dwsOf prod).length = 8 ∧
      (∀ i, i < 8 → (dwsOf prod).getD i 0 = BitVec.ofNat 64 (s.dw ((s.lq 0).base + 64 * ((s.lq 0).next % 2 ^ (s.lq 0).size) + 8 * i))) ∧
      s.ctxIs r.ctx 0 0x8000000000000000 ∧ (r.valid (s.lq 0).next true = true ↔ prod = 0) ∧ r.flags = 0 ∧ r.dep = none := by
  unfold State.ctxIs; decide +kernel

/-- A record that is over, one that was aborted; their completion at an address that the tables map, away from the block. -/
theorem witness_record_over : ∀ p ∈ ([(0, 0), (0, 0x400)] : List (Nat × Nat)),
    let r := { theRec 1 with retired := [(0, false)], dws := [0x1000, 0, 0x100000000, 9, BitVec.ofNat 64 p.2, 0, 0, 0] }
    let s := mapped 0xDF 0x000FFFFFFFFFF000 (running [] [r])
    let at_ := { s with arg := some (.recordComplete 0 0) }
    s.hub.recs = [r] ∧ s.accs = [] ∧ r.placed = [] ∧ r.groups = [] ∧ s.harnesses = [] ∧ r.count ≤ r.next ∧ r.q < 64 ∧ s.dir = [] ∧ (r.cmp = 0 ↔ p.2 = 0) ∧ IsCanonical r.cmp ∧
      r.cmp &&& 15 = 0 ∧
      at_.walk r.asid (r.cmp.toNat % 2 ^ 57) .write true = (.ok ⟨⟨.dev, 192 + p.2 / 128⟩, 0xDF, false, some .none, false⟩ 4096 0x18DF 0 ⟨.dev, 0x5000⟩, at_) ∧ s.gbusy = [] ∧
      s.hole (0x6000 + p.2) = false ∧ classViolation r.kclass (some .none) = false ∧ (0x6000 + p.2 + 16 ≤ s.blockOf r.q ∨ s.blockOf r.q + 64 ≤ 0x6000 + p.2) ∧
      s.hub.lqbase.toNat % 4096 = 0 := by
  unfold IsCanonical; decide +kernel

/-- A record that is over because its producer was aborted. -/
theorem witness_record_dependency : let r := { theRec 0 with abort := 2, dws := [0x1000, 0, 0x100000000, 9, 0, 0, 0, 2 ^ 25] }
    let s : State := { running [] [r] with hub := { (running [] [r]).hub with ended := [⟨0, 0, 2⟩] } }
    r.any = false ∧ s.depAborted r = true ∧ s.hub.recs = [r] ∧ r.cmp = 0 := by
  decide +kernel

/-- The lowest instance yet to be placed, where the first was killed and its place is free again. -/
theorem witness_placement_next : let r := { theRec 1 with dws := [0x1000, 0, 0x200000000, 9, 0, 0, 0, 0], retired := [(0, true)] }
    OneQueue (running ctxMem [r]) 0 ∧ r.next < r.count ∧ (1 : Nat) < r.count ∧ 1 ∉ r.placed ∧ (∀ q ∈ r.retired, q.1 ≠ 1) ∧ (∀ k, k < 1 → ∃ b, (k, b) ∈ r.retired) ∧
      (running ctxMem [r]).roomIn r (((running ctxMem [r]).hub.lastCl + 1 + 0) % 160) :=
  ⟨oneQueue _ _, by decide +kernel, by decide +kernel, by decide +kernel, by decide +kernel, fun k hk => ⟨true, by
      rw [Nat.lt_one_iff.1 hk]; decide +kernel⟩,
    Or.inl (by decide +kernel), 0, 0, by decide, by decide, by decide +kernel⟩

/-- A tile whose flag, at 0x410, has been met and has not been. -/
theorem witness_tile_flag : ∀ rv ∈ ([0, 1] : List Nat),
    let r := { theRec 0 with dws := [0x1000, 0, 0x100000000, 9, 0, 0x410, BitVec.ofNat 64 (rv * 2 ^ 32 + 0x10000), 0] }
    let s := mapped 0xDF 0x000FFFFFFFFFF000 (running [] [r])
    let at_ : State := { s with arg := some (.tileFlagReread 0), hub := { s.hub with recs := [{ r with flagFrames := [] }] } }
    s.hub.recs = [r] ∧ r.flags ≠ 0 ∧ r.tper ≠ 0 ∧ 0 < r.count ∧ r.count ≤ r.tper ∧ r.released = [] ∧ IsCanonical r.flags ∧
      at_.walk r.asid (r.flags.toNat % 2 ^ 57) .read true = (.ok ⟨⟨.dev, 200⟩, 0xDF, false, some .none, false⟩ 4096 0x18DF 0 ⟨.dev, 0x5000⟩, at_) ∧ r.flags.toNat % 4 = 0 ∧
      (r.relval ≤ memRead s.mem (200 * 128 + r.flags.toNat % 128) 4 ↔ rv = 0) := by
  unfold IsCanonical; decide +kernel

/-- A context of generation 0 that is valid. -/
theorem witness_late_completion : ({ base with mem := [(7, 0x80)] } : State).ctxIs 0 0 0x8000000000000000 ∧ (0x8000000000000000 : Word).getLsbD 63 = true ∧
    ((0x8000000000000000 : Word).extractLsb' 32 16).toNat = 0 ∧ Uncached ({ base with mem := [(7, 0x80)] } : State) :=
  ⟨by unfold State.ctxIs; decide +kernel, by decide, by decide, uncached ⟨rfl, rfl, rfl, rfl, rfl, rfl⟩⟩

/-! ### Witnesses: ports, links, management -/

theorem witness_hub_open : base.hub.ready = true ∧ base.hub.trip = false ∧ base.hub.imbBusy < 64 ∧ Uncached base ∧ base.hub.frames = [] ∧
    (State.reset.hub.ready = false) ∧ (0x20, 0x000FFFFFFFF00000) ∈ plainRegister ∧ ((21 : Word).extractLsb' 0 5).toNat = 21 :=
  ⟨rfl, rfl, by decide, uncached ⟨rfl, rfl, rfl, rfl, rfl, rfl⟩, rfl, rfl, by decide, by decide⟩

/-- Before bring-up, and with nothing of port A under way; an earlier posted write of port A under way. -/
theorem witness_port_a : State.reset.hub.ready = false ∧ base.portClear ∧ ({ State.reset with agenda := [], future := [] } : State).portClear ∧
    ∃ f ∈ ({ base with hub := { base.hub with frames := [⟨0, 1, 3, 0x60, [some 1], 0, false, [], true, false, none, 0⟩] } } : State).hub.frames, f.port = 0 :=
  ⟨rfl, ⟨by show ∀ f ∈ ([] : List InFrame), _; simp, by show ∀ q ∈ ([] : List (Nat × Ev)), _; simp⟩,
    ⟨by show ∀ f ∈ ([] : List InFrame), _; simp, by show ∀ q ∈ ([] : List (Nat × Ev)), _; simp⟩, _, List.mem_singleton.2 rfl, rfl⟩

/-- Port A leads to device memory at the decoder's base; port B through a window entry, and without one nowhere. -/
def portB : State := { base with hub := { base.hub with windows := ((Vector.replicate 256 0).set 0 0xC000000000000000).set 1 0x1000 } }

theorem portClear {s : State} (h : s.hub.frames = [] ∧ s.future = []) : s.portClear :=
  ⟨by rw [h.1]; simp, by rw [h.2]; simp⟩

theorem portsIdle (s : State) (h : s.l1 = [] ∧ s.l2 = [] ∧ s.wbufs = [] ∧ s.dir = [] ∧ s.errs = [] ∧ s.poison = []) (h' : s.gbusy = [] ∧ s.hub.frames = [] ∧ s.hub.reads = [])
    (h'' : s.future = []) : PortsIdle s :=
  ⟨uncached h, h', portClear ⟨h'.2.1, h''⟩⟩

theorem witness_ports : PortsIdle base ∧ base.leadsTo 0 (Config.hdmBase + 0x40) 16 0x40 ∧ base.hole 0x40 = false ∧ 0x40 % 128 + 16 ≤ 128 ∧ 0x40 % 16 = 0 ∧
    PortsIdle portB ∧ portB.leadsTo 1 0x1FF0 16 0x1FF0 ∧ (∀ i dpa, ¬base.admits i 0 4 dpa) ∧ (∀ dpa, ¬base.leadsTo 1 0 4 dpa) := by
  have none_ : ∀ i dpa, ¬base.admits i 0 4 dpa := by
    intro i dpa h
    have h0 : ∀ i, i < 64 → ((base.hub.windows.toList.getD (4 * i + 0) 0).extractLsb' 59 5) ≠ 0x18 := by decide +kernel
    exact h0 i h.1 h.2.1
  refine ⟨portsIdle _ ⟨rfl, rfl, rfl, rfl, rfl, rfl⟩ ⟨rfl, rfl, rfl⟩ rfl, ⟨by decide, Or.inl ⟨rfl, Nat.le_add_right _ _, by rw [Nat.add_sub_cancel_left]⟩⟩, by decide +kernel, by decide, by decide,
    portsIdle _ ⟨rfl, rfl, rfl, rfl, rfl, rfl⟩ ⟨rfl, rfl, rfl⟩ rfl, ⟨by decide, Or.inr ⟨by decide, by decide, 0, ?_, ?_⟩⟩, none_, ?_⟩
  · unfold State.admits; decide +kernel
  · intro k hk; exact absurd hk (Nat.not_lt_zero k)
  · rintro dpa ⟨-, ⟨h, -⟩ | ⟨-, -, i, h, -⟩⟩
    · cases h
    · exact none_ i dpa h

/-- The last byte of each run, too, is in no hole. -/
theorem witness_ports_end : base.hole (0x40 + (16 - 1)) = false ∧ base.hole (deviceBytes - 1 + ([some (1 : Byte)].length - 1)) = false ∧ base.txns = [] ∧ base.gbusy = [] := by
  decide +kernel

/-- A frame that is at its home, and one whose acknowledgement is all that a read waits for. -/
def frame : InFrame := ⟨0, 1, 3, 0x60, [some 1, none, some 2], 0, false, [], true, false, none, 0⟩

theorem witness_frames : ∃ s : State, Uncached s ∧ s.gbusy = [] ∧ s.hub.frames = [frame] ∧ frame.done = false ∧ frame.seen = 0 ∧ s.hole frame.dpa = false ∧
    frame.dpa % 128 + frame.bytes.length ≤ 128 ∧ s.hub.reads = [(9, 5, [(0, 1, 3)])] :=
  ⟨{ base with hub := { base.hub with frames := [frame], reads := [(9, 5, [(0, 1, 3)])] } }, uncached ⟨rfl, rfl, rfl, rfl, rfl, rfl⟩, rfl, rfl, rfl, rfl, by decide +kernel, by decide, rfl⟩

theorem witness_cxl : deviceBytes - 1 + [some (1 : Byte)].length ≤ deviceBytes ∧ base.hole (deviceBytes - 1) = false := by decide +kernel

/-- Link 2 is the route to device 5; nothing leads to device 6 of a part without routes. -/
def linked : State := { base with hub := { base.hub with routes := (Vector.replicate 64 0).set 0 0x800053FFFF000004 } }

theorem witness_link_route : linked.route 5 0 = some 2 ∧ 5 ≠ linked.devnum % 2 ^ 18 ∧ (linked.link 2).unacked.length < 256 ∧ base.route 6 0 = none := by
  refine ⟨?_, by decide +kernel, by decide +kernel, by decide +kernel⟩
  have h : linked.hub.routes.toList = 0x800053FFFF000004 :: List.replicate 63 0 := by decide +kernel
  have up : (List.range 8).filter (fun i => (0x800053FFFF000004 : Word).getLsbD i && ((linked.hub.links.toList[i]?).map (·.up)).getD false) = [2] := by decide +kernel
  have to5 : (decide ((0x800053FFFF000004 : Word).getLsbD 63 = true) && 5 % 2 ^ 18 &&& ((0x800053FFFF000004 : Word).extractLsb' 24 18).toNat ==
    ((0x800053FFFF000004 : Word).extractLsb' 44 18).toNat && !([2] : List Nat).isEmpty) = true := by decide +kernel
  unfold State.route
  rw [h, List.findSome?_cons]
  simp only [up]
  rw [if_pos (by simpa using to5), List.length_singleton, Nat.mod_one]
  rfl

/-- A link with room at its far end, and links without: every slot of the class taken, a flit of the class waiting, a lane in repair. -/
theorem witness_link_room : (let l := linked.link 2
     l.repair = none ∧ l.waiting = [] ∧ (l.slots.filter (fun q => q.1 == 0 && decide (linked.now < q.2))).length < 64) ∧
    (let l : Link := { Link.reset with slots := List.replicate 64 (0, 500) }
     ¬(l.slots.filter (fun q => q.1 == 0 && decide (linked.now < q.2))).length < 64) ∧
    (∃ q ∈ ({ Link.reset with waiting := [(0, [])] } : Link).waiting, q.1 = 0) ∧ ({ Link.reset with repair := some 3 } : Link).repair ≠ none := by
  decide +kernel

/-- A link whose lane 3 has failed fifteen times, and links that are repaired from a spare, by width, and not at all. -/
def linkS (l : Link) : State := { base with hub := { base.hub with links := base.hub.links.set 2 l } }

theorem witness_lanes : (let s := linkS { Link.reset with fails := [(3, 15, 0)] }
     (s.link 2).up = true ∧ (s.link 2).fails = [(3, 15, 0)] ∧ (s.link 2).rx < 0 + 2 ^ 20 ∧ (s.link 2).repair = none ∧ (s.link 2).rx = 0) ∧
    (∀ l ∈ ([⟨true, 16, 1, 0, 0, [], [], some 3, [], []⟩, ⟨true, 16, 0, 0, 0, [], [], some 3, [], []⟩, ⟨true, 8, 0, 0, 0, [], [], some 3, [], []⟩] : List Link),
      ((linkS l).link 2).up = true ∧ ((linkS l).link 2).repair = some 3 ∧ (linkS l).outw = [] ∧ (linkS l).accs = []) := by
  decide +kernel

/-- Messages of another device: a store and a load at an address that leads to device memory; a word of this device that has none to go by. -/
theorem witness_link_access : (let s := mapped 0xDF 0x000FFFFFFFFFF000 base
     Uncached s ∧ s.devnum < 2 ^ 18 ∧ (6 : Nat) < 2 ^ 18 ∧ (0x7000 : Word).getLsbD 51 = false ∧ (0x7000 : Word).toNat < 2 ^ 52 ∧ s.classify (0x7000 : Word).toNat = some ⟨.dev, 0x7000⟩) ∧
    6 ≠ base.devnum % 2 ^ 18 ∧ base.route 6 0 = none ∧ loadWord ∈ ({ base with outw := [loadWord] } : State).outw ∧ loadWord.id < 2 ^ 64 :=
  ⟨⟨uncached ⟨rfl, rfl, rfl, rfl, rfl, rfl⟩, by decide +kernel⟩, by decide +kernel⟩

/-- The brought-up part, with all its clusters: its ceilings are those of reset. -/
def part : State := { State.reset with agenda := [], hub := { Hub.reset with ready := true, stage := 7 } }

theorem witness_sample : part.hub.ready = true ∧ part.hub.trip = false ∧ part.clusters.length = 160 ∧
    (∀ c, c < 160 → part.ceilOf c = part.ceilOf (c / 40 * 40) ∧ part.ceilOf c ≤ 0x2000) ∧ part.hub.clear < 99 ∧ part.hub.busy = false := by
  decide +kernel

theorem witness_commands : ∀ c ∈ ([1, 2, 3, 4] : List Nat), ({ part with hub := { part.hub with busy := true, cmd := c } } : State).hub.busy = true := by
  decide

/-- A tripped part, with a read of BAR0 due and one to come. -/
theorem witness_stilled : Stilled { State.reset with phase := 0, agenda := [.inboundReadRequest 2 0x208 8 1], inputs := [(50, .inboundReadRequest 2 0 8 2)], hub := { Hub.reset with trip := true } } :=
  ⟨rfl, ⟨rfl, rfl, rfl⟩, ⟨rfl, rfl⟩, by intro e he; simp at he; subst he; exact ⟨_, _, _, rfl⟩, by intro x hx; simp at hx; subst hx; intro h; cases h⟩

theorem witness_tripping : (115 : Nat) ≤ 115 ∨ (5000 : Nat) < 1000 := Or.inl (Nat.le_refl _)

/-! ### Words that are written out from the encodings of the spec (02 Tables 2-5 and 2-6, and the tables named with each) -/

def asThread : Env := ⟨false, false, 64⟩
def asTeam : Env := ⟨true, false, 64⟩
def asSuper : Env := ⟨false, true, 64⟩

/-- Control words (05, 06 Tables 6-2 to 6-6). -/
theorem test_decode_control : ∀ p ∈ ([(0x011000003FFFFFFD, .br ⟨1, false, 0⟩ (-3)), (0x080000703FFFFFFB, .loop ⟨0, false, 0⟩ 7 (-5)), (0x0110000800000006, .brDiv ⟨1, false, 0⟩ 6),
    (0x070003E000000000, .ret ⟨0, false, 0⟩ 62), (0x0200000000000000, .join ⟨0, false, 0⟩), (0x0900000000000000, .halt ⟨0, false, 0⟩), (0x0A00000000000000, .yield ⟨0, false, 0⟩),
    (0x0F00000000000000, .nop ⟨0, false, 0⟩), (0x0C00000000000000, .split ⟨0, false, 0⟩)] : List (Word × Instr)), decodeWord asThread p.1 = .ok p.2 := by
  decide +kernel

/-- Integer words (07). -/
theorem test_decode_integer : ∀ p ∈ ([(0x3600186030000001, .addi ⟨0, false, 0⟩ .w64 6 6 1), (0x1400205140300000, .mul ⟨0, false, 0⟩ .w64 8 5 5),
    (0x12000C4140000040, .addsu ⟨0, false, 0⟩ .w8 3 4 5), (0x3100084143300100, .cmp ⟨0, false, 0⟩ .ltu .w64 2 4 5 3), (0x2F001C201330004C, .bfxu ⟨0, false, 0⟩ 7 2 12 19),
    (0x5200240032456789, .lihMid ⟨0, false, 0⟩ 9 0x456789)] : List (Word × Instr)), decodeWord asThread p.1 = .ok p.2 := by
  decide +kernel

/-- Floating-point words (08). -/
theorem test_decode_float : ∀ p ∈ ([(0x43000C4146400000, .fma ⟨0, false, 0⟩ .f32 .dyn false false 3 4 5 6), (0x440228B300400000, .fdiv ⟨0, false, 2⟩ .f32 .dyn false 10 11 12),
    (0x49001C8000743000, .fcvt ⟨0, false, 0⟩ .e4m3 .f32 .rne true false 7 8)] : List (Word × Instr)), decodeWord asThread p.1 = .ok p.2 := by
  decide +kernel

/-- Vector words (09, 02 R33 to R35). -/
theorem test_decode_vector : ∀ p ∈ ([(0x7400094540400000, .vfma ⟨0, false, 0⟩ .f32 ⟨false, 0, false⟩ .dyn 2 20 (.reg 21)),
    (0x64000C310020E000, .vadd ⟨0, false, 0⟩ .w32 ⟨true, 1, true⟩ false 3 3 (.reg 4)), (0x830320414A300000, .vmerge ⟨0, false, 3⟩ .w64 8 4 5 10),
    (0x6001182042180040, .vld ⟨0, false, 1⟩ true false .si .tm .w32 6 2 1 64),
    (0x85A152B0090D2B00, .vpair ⟨20, 2, 20, 21, 4, 0, false⟩ ⟨18, 1, 20, 21, 4, 0, false⟩)] : List (Word × Instr)), decodeWord asThread p.1 = .ok p.2 := by
  decide +kernel

/-- Memory words, barrier words, and scratchpad words (13, 17, 10). -/
theorem test_decode_memory : ∀ p ∈ ([(0x9001142004080010, .ld ⟨0, false, 1⟩ .si .cl 0 .w32 5 2 16), (0x92021C3008080008, .ldacq ⟨0, false, 2⟩ .si .dv 0 .w32 7 3 8),
    (0x9300003248080008, .strel ⟨0, false, 0⟩ .si .dv 0 .w32 9 3 8), (0x95031421880C0000, .amoadd ⟨0, false, 3⟩ .si .dv .w64 5 2 6 0),
    (0xC2011431880C0000, .bararr ⟨0, false, 1⟩ .si .dv 5 3 6 0), (0xC4000031480C0000, .barwait ⟨0, false, 0⟩ .si .dv 3 5 0),
    (0xAB000031A0000010, .stsf ⟨0, false, 0⟩ .w32 6 3 16), (0xAE03142187300240, .samocas ⟨0, false, 3⟩ .w64 5 2 6 7), (0xAF04204002000000, .salloc ⟨0, false, 4⟩ 8 2 4),
    (0xAD00003100000040, .feopf ⟨0, false, 0⟩ 3 4)] : List (Word × Instr)), decodeWord asThread p.1 = .ok p.2 := by
  decide +kernel

/-- A subscription (13 Table 13-10): four bytes wide, of 32 words, in BF16. -/
theorem test_decode_subscription : decodeWord asThread 0x9F01084241F80000 = .ok (.subscr ⟨0, false, 1⟩ .bf16 true 31 2 4 0) := by
  decide +kernel

/-- Queue words, commands of the matrix engine, and supervisor words (11, 12, 15, 16). -/
theorem test_decode_team : ∀ p ∈ ([(0xB401140004000000, .qpop ⟨0, false, 1⟩ 5 1 false 0), (0xB801040000003000, .tclaim ⟨0, false, 1⟩ 1 3),
    (0xBD0400109DE87000, .mmas ⟨0, false, 4⟩ .e4m3 .e4m3 0 1 2 .lo .lo 7), (0xB200000004000010, .qbind ⟨0, false, 0⟩ 1 0x10)] : List (Word × Instr)), decodeWord asTeam p.1 = .ok p.2 := by
  decide +kernel

theorem test_decode_supervisor : ∀ p ∈ ([(0xDE021C8000000000, .errbAdd ⟨0, false, 2⟩ 7 8), (0xDD00004140000001, .reclass ⟨0, false, 0⟩ 4 5 .detect),
    (0xDB011401C0004000, .tlbshootAsid ⟨0, false, 1⟩ 5 7), (0xDC00005000000000, .tlbsync ⟨0, false, 0⟩ 5)] : List (Word × Instr)), decodeWord asSuper p.1 = .ok p.2 := by
  decide +kernel

/-! ### Words that break an encoding rule (02 Table 2-11), and ill-formed terms -/

theorem test_decode_refusals : decodeWord asThread 0 = .error .unassigned ∧ decodeWord asTeam 0x64000C310020E000 = .error .mode ∧
    decodeWord asThread 0xDD00004140000001 = .error .privilege ∧ decodeWord asThread 0x3607186030000001 = .error .scoreboard ∧
    decodeWord asThread 0xB401140004000000 = .error .mode ∧ (∃ c, decodeWord asThread 0x0F00000000000001 = .error c) ∧ (∃ c, decodeWord ⟨true, false, 16⟩ 0x1400205140300000 = .ok c) ∧
    (∃ c, decodeWord ⟨true, false, 16⟩ 0x070003E000000000 = .error c) := by
  refine ⟨by decide +kernel, by decide +kernel, by decide +kernel, by decide +kernel, by decide +kernel, ?_, ?_, ?_⟩
  · exact ⟨.mustBeZero, by decide +kernel⟩
  · exact ⟨.mul ⟨0, false, 0⟩ .w64 8 5 5, by decide +kernel⟩
  · exact ⟨.range, by decide +kernel⟩

def sb (n : BitVec 3) : Hdr := ⟨0, false, n⟩
def noGov : Gov := ⟨false, 0, false⟩

/-- Slots: 7 is no slot; a word that writes a register late needs one; JOIN, JMP, CINCH, SPLIT and TRAP take no guard or no slot. -/
theorem test_ill_formed_slots : ∀ i ∈ ([.nop (sb 7), .add (sb 7) .w64 1 2 3, .ld (sb 0) .si .cl 0 .w32 5 2 0, .fdiv (sb 0) .f32 .dyn false 1 2 3, .bararr (sb 0) .si .dv 5 3 6 0,
    .join ⟨1, false, 0⟩, .jmp ⟨1, false, 0⟩ 0, .split (sb 1), .cinch (sb 1) 2 3 0 0 2, .trap (sb 1) 2 5] : List Instr), i.wf asThread = false := by
  decide

/-- Registers past K in a team, and runs of registers that pass the last (02 R29, 18 R410, R411). -/
theorem test_ill_formed_registers : (∀ i ∈ ([.add (sb 0) .w64 16 2 3, .add (sb 0) .w64 1 16 3, .add (sb 0) .w64 1 2 16, .fma (sb 0) .f32 .dyn false false 1 2 3 16, .sendm (sb 1) .cl 1 2 15,
      .waitm (sb 1) .cl 13, .qpush (sb 0) 1 16 false 0] : List Instr), i.wf ⟨true, false, 16⟩ = false) ∧ (Instr.waitm (sb 1) .cl 61).wf asThread = false ∧
    (Instr.sendm (sb 1) .cl 1 2 63).wf asThread = false := by
  decide

/-- Modes: vector words and CINCH in a team, queue and matrix words in a thread. -/
theorem test_ill_formed_modes : (∀ i ∈ ([.vlen (sb 0) 3, .vadd (sb 0) .w32 noGov false 1 2 (.reg 3), .vld (sb 1) false false .si .cl .w32 5 2 0 0, .vmerge (sb 1) .w64 8 4 5 10,
      .cinch (sb 0) 2 3 0 0 2] : List Instr), i.wf asTeam = false) ∧
    (∀ i ∈ ([.qstat (sb 1) 5 1, .tclaim (sb 1) 1 3, .tzero (sb 0) 1 .lo, .mma (sb 0) .i8 .i8 0 1 2 .lo .lo false] : List Instr), i.wf asThread = false) := by
  decide

/-- Privilege: the supervisor words, and special registers that need it or are not there. -/
theorem test_ill_formed_privilege : ∀ i ∈ ([.eret (sb 0) 2, .wake (sb 1) 1 2 3, .winrd (sb 1) 1 2 3 0, .winwr (sb 0) 1 2 3 0, .ctxsave (sb 1) 1 2, .launchRun (sb 1) 1 2, .preempt (sb 1) 1 2,
    .tlbshootAll (sb 1) 1, .tlbsync (sb 0) 2, .reclass (sb 0) 2 3 .full, .reclassRd (sb 1) 2 3, .errbAdd (sb 1) 2 3, .faultack (sb 0) 2, .movsr (sb 0) 1 0x031, .movrs (sb 0) 0x020 1,
    .movsr (sb 0) 1 0x007] : List Instr), i.wf asThread = false := by
  decide

/-- Operand forms: LOOP with x0; shifts, bit fields and parts out of range; types, roundings and saturations that are reserved; widths; halves; ports. -/
theorem test_ill_formed_operands : (∀ i ∈ ([.loop (sb 0) 0 1, .shli (sb 0) .w8 1 2 8, .roli (sb 0) .w64 1 2 64, .bfx (sb 0) 1 2 60 4, .fadd (sb 0) .i32 .rne false false 1 2 3,
      .fadd (sb 0) .f32 .sr false false 1 2 3, .fmul (sb 0) .f32 .rne true false 1 2 3, .fscale (sb 0) .e4m3 .rne false 1 2 3, .fcmp (sb 0) .ltu .f32 false 1 2 3 0,
      .fcvt (sb 0) .f32 .f32 .rne false false 1 2, .fcvt (sb 0) .i8 .i16 .rne false false 1 2, .fcvt (sb 0) .i8 .f32 .sr false false 1 2, .fcvt (sb 0) .f16 .f32 .rne true false 1 2,
      .fcvtu (sb 0) .f16 .f32 .rne false 1 2, .fcvt (sb 0) .ts8 .f32 .rne false true 1 2, .fclass (sb 0) .ts8 1 2,
      .vadd (sb 0) .w32 ⟨false, 1, false⟩ false 1 2 (.reg 3), .vst (sb 0) false .si .cl .w32 1 2 3 0, .vshl (sb 0) .w8 noGov 1 2 (.imm 8), .vfadd (sb 0) .f32 noGov .rne 1 2 (.imm 1),
      .vfadd (sb 0) .e4m3 noGov .rne 1 2 (.reg 3), .vfcvt (sb 0) .f32 .bf16 noGov .rne false 2 1 2, .vcmp (sb 0) .ltu .f32 noGov 1 2 (.reg 3), .vcmp (sb 0) .lt .e4m3 noGov 1 2 (.reg 3),
      .vredadd (sb 1) .i32 false 0 .rne false 1 2 3, .vredadd (sb 1) .f32 false 0 .rne true 1 2 3, .vredminu (sb 1) .f32 false 0 1 2 3, .vscan (sb 1) .e5m2 noGov .rne 1 2 3,
      .vmerge (sb 1) .w16 1 2 3 4, .amoadd (sb 1) .si .dv .w16 1 2 3 0, .stck (sb 1) .si .dv .w8 1 2 3 0, .pref (sb 0) .uc 0 2 0, .ldsu (sb 1) .w64 1 2 0, .stsf (sb 0) .w8 1 2 0,
      .samoadd (sb 1) .w16 1 2 3, .grpred (sb 1) .xor true 1 2 0] : List Instr), i.wf asThread = false) ∧
    (∀ i ∈ ([.qbind (sb 0) 1 4, .qpush (sb 0) 1 3 false 2, .qpop (sb 1) 5 1 false 2, .tmov (sb 0) 1 2 .whole .lo, .mma (sb 0) .i8 .bf16 0 1 2 .lo .lo false,
      .mma (sb 0) .i8 .i8 0 1 2 .whole .lo false, .mma (sb 0) .bf16 .bf16 0 1 2 .lo .lo true, .mmas (sb 0) .i8 .i8 0 1 2 .lo .lo 3, .tcvt (sb 0) .i16 .f32 .rne false 0 1 .whole .whole,
      .tcvt (sb 0) .f32 .f32 .rne false 0 1 .whole .whole, .tcvt (sb 0) .f32 .e4m3 .rne false 0 1 .lo .whole] : List Instr), i.wf asTeam = false) := by
  decide

/-- VPAIR: a type outside an operation's set, a governor without its bit, a shift out of range, four registers read. -/
theorem test_ill_formed_pairs : ∀ p ∈ ([(⟨0, 1, 2, 3, 4, 0, false⟩, ⟨0, 1, 2, 3, 2, 0, false⟩), (⟨0, 1, 2, 3, 2, 5, false⟩, ⟨0, 1, 2, 3, 2, 0, false⟩),
    (⟨14, 1, 2, 8, 0, 0, false⟩, ⟨0, 1, 2, 2, 2, 0, false⟩), (⟨0, 1, 2, 3, 2, 0, false⟩, ⟨0, 1, 4, 5, 2, 0, false⟩)] : List (VHalf × VHalf)), (Instr.vpair p.1 p.2).wf asThread = false := by
  decide

/-! ### Single steps (expected results by hand from the rule named) -/

/-- The unit after one instruction of it. -/
def after (i : Instr) (u : HwUnit) : HwUnit :=
  match exec i (on u) with
  | .next t => (t.unit? u.id).getD u
  | _ => u
def xAfter (i : Instr) (l : List (Nat × Nat)) (r : Xr) : Word := ((after i (thread l)).lane 0).X r

/-- The edges of 07 Table 7-8; a 64-bit sum wraps, and x0 stays 0. -/
theorem test_integer_edges : ∀ p ∈ ([(.add (sb 0) .w32 3 4 5, 0x17FFFFFFF, 1, 0xFFFFFFFF80000000), (.adds (sb 0) .w8 3 4 5, 100, 100, 0x7F), (.addsu (sb 0) .w8 3 4 5, 200, 100, 0xFF),
    (.subsu (sb 0) .w8 3 4 5, 5, 9, 0), (.mulh (sb 0) .w8 3 4 5, 0x80, 0x80, 0x40), (.mulhu (sb 0) .w8 3 4 5, 0xFF, 0xFF, 0xFE), (.div (sb 0) .w32 3 4 5, 2 ^ 64 - 7, 2, 0xFFFFFFFFFFFFFFFD),
    (.rem (sb 0) .w32 3 4 5, 2 ^ 64 - 7, 2, 0xFFFFFFFFFFFFFFFF), (.div (sb 0) .w32 3 4 5, 0x80000000, 0xFFFFFFFF, 0xFFFFFFFF80000000), (.rem (sb 0) .w32 3 4 5, 0x80000000, 0xFFFFFFFF, 0),
    (.divu (sb 0) .w32 3 4 5, 9, 0, 0xFFFFFFFF), (.rem (sb 0) .w64 3 4 5, 7, 0, 7), (.sra (sb 0) .w16 3 4 5, 0x8000, 4, 0xFFFFFFFFFFFFF800), (.shl (sb 0) .w32 3 4 5, 1, 33, 2),
    (.rol (sb 0) .w8 3 4 5, 0x81, 1, 3), (.clz (sb 0) .w32 3 4, 0x10000, 0, 15), (.abs (sb 0) .w32 false 3 4, 0x80000000, 0, 0xFFFFFFFF80000000),
    (.abs (sb 0) .w32 true 3 4, 0x80000000, 0, 0x7FFFFFFF), (.addi (sb 0) .w64 3 4 1, 2 ^ 64 - 1, 0, 0)] : List (Instr × Nat × Nat × Word)),
    xAfter p.1 [(4, p.2.1), (5, p.2.2.1)] 3 = p.2.2.2 := by
  decide +kernel

theorem test_x0 : xAfter (.add (sb 0) .w64 0 4 5) [(4, 1), (5, 1)] 0 = 0 := by
  decide +kernel

/-- LOOP counts down and goes back five words of code from the header; VLEN answers 512 (06 R123, 09 R177). -/
theorem test_loop_vlen : (after (.loop (sb 0) 7 (-5)) (thread [(7, 2)])).pc = 0xFD8 ∧ xAfter (.loop (sb 0) 7 (-5)) [(7, 2)] 7 = 1 ∧ xAfter (.vlen (sb 0) 9) [] 9 = 512 := by
  decide +kernel

/-- In BF16, 1 plus 1 is 2; the largest finite number plus itself is infinity, with the overflow and inexact events (04, 08 R157). -/
theorem test_fadd : xAfter (.fadd (sb 0) .bf16 .rne false false 3 4 5) [(4, 0x3F80), (5, 0x3F80)] 3 = 0x4000 ∧
    xAfter (.fadd (sb 0) .bf16 .rne false false 3 4 5) [(4, 0x7F7F), (5, 0x7F7F)] 3 = 0x7F80 := by
  decide +kernel

/-- TRAP halts its thread with cause 0xE0 at the word; a word past K in a clause is not executed by a guard that is false (18 R407, 02 R28). -/
theorem test_trap_guard : (after (.trap (sb 0) 2 5) (thread [(2, 7)])).status = .halted ∧ ((after (.trap (sb 0) 2 5) (thread [(2, 7)])).frec.getD 0 0).extractLsb' 56 8 = 0xE0 ∧
    xAfter (.addi ⟨1, false, 0⟩ .w64 6 6 1) [(6, 5)] 6 = 5 ∧ xAfter (.addi ⟨1, true, 0⟩ .w64 6 6 1) [(6, 5)] 6 = 6 := by
  decide +kernel

/-- The decoder and the step on a word laid out as the opcode table numbers it: ADDI.d x6, x6, 1 at reset. -/
theorem test_fetch_word : decodeTableWord 64 0x3600186030000001 = some (.addi ⟨0, false, 0⟩ .w64 6 6 1) := by
  decide +kernel

end Sys2Proof.Tests
end

section
/-! NOP has no effect but its issue, and YIELD gives way (06 R127): the bookkeeping of a word, and the two words. -/

namespace Sys2Proof.Machine

/-! ### What the bookkeeping of a word does with a YIELD -/

@[simp] theorem HwUnit.incSb_yieldDue (u : HwUnit) (a : BitVec 3) : (u.incSb a).yieldDue = u.yieldDue := by
  unfold HwUnit.incSb; split <;> rfl

@[simp] theorem HwUnit.incSb_yielded (u : HwUnit) (a : BitVec 3) : (u.incSb a).yielded = u.yielded := by
  unfold HwUnit.incSb; split <;> rfl

/-- A region that begins sets only its own entry, its taint and its first count of progress (18 R401). -/
theorem HwUnit.enter_eq (u : HwUnit) : ∃ r b p, u.enter = { u with idem := r, taint := b, prog0 := p } := by
  unfold HwUnit.enter
  split
  · split
    · exact ⟨_, _, _, rfl⟩
    · exact ⟨u.idem, u.taint, u.prog0, rfl⟩
  · exact ⟨u.idem, u.taint, u.prog0, rfl⟩

/-- A team whose clause holds a YIELD that has taken effect has yielded once the clause retires (06 R114). -/
theorem HwUnit.retire_yielded {u : HwUnit} (hteam : u.team = true) (hdue : u.yieldDue = true) (c : Clause) (pc : Word) :
    (u.retire c pc).yielded = true := by
  simp [HwUnit.retire, hteam, hdue]

theorem HwUnit.advance_within {u : HwUnit} {c : Clause} (ha : u.after = none) (hc : u.clause = some c)
    (hw : u.widx < c.words.length) : u.advance .seq = { u with widx := u.widx + 1, begun := true } := by
  simp [HwUnit.advance, ha, hc, Nat.not_le.mpr hw]

theorem HwUnit.advance_last {u : HwUnit} {c : Clause} (ha : u.after = none) (hc : u.clause = some c)
    (hw : c.words.length ≤ u.widx) : u.advance .seq = u.retire c c.next := by
  simp [HwUnit.advance, ha, hc, hw]

/-- What a word counts as it issues is apart from its clause and from what a YIELD has set. -/
theorem HwUnit.issue_eq_advance (u : HwUnit) (i : Instr) (e : LaneSet) (nx : Next) : ∃ v : HwUnit, u.issue i e nx = v.advance nx ∧
    v.after = u.after ∧ v.clause = u.clause ∧ v.widx = u.widx ∧ v.team = u.team ∧ v.yieldDue = u.yieldDue ∧ v.yielded = u.yielded := by
  obtain ⟨r, b, p, he⟩ := u.enter_eq
  refine ⟨_, rfl, ?_⟩
  simp only [he, and_self]

/-- A word before the last of its clause leaves what a YIELD has set. -/
theorem HwUnit.issue_within {u : HwUnit} {c : Clause} (ha : u.after = none) (hc : u.clause = some c) (hw : u.widx < c.words.length)
    (i : Instr) (e : LaneSet) : (u.issue i e .seq).yieldDue = u.yieldDue ∧ (u.issue i e .seq).yielded = u.yielded := by
  obtain ⟨v, hv, va, vc, vw, -, vdue, vdone⟩ := u.issue_eq_advance i e .seq
  rw [hv, HwUnit.advance_within (va.trans ha) (vc.trans hc) (by rwa [vw])]
  exact ⟨vdue, vdone⟩

/-- With the last word of its clause a team yields where a YIELD is due. -/
theorem HwUnit.issue_last {u : HwUnit} {c : Clause} (ha : u.after = none) (hc : u.clause = some c) (hw : c.words.length ≤ u.widx)
    (hteam : u.team = true) (hdue : u.yieldDue = true) (i : Instr) (e : LaneSet) : (u.issue i e .seq).yielded = true := by
  obtain ⟨v, hv, va, vc, vw, vteam, vdue, -⟩ := u.issue_eq_advance i e .seq
  rw [hv, HwUnit.advance_last (va.trans ha) (vc.trans hc) (by rwa [vw])]
  exact HwUnit.retire_yielded (vteam.trans hteam) (vdue.trans hdue) c c.next

/-! ### The unit after a fixed-latency word -/

/-- The unit that a fixed-latency word leaves: its bookkeeping is done, and its counter has counted the word. -/
theorem State.unit?_issueFixed {s : State} {u v : HwUnit} (i : Instr) (e : LaneSet) (nx : Next) (hu : s.unit? u.id = some u)
    (hid : v.id = u.id) (hb : v.bad = []) :
    ∃ n, (s.issueFixed u v i e nx).unit? u.id = some (({ v with sparse := n }.issue i e nx).incSb i.hdr.sb) := by
  obtain ⟨hs, n, hi⟩ := s.issueAs_eq u v i e nx
  refine ⟨n, ?_⟩
  obtain ⟨-, -, hid', -⟩ := ({ v with sparse := n } : HwUnit).issue_facts i e nx
  have hk : ({ v with sparse := n }.issue i e nx).id = u.id := hid'.trans hid
  have hset : (s.setUnit ({ v with sparse := n }.issue i e nx)).unit? u.id = some ({ v with sparse := n }.issue i e nx) := by
    rw [← hk] at hu ⊢
    exact State.unit?_setUnit hu
  unfold State.issueFixed
  rw [HwUnit.repair_good hb, hi]
  by_cases h0 : i.hdr.sb = 0
  · rw [if_pos h0, HwUnit.incSb, if_pos h0]
    exact hset
  · rw [if_neg h0]
    exact State.unit?_modUnit (f := fun w => w.incSb i.hdr.sb) hset ((HwUnit.incSb_id _ _).trans hk)

/-! ### NOP and YIELD -/

theorem exec_nop (h : Hdr) (s : State) :
    exec (.nop h) s = frame false (.nop h) s (fun u e s => s.issueFixed u u (.nop h) e) := rfl

/-- The unit as a YIELD at the cycle `now` makes it: a team is to yield for its clause, a thread sleeps 7 core cycles (06 R127). -/
def HwUnit.givesWay (u : HwUnit) (now : Nat) : HwUnit :=
  if u.team then { u with yieldDue := true } else { u with awake := now + 8 }

theorem HwUnit.givesWay_team {u : HwUnit} (h : u.team = true) (now : Nat) : u.givesWay now = { u with yieldDue := true } := if_pos h

theorem HwUnit.givesWay_thread {u : HwUnit} (h : u.team = false) (now : Nat) : u.givesWay now = { u with awake := now + 8 } := by
  simp [HwUnit.givesWay, h]

theorem HwUnit.samePlace_givesWay (u : HwUnit) (now : Nat) : u.SamePlace (u.givesWay now) := by
  unfold HwUnit.givesWay
  split <;> exact ⟨rfl, rfl, rfl, rfl, rfl, rfl, rfl⟩

theorem HwUnit.givesWay_bad (u : HwUnit) (now : Nat) : (u.givesWay now).bad = u.bad := by
  unfold HwUnit.givesWay
  split <;> rfl

theorem exec_yield (h : Hdr) (s : State) :
    exec (.yield h) s = frame false (.yield h) s (fun u e s => s.issueFixed u (u.givesWay s.now) (.yield h) e) := rfl

theorem HwUnit.awake_of_withoutPlace {u v : HwUnit} (h : u.withoutPlace = v.withoutPlace) : u.awake = v.awake := by
  have ha := congrArg HwUnit.awake h
  exact ha

/-- A thread that is awake from a later cycle on is not ready. -/
theorem State.threadReady_asleep {s : State} {u : HwUnit} (h : s.now < u.awake) : s.threadReady u = false := by
  simp [State.threadReady, Nat.not_le.mpr h]

/-- The clause of a team after its YIELD: the yield is due until the clause ends, and done where this word ends it. -/
theorem HwUnit.issue_yield {u : HwUnit} {c : Clause} (hteam : u.team = true) (ha : u.after = none) (hc : u.clause = some c)
    (n : Nat) (i : Instr) (e : LaneSet) :
    let w := ({ u with yieldDue := true, sparse := n } : HwUnit).issue i e .seq
    (u.widx < c.words.length → w.yieldDue = true ∧ w.yielded = u.yielded) ∧ (c.words.length ≤ u.widx → w.yielded = true) :=
  ⟨fun hw => HwUnit.issue_within (u := { u with yieldDue := true, sparse := n }) ha hc hw i e,
    fun hw => HwUnit.issue_last (u := { u with yieldDue := true, sparse := n }) ha hc hw hteam rfl i e⟩

/-- Settles O7: each word issues by the rule of fixed-latency words. What YIELD sets survives the word's bookkeeping until the
clause retires, and of a thread it is a place in time that no bookkeeping moves. -/
theorem nopHasNoEffectAndYieldGivesWay : Obligations.NopHasNoEffectAndYieldGivesWay := by
  unfold Obligations.NopHasNoEffectAndYieldGivesWay
  refine ⟨fun h s u e hr he => ⟨s.issueFixed u u (.nop h) e, ?_, ?_⟩, fun h s u e hr he => ?_⟩
  · rw [exec_nop]
    exact frame_ready hr (.inl he) _
  · exact State.issueFixed_issued hr.unit ⟨rfl, rfl, rfl, rfl, rfl, rfl, rfl⟩ hr.good hr.slot
  have hp := u.samePlace_givesWay s.now
  have hb : (u.givesWay s.now).bad = [] := (u.givesWay_bad s.now).trans hr.good
  have hi := State.issueFixed_issued (e := e) (nx := .seq) hr.unit hp hb hr.slot
  obtain ⟨w, hw, hplace, -⟩ := hi.unit
  refine ⟨_, _, w, (exec_yield h s).trans (frame_ready hr (.inl he) _), hi, hw, fun hteam => ?_, fun hthread => ?_⟩
  · obtain ⟨n, hn⟩ := State.unit?_issueFixed (.yield h) e .seq hr.unit hp.1 hb
    obtain rfl := Option.some.inj (hw.symm.trans hn)
    rw [HwUnit.givesWay_team hteam]
    refine ⟨rfl, fun c ha hc => ?_, fun x c pc hx hd => HwUnit.retire_yielded hx hd c pc⟩
    simpa using HwUnit.issue_yield hteam ha hc n (.yield h) e
  · rw [HwUnit.givesWay_thread hthread] at hplace ⊢
    have hawake : w.awake = s.now + 8 := HwUnit.awake_of_withoutPlace hplace
    exact ⟨rfl, fun s' hs' => State.threadReady_asleep (by omega)⟩

end Sys2Proof.Machine
end

section
/-! VLEN answers 512, and its word holds nothing else below bit 48 (09 R177): which words decode to a VLEN. -/

namespace Sys2Proof

/-! ### The parts of the decoder that read no VLEN -/

/-- VLEN, as the decoder's parts are told from it. -/
def Instr.isVlen : Instr → Bool
  | .vlen .. => true
  | _ => false

/-- What a part of the decoder reads is no VLEN. -/
def noVlen (o : Option Dec) : Bool := o.all (fun x => !x.i.isVlen)

theorem noVlen_some (x : Dec) : noVlen (some x) = !x.i.isVlen := rfl

/-- The cases that split, here and in the rows below, are the opcodes whose word has forms that a field chooses: in this row BR and
MOVRS. Every other opcode names its word. -/
theorem noVlen_decRow0 (e : Env) (r : Raw) : noVlen (decRow0 e r) = true := by
  unfold decRow0
  split
  case h_1 | h_14 => dsimp only [noVlen_some]; split <;> rfl
  all_goals rfl

theorem isVlen_intMk (op : Nat) (sub : BitVec 5) (h : Hdr) (t : Wd) (d a b : Xr) :
    (((intMk op sub).getD .add) h t d a b).isVlen = false := by
  unfold intMk
  split <;> rfl

theorem noVlen_decInt (e : Env) (r : Raw) : noVlen (some (decInt e r)) = true := by
  simp [noVlen_some, decInt, isVlen_intMk]

/-- EXT and BFX have forms; the row's other opcodes are the two-operand words. -/
theorem noVlen_decRow23 (e : Env) (r : Raw) : noVlen (decRow23 e r) = true := by
  unfold decRow23
  split
  case h_7 | h_8 => dsimp only [noVlen_some, decUnary, decField]; split <;> rfl
  case h_25 => exact noVlen_decInt e r
  all_goals rfl

/-- FCVT and LIH have forms. -/
theorem noVlen_decRow45 (e : Env) (r : Raw) : noVlen (decRow45 e r) = true := by
  unfold decRow45
  split
  case h_10 | h_19 => dsimp only [noVlen_some]; split <;> rfl
  all_goals rfl

/-- VADD, VSUB, VMULH, VFCVT, VBCAST, VREDMIN, VREDMAX and the merges have forms; 0x7A is VLEN itself. -/
theorem noVlen_decVec {r : Raw} (hr : r.op.toNat ≠ 0x7A) : noVlen (decVec r) = true := by
  unfold decVec
  split
  case h_5 | h_6 | h_8 | h_24 | h_29 | h_33 | h_34 | h_36 | h_37 =>
    dsimp only [noVlen_some, decVInt, decVRed, decVMerge]; split <;> rfl
  case h_27 h => exact absurd h hr
  all_goals rfl

/-- The atomics have a signed and an unsigned form. -/
theorem noVlen_decRow9 (e : Env) (r : Raw) : noVlen (decRow9 e r) = true := by
  unfold decRow9
  split
  case h_6 | h_7 | h_8 | h_9 | h_10 | h_11 | h_12 | h_13 => dsimp only [noVlen_some, decAmo, decMem]; split <;> rfl
  all_goals rfl

theorem isVlen_samoMk (sub : BitVec 5) (h : Hdr) (t : Wd) (d a b : Xr) :
    (((samoMk sub).getD .samoadd) h t d a b).isVlen = false := by
  unfold samoMk
  split <;> rfl

/-- LDS, FEOP, SAMO and SFMT have forms. -/
theorem noVlen_decScratch (e : Env) (r : Raw) : noVlen (decScratch e r) = true := by
  unfold decScratch
  split
  case h_1 | h_7 | h_11 => dsimp only [noVlen_some, decSpad]; split <;> rfl
  case h_8 =>
    dsimp only [noVlen_some]
    split
    · rfl
    · rw [isVlen_samoMk]; rfl
  all_goals rfl

/-- QBIND and QDRAIN have forms. -/
theorem noVlen_decQueue (e : Env) (r : Raw) : noVlen (decQueue e r) = true := by
  unfold decQueue
  split
  case h_1 | h_6 => dsimp only [noVlen_some]; split <;> rfl
  all_goals rfl

/-- TMOV and TJOIN have forms. -/
theorem noVlen_decMatrix (e : Env) (r : Raw) : noVlen (decMatrix e r) = true := by
  unfold decMatrix
  split
  case h_4 | h_9 => dsimp only [noVlen_some, decMma]; split <;> rfl
  all_goals rfl

/-- GRPVOTE has forms. -/
theorem noVlen_decGroup (e : Env) (r : Raw) : noVlen (decGroup e r) = true := by
  unfold decGroup
  split
  case h_7 => dsimp only [noVlen_some]; split <;> rfl
  all_goals rfl

/-- WAITM, LAUNCH, PREEMPT, TLBSHOOT, RECLASS, ERRB and FAULTACK have forms. -/
theorem noVlen_decRowD (e : Env) (r : Raw) : noVlen (decRowD e r) = true := by
  unfold decRowD
  dsimp only [decSys]
  split
  case h_5 | h_10 | h_11 | h_12 | h_14 | h_15 | h_16 => dsimp only [noVlen_some]; split <;> rfl
  all_goals rfl

/-- Outside opcode 0x7A no row of the opcode map (02 Table 2-10) reads a VLEN. -/
theorem noVlen_decRaw (e : Env) {r : Raw} (hr : r.op.toNat ≠ 0x7A) : noVlen (decRaw e r) = true := by
  simp only [decRaw, apply_ite noVlen, noVlen_decRow0, noVlen_decInt, noVlen_decRow23, noVlen_decRow45, noVlen_decVec hr, noVlen_decRow9,
    noVlen_decScratch, noVlen_decQueue, noVlen_decMatrix, noVlen_decGroup, noVlen_decRowD, ite_self]

theorem op_of_decRaw_vlen {e : Env} {r : Raw} {x : Dec} (h : decRaw e r = some x) (hx : x.i.isVlen = true) : r.op = 0x7A#8 := by
  by_contra hr
  have hn := noVlen_decRaw e (fun ht => hr (BitVec.eq_of_toNat_eq ht))
  rw [h, noVlen_some, hx] at hn
  exact Bool.false_ne_true hn

/-! ### The word of a VLEN -/

/-- A word that is accepted is read as its row says, and its must-be-zero fields are zero (02 R39). -/
theorem Dec.result_ok {e : Env} {x : Dec} {i : Instr} (h : x.result e = .ok i) : x.i = i ∧ x.mbz = false := by
  unfold Dec.result at h
  split_ifs at h with _ _ _ hz
  exact ⟨Except.ok.inj h, Bool.eq_false_iff.mpr hz⟩

theorem decRaw_vlen (e : Env) {r : Raw} (hr : r.op = 0x7A#8) :
    decRaw e r = some { i := .vlen r.hdr r.d, mode := some false, mbz := r.a != 0 || r.b != 0 || r.lo != 0, slot := r.sbAny } := by
  simp [decRaw, decVec, hr]

/-- Two adjacent fields that are zero are one field that is zero. -/
theorem extractLsb'_eq_zero_of_adjacent {n s k l : Nat} {w : BitVec n} (hlo : w.extractLsb' s k = 0) (hhi : w.extractLsb' (s + k) l = 0) :
    w.extractLsb' s (l + k) = 0 := by
  have hj := BitVec.extractLsb'_append_extractLsb'_eq_extractLsb' (x := w) (len₂ := l) (start₂ := s + k) (start₁ := s) (len₁ := k) rfl
  rw [hlo, hhi] at hj
  simpa using hj.symm

/-- Fields a and b and what stands below them are the bits below field d (02 Table 2-5). -/
theorem Raw.below_d_eq_zero {w : Word} (ha : (Raw.unpack w).a = 0) (hb : (Raw.unpack w).b = 0) (hlo : (Raw.unpack w).lo = 0) :
    w.extractLsb' 0 42 = 0 :=
  extractLsb'_eq_zero_of_adjacent (k := 36) (extractLsb'_eq_zero_of_adjacent (k := 30) hlo hb) ha

theorem decodeWord_vlen {e : Env} {w : Word} {h : Hdr} {d : Xr} (hw : decodeWord e w = .ok (.vlen h d)) :
    w.extractLsb' 56 8 = 0x7A ∧ w.extractLsb' 42 6 = d ∧ w.extractLsb' 0 42 = 0 := by
  unfold decodeWord at hw
  split at hw
  · exact nomatch (Dec.result_ok hw).1
  split at hw
  · cases hw
  next x hx =>
    obtain ⟨hi, hz⟩ := Dec.result_ok hw
    have hop := op_of_decRaw_vlen hx (by rw [hi]; rfl)
    rw [decRaw_vlen e hop] at hx
    obtain rfl := Option.some.inj hx
    obtain ⟨-, hd⟩ := Instr.vlen.inj hi
    simp only [Bool.or_eq_false_iff, bne_eq_false_iff_eq] at hz
    obtain ⟨⟨ha, hb⟩, hlo⟩ := hz
    exact ⟨hop, hd, Raw.below_d_eq_zero ha hb hlo⟩

end Sys2Proof

namespace Sys2Proof.Machine

theorem exec_vlen (h : Hdr) (d : Xr) (s : State) : exec (.vlen h d) s = laneWord (.vlen h d) s (fun l => l.setX d 512) := rfl

/-- Settles O6: VLEN issues by the rule of the fixed-latency words that write one register, and only opcode 0x7A with zeros below its
d field reads as a VLEN. -/
theorem vlenWrites512AndHasNoOtherField : Obligations.VlenWrites512AndHasNoOtherField := by
  unfold Obligations.VlenWrites512AndHasNoOtherField
  refine ⟨fun h d s u e hr he => ?_, fun e w h d hw => decodeWord_vlen hw⟩
  obtain ⟨t, ht, hi⟩ := laneWord_issued hr he (fun l => l.setX d 512)
  exact ⟨t, _, (exec_vlen h d s).trans ht, hi, HwUnit.mapLanes_writesX u e d (fun _ _ => 512)⟩

end Sys2Proof.Machine
end

section
/-! What an indivisible step on a datum computes (13 R289; 17 R364, R366): the atomics in the operations of bit vectors, and the
barrier words on the fields of their object. -/

namespace Sys2Proof.Machine

/-! ### Signed readings of a datum -/

/-- The signed reading of a bit vector's bits is its own. -/
theorem sgn_toNat {n : Nat} (hn : 0 < n) (x : BitVec n) : sgn x.toNat n = x.toInt := by
  have hx := x.isLt
  have hpow : 2 ^ n = 2 * 2 ^ (n - 1) := by rw [mul_comm, Nat.two_pow_pred_mul_two hn]
  rw [sgn, BitVec.toInt_eq_toNat_cond, Nat.mod_eq_of_lt hx, if_neg hn.ne']
  split_ifs <;> omega

/-- Sign extension takes a datum to the word of the same signed reading. -/
theorem sext_eq_ofInt_sgn {n : Nat} (hn : n ≤ 64) (v : Nat) : sext v n = BitVec.ofInt 64 (sgn v n) := by
  have hpow : 2 ^ n ≤ 2 ^ 64 := Nat.pow_le_pow_right (by omega) hn
  have hlt : v % 2 ^ n < 2 ^ n := Nat.mod_lt _ (by positivity)
  simp only [sext, sgn]
  split_ifs
  · rfl
  · apply BitVec.eq_of_toNat_eq
    rw [BitVec.toNat_ofNat, BitVec.toNat_ofInt]
    omega
  · exact (BitVec.ofInt_natCast 64 _).symm

theorem sext_toNat {n : Nat} (hpos : 0 < n) (hn : n ≤ 64) (x : BitVec n) : sext x.toNat n = x.signExtend 64 := by
  rw [sext_eq_ofInt_sgn hn, sgn_toNat hpos, BitVec.signExtend]

/-! ### Atomics (13 R289) -/

/-- The numbers that the model computes with are the bits of the operation; at a tie the signed maximum is either operand. -/
theorem amoNew_toNat {n : Nat} (hn : 0 < n) (op : AmoOp) (old b c : BitVec n) :
    amoNew op n old.toNat b.toNat c.toNat = (amoBits op old b c).toNat := by
  cases op with
  | add => exact (BitVec.toNat_add old b).symm
  | and => exact (BitVec.toNat_and old b).symm
  | or => exact (BitVec.toNat_or old b).symm
  | xor => exact (BitVec.toNat_xor old b).symm
  | swap => rfl
  | min =>
    simp only [amoNew, amoBits, sgn_toNat hn, BitVec.sle_iff_toInt_le, apply_ite BitVec.toNat]
  | max =>
    have htie : old.toInt = b.toInt → old.toNat = b.toNat := fun h => congrArg BitVec.toNat (BitVec.eq_of_toInt_eq h)
    simp only [amoNew, amoBits, sgn_toNat hn, BitVec.sle_iff_toInt_le, apply_ite BitVec.toNat]
    split_ifs <;> omega
  | minu =>
    simp only [amoNew, amoBits, BitVec.ule_iff_toNat_le, apply_ite BitVec.toNat]
    exact Nat.min_def
  | maxu =>
    simp only [amoNew, amoBits, BitVec.ule_iff_toNat_le, apply_ite BitVec.toNat]
    exact Nat.max_def
  | cas =>
    simp only [amoNew, amoBits, Nat.mod_eq_of_lt c.isLt, BitVec.toNat_inj, apply_ite BitVec.toNat]

theorem Wd.bits_bounds (w : Wd) : 0 < w.bits ∧ w.bits ≤ 64 ∧ 8 * wdBytes w = w.bits := by
  cases w <;> decide

theorem Acc.step_amo {a : Acc} {op : AmoOp} {w : Wd} (old : BitVec w.bits) {b c : BitVec w.bits} (hk : a.kind = .amo op)
    (hn : a.n = wdBytes w) (hb : a.arg = b.toNat) (hc : a.cmp = c.toNat) :
    a.step old.toNat = ⟨some (amoBits op old b c).toNat, (old.signExtend 64).toNat, 0⟩ := by
  obtain ⟨hpos, hle, hbits⟩ := Wd.bits_bounds w
  simp only [Acc.step, hk, hn, hb, hc, hbits, Nat.mod_eq_of_lt b.isLt, amoNew_toNat hpos, sext_toNat hpos hle]

/-! ### Barrier objects (17 R364, R366) -/

/-- The fields that a step reads out of an object are those it was made of (17 Table 17-1). -/
theorem barrierObj_fields {ph rm pd ct : Nat} (hph : ph < 2) (hrm : rm < 2 ^ 15) (hpd : pd < 2 ^ 48) :
    barrierObj ph rm pd ct % 2 ^ 64 / 2 ^ 63 = ph ∧ barrierObj ph rm pd ct % 2 ^ 64 / 2 ^ 48 % 2 ^ 15 = rm ∧
    barrierObj ph rm pd ct % 2 ^ 64 % 2 ^ 48 = pd ∧ barrierObj ph rm pd ct / 2 ^ 64 = ct := by
  unfold barrierObj
  omega

/-- The object that a step leaves: its doubleword 1 stands, and its doubleword 0 completes the phase where nothing is awaited. -/
theorem afterStep_eq_barStep {ct : Nat} (hct : ct < 2 ^ 15) (ph rm pd : Nat) :
    ct * 2 ^ 64 + (barStep ph rm pd ct).1 = afterStep ph rm pd ct := by
  simp only [barStep, afterStep, barrierObj, Nat.mod_eq_of_lt hct]
  split_ifs <;> omega

theorem barStep_done (ph rm pd ct : Nat) : (barStep ph rm pd ct).2 = decide (rm = 0 ∧ pd = 0) := rfl

section BarrierSteps

variable {ph rm pd ct : Nat} (hph : ph < 2) (hrm : rm < 2 ^ 15) (hpd : pd < 2 ^ 48) (hct : ct < 2 ^ 15) (arg : Nat)

include hph hrm hpd

/-- BARWAIT and BARTEST compare the phase and leave the object as it is. -/
theorem barNew_wait_or_test {op : BarOp} (hop : op = .wait ∨ op = .test) :
    barNew op (barrierObj ph rm pd ct) arg = ⟨none, if ph ≠ arg % 2 then 1 else 0, 0⟩ := by
  obtain ⟨hphase, -⟩ := barrierObj_fields (ct := ct) hph hrm hpd
  obtain rfl | rfl := hop <;> simp only [barNew, hphase, bne_iff_ne]

include hct

/-- An arrival faults where none is awaited, else counts itself and adds its bytes. -/
theorem barNew_arr : barNew .arr (barrierObj ph rm pd ct) arg =
    if rm = 0 then ⟨none, 0, 0x85⟩
    else ⟨some (afterStep ph (rm - 1) ((pd + arg % 2 ^ 48) % 2 ^ 48) ct),
      ph + if rm - 1 = 0 ∧ (pd + arg % 2 ^ 48) % 2 ^ 48 = 0 then 2 else 0, 0⟩ := by
  obtain ⟨hphase, hremain, hpending, hdw1⟩ := barrierObj_fields (ct := ct) hph hrm hpd
  simp only [barNew, hphase, hremain, hpending, hdw1, Nat.mod_eq_of_lt hct, afterStep_eq_barStep hct, barStep_done,
    decide_eq_true_eq]

/-- BAREXP adds the expected bytes. -/
theorem barNew_exp : barNew .exp (barrierObj ph rm pd ct) arg =
    ⟨some (afterStep ph rm ((pd + arg % 2 ^ 48) % 2 ^ 48) ct), if rm = 0 ∧ (pd + arg % 2 ^ 48) % 2 ^ 48 = 0 then 2 else 0, 0⟩ := by
  obtain ⟨hphase, hremain, hpending, hdw1⟩ := barrierObj_fields (ct := ct) hph hrm hpd
  simp only [barNew, hphase, hremain, hpending, hdw1, Nat.mod_eq_of_lt hct, afterStep_eq_barStep hct, barStep_done,
    decide_eq_true_eq]

/-- A decrement of a copy engine takes off the bytes that have landed. -/
theorem barNew_dec : barNew .dec (barrierObj ph rm pd ct) arg =
    ⟨some (afterStep ph rm ((pd + (2 ^ 48 - arg % 2 ^ 48)) % 2 ^ 48) ct),
      if rm = 0 ∧ (pd + (2 ^ 48 - arg % 2 ^ 48)) % 2 ^ 48 = 0 then 2 else 0, 0⟩ := by
  have hsub : pd + 2 ^ 48 - arg % 2 ^ 48 = pd + (2 ^ 48 - arg % 2 ^ 48) := by omega
  obtain ⟨hphase, hremain, hpending, hdw1⟩ := barrierObj_fields (ct := ct) hph hrm hpd
  simp only [barNew, hsub, hphase, hremain, hpending, hdw1, Nat.mod_eq_of_lt hct, afterStep_eq_barStep hct, barStep_done,
    decide_eq_true_eq]

end BarrierSteps

/-- BARINIT writes the object anew, whatever stood there. -/
theorem barNew_init {arg : Nat} (harg : arg < 2 ^ 15) (o : Nat) : barNew .init o arg = ⟨some (barrierObj 0 arg 0 arg), 0, 0⟩ := by
  simp only [barNew, barrierObj, Nat.mod_eq_of_lt harg, zero_mul, zero_add, add_zero]

theorem Acc.step_bar {a : Acc} {op : BarOp} (hk : a.kind = .bar op) (o : Nat) : a.step o = barNew op o a.arg := by
  simp only [Acc.step, hk]

/-- Settles O20: an atomic's step by the operations of bit vectors, a barrier's by the fields of its object, one word at a time. -/
theorem stepsComputeTheirNewDatum : Obligations.StepsComputeTheirNewDatum := by
  unfold Obligations.StepsComputeTheirNewDatum
  refine ⟨fun a op w old b c hk hn hb hc => Acc.step_amo old hk hn hb hc, fun a ph rm pd ct hph hrm hpd hct => ?_⟩
  refine ⟨fun hk hzero => ?arrFault, fun hk hpos => ?arr, fun hk => ?exp, fun hk => ?dec, fun hk => ?test, fun hk harg => ?init⟩
  case arrFault => rw [Acc.step_bar hk, barNew_arr hph hrm hpd hct, if_pos hzero]
  case arr =>
    have hlast : rm - 1 = 0 ↔ rm = 1 := by omega
    simp only [Acc.step_bar hk, barNew_arr hph hrm hpd hct, if_neg hpos, hlast, mul_ite, mul_one, mul_zero]
  case exp => simp only [Acc.step_bar hk, barNew_exp hph hrm hpd hct, mul_ite, mul_one, mul_zero]
  case dec => simp only [Acc.step_bar hk, barNew_dec hph hrm hpd hct, mul_ite, mul_one, mul_zero]
  case test =>
    obtain hk | hk := hk
    · exact (Acc.step_bar hk _).trans (barNew_wait_or_test hph hrm hpd _ (.inl rfl))
    · exact (Acc.step_bar hk _).trans (barNew_wait_or_test hph hrm hpd _ (.inr rfl))
  case init => exact (Acc.step_bar hk _).trans (barNew_init harg _)

end Sys2Proof.Machine
end
